-- ==== Sys2Proof/Word.lean ====
section
/-! DEFINITION. Sys2Proof/Word.lean: the word, byte and time types of the register space and of cell memory. -/
namespace Sys2Proof

/-- A register word: "word" always means 32 bits (chapter 0, Conventions). -/
abbrev Word := BitVec 32

/-- One byte of traffic or of external memory. -/
abbrev Byte := BitVec 8

/-- An 80-bit time value: 48-bit seconds and a 32-bit fraction (R160, R521). -/
abbrev Time := BitVec 80

end Sys2Proof
end

