-- ==== Sys2Proof/Types.lean ====
section
/-! DEFINITION. Sys2Proof/Types.lean: the plain data that commands carry and the state holds: packets, CAN frames,
characters, error-correction outcomes. -/
namespace Sys2Proof

/-- A port number P00 to P15. -/
abbrev PortId := Fin 16
/-- A circuit number C00 to C63, and its circuit context's. -/
abbrev CircId := Fin 64
/-- A context number: 0–63 for circuit contexts, 64 + k for system context Sk (R570). -/
abbrev CtxId := Fin 72

/-- A fabric packet (Table 14-1). Control packets leave the DATA fields 0. -/
structure Pkt where
  cls : Nat
  typ : Nat
  fl : Nat
  dst : Nat
  src : Nat
  dcirc : Nat
  scirc : Nat
  hops : Nat
  seq : Nat
  ts : Nat
  sleeve : Word
  body : List Byte
  deriving DecidableEq, Repr

/-- A CAN frame (chapter 13): `dlc` codes the data length; the data has that many bytes. -/
structure CanFrame where
  xtd : Bool
  id : Nat
  rtr : Bool
  fdf : Bool
  brs : Bool
  esi : Bool
  dlc : Nat
  data : List Byte
  deriving DecidableEq, Repr

/-- Three samples of one bit, in order: sample 7 in bit 2, sample 8 in bit 1, sample 9 in bit 0; 1 is mark (R172, R173). -/
abbrev Sample3 := BitVec 3

/-- What the receiver sampled of a character (R172–R175): samples 7, 8 and 9 of each bit in line order (start, data bits least
significant first, the parity or mark bit of the format, the first stop bit), whether RXD is at mark at sample 10 of the stop bit,
which data bits are upset on the crossing from the port's clock to CORE, after the character check is taken (R276), and the time of
sample 0 of the start bit. A bit that is not listed was sampled at mark. -/
structure RxBits where
  samples : List Sample3
  next : Bool
  upset : Byte
  t0 : BitVec 80
  deriving DecidableEq, Repr

/-- The eight conversions that make one strap reading, in mV (R38). -/
abbrev Conversions := List (BitVec 12)

/-- A CAN channel: 0 for A, 1 for B. -/
abbrev ChanId := Fin 2
/-- A message object number. -/
abbrev ObjId := Fin 128
/-- A trunk: 0 CAN A, 1 CAN B, 2–5 UT0–UT3. -/
abbrev TrunkId := Fin 6
/-- A cell index. -/
abbrev CellId := Fin 4096

/-- Who asks the allocator for a cell (R235): port `n`'s receiver, object `i` of a CAN channel, a host PUSH, the fabric for
an origin endpoint, a circuit context for its own circuit; or the system reserve, for one of the uses of Table 7-6. -/
inductive Requester where
  | port (n : Fin 16) (c : Fin 64)
  | can (ch : Fin 2) (i : Fin 128) (c : Fin 64)
  | push (c : Fin 64)
  | fabric (dev : BitVec 12) (rc : Fin 64) (c : Fin 64)
  | ctx (x : Fin 64)
  | control
  | relay
  | journal
  | other
  deriving DecidableEq, Repr

/-- What a memory word showed when it was read (R290, R291, R293): sound; a correctable error; a correctable error that was
there again in the read after its write-back; an uncorrectable error. -/
inductive EccRead where
  | sound | corrected | stuck | uncorrectable
  deriving DecidableEq, Repr

/-- What a PULL's copy met at point 5 (R284, R417): an uncorrectable error in the word of the payload with this index, or bytes whose
CRC-32C is this word. -/
inductive CopyUpset where
  | unreadable (w : Fin 30)
  | sum (w : Word)
  deriving DecidableEq, Repr

/-- A memory error that comes about by itself in a protected memory which no scrubber reads (Table 8-5): an uncorrectable one in a
general register of a context, in a stock ROM word, or in a CAN message object's memory word (R468), or a correctable one there. -/
inductive Upset where
  | greg (x : CtxId) (r : Fin 16)
  | rom (a : Fin 8192)
  | msg (ch : ChanId) (i : ObjId) (word : Fin 4) (bad : Bool)
  deriving DecidableEq, Repr

/-- The memories that a start-up finds attached (R364, R365): a flash with its RDID, its basic parameter table if it answers
SFDP (4 KiB erase, erase opcode, 4-byte addressing only, log2 of density, log2 of page size, erase suspend) and the bytes it
holds; an FRAM likewise, with what each of
the two RDID reads on its select shows, before which MSIO is driven high and then low (R364). Bytes not listed read 0xFF. -/
structure MemFit where
  flash : Bool
  flashId : BitVec 24
  sfdp : Option (Bool × BitVec 8 × Bool × Nat × Nat × Bool)
  flashData : List (Nat × Byte)
  fram : Bool
  framId : BitVec 24
  framAgain : BitVec 24
  framData : List (Nat × Byte)
  deriving DecidableEq, Repr

/-- The host phase of a framed host frame (R395): H0, H1, the data words and the trailer, as sampled. -/
structure HostFrame where
  h0 : Word
  h1 : Word
  data : List Word
  trailer : Word
  deriving DecidableEq, Repr

/-- What the device saw of a host frame by the time HSEL_N rises: a host phase broken off, with its complete words and whether a
partial word follows; what came after a judged host phase: a release in mid-word of the device phase, surplus clocks, and the
data-word positions of the device phase that had not crossed in time (R402, the header being position 0); or a chain frame of
`m` clocks whose last bits, right-aligned, are `bits` (R424). -/
inductive HostEnd where
  | broken (words : List Word) (part : Bool)
  | rest (frag surplus : Bool) (late : List (Fin 66))
  | chain (m : Nat) (bits : BitVec 64)
  deriving DecidableEq, Repr

/-- A block instance of R142. -/
inductive Inst where
  | glb | str | sup | clk
  | port (n : Nat)
  | cel
  | circ (n : Nat)
  | ctx (n : Nat)
  | seq | mem | cana | canb | fab | tim | hst
  deriving DecidableEq, Repr

/-- Branch conditions (Table 10-2), code 15 being reserved. -/
inductive Cond where
  | al | eq | ne | cs | cc | mi | pl | er | ner | hi | ls | ge | lt | gt | le
  deriving DecidableEq, Repr

end Sys2Proof
end

