-- ==== Sys2Proof/Syntax.lean ====
section
/-! DEFINITION. Sys2Proof/Syntax.lean: the commands of the block, one constructor per row of spec/opcode_table.json. A
command is an operation a host performs or an event that comes about; its operands are what the outside world supplies
with it (an index, a register address, a received character, a frame, a reading). An operand with a default may be left out: the default is
the quiet case. -/
namespace Sys2Proof

/-- The commands. -/
inductive Instr where
  -- Supply, reset and start-up
  /-- SUPPLY_BELOW_BROWNOUT (R115): VDDIO falls below the brownout threshold for long enough, so the supply monitor asserts reset and the device enters OFF. -/
  | supplyBelowBrownout (same : Bool := false)
  /-- VDDIO_OUTAGE (R115): VDDIO falls below 1.6 V and the HOLD domain records an outage, which later makes the reset a power-on reset. -/
  | vddioOutage
  /-- HOLD_SWITCHOVER (R83): VDDIO crosses the switch-over threshold and the HOLD domain moves its supply between VDDIO and VBAT without disturbing the time count. -/
  | holdSwitchover (toVbat : Bool)
  /-- POWER_ON_RELEASE (R115): 1 ms after VDDIO rises above the rising threshold, the supply monitor releases its reset. -/
  | powerOnRelease (bat : Bool) (kept : Bool) (xtal : Bool := true)
  /-- PIN_RESET (R89): RESET_N is held low long enough and the device resets with cause 2. -/
  | pinReset (same : Bool := false)
  /-- RESET_RELEASE (R40): The later of the power-on release and the rise of RESET_N starts the strap first pass and enables the ROOT oscillator. -/
  | resetRelease (tmode : Bool) (aux : BitVec 8)
  /-- STRAP_SLOT_END (R40): A 576-cycle strap slot ends: its 8 conversions give the pin's reading, the next slot begins and the next AUX sample is taken. -/
  | strapSlotEnd (conv : Conversions) (aux : BitVec 8)
  /-- ROOT_VALID (R100): The clock monitor has counted 4096 good ROOT cycles, so ROOT is valid and the PLL is started. -/
  | rootValid
  /-- ROOT_START_RETRY (R104): ROOT fails to become valid in 10 ms or the PLL fails three lock attempts, so the device stays in reset and restarts the oscillator every 100 ms. -/
  | rootStartRetry
  /-- PLL_LOCKED (R101): The phase detector stays in its window for 256 ROOT cycles at start-up, so the VCO domains are released and the host port answers. -/
  | pllLocked (fit : Option MemFit)
  /-- HOLD_HANDOVER (R524): At a HOLD tick the time count and its quality pass between the HOLD and TIME domains. -/
  | holdHandover (err : Fin 3)
  /-- JOURNAL_BOOT_SCAN (R391): The journal ring is scanned, records near the head are classified, and the last-known-good straps and high-water marks are recovered. -/
  | journalBootScan (a : BitVec 256) (b : BitVec 256)
  /-- JOURNAL_CLAIM_VERIFY (R380): R380 -/
  | journalClaimVerify (uid : BitVec 64)
  /-- IMAGE_LOAD (R325): At start-up the device loads the valid image slot with the higher serial, checks BODYCRC and the tag, and falls back to the other slot. -/
  | imageLoad
  /-- SELF_AUDIT (R560): After a brownout reset the strap, memory and port checks run and reach a verdict before ports go live. -/
  | selfAudit (straps : List (Conversions × Conversions)) (mem : List (Fin 151552 × EccRead)) (loops : List (List (Byte × Fin 4)))
  /-- MANTLE_APPLY (R119): At step 8 the Mantle layer is applied, the shadows that are not host-written take Mantle values, and held commits apply in strobe order. -/
  | mantleApply
  /-- PORTS_LIVE (R118): At step 9 receivers arm, transmitters accept traffic, CAN channels integrate, circuit contexts start and the run marker is set. -/
  | portsLive
  -- Clocks and power states
  /-- PLL_UNLOCK (R130): The PLL leaves its window for 4 ROOT cycles, so VCO domains are gated, contexts stop and the relock sequence begins. -/
  | pllUnlock
  /-- ROOT_LOST (R102): The clock monitor counts ROOT outside 50–150 % of nominal, which also unlocks the PLL. -/
  | rootLost
  /-- PLL_RELOCK (R130): The PLL locks again after an unlock, so the VCO domains are released, RELOCK is set and held work proceeds. -/
  | pllRelock
  /-- CLOCK_FAIL_RESET (R103): ROOT is not valid within 10 ms of loss, or the PLL is not locked within 1 ms, so the device performs a clock-fail reset. -/
  | clockFailReset
  /-- QUIET_ENTER (R122): With QUIETEN set, all ports idle and every context waiting, the device gates idle parts and enters QUIET. -/
  | quietEnter
  /-- QUIET_EXIT (R123): Traffic reaches a gated part, which ungates, and the state returns to RUN. -/
  | quietExit
  /-- DORMANT (R125): A strobe of CLK_CTL.DORMANT requests DORMANT and sets DREQ. -/
  | dormant
  /-- DCANCEL (R125): A strobe of CLK_CTL.DCANCEL cancels a pending DORMANT request. -/
  | dcancel
  /-- DORMANT_ENTER (R125): All idle conditions have held for 64 CORE cycles, so the device stops the PLL and the VCO domains and enters DORMANT. -/
  | dormantEnter
  /-- WAKE_EVENT (R126): An enabled start edge, HSEL_N fall, WAKE level or supervisor alarm wakes the device from DORMANT. -/
  | wakeEvent (src : BitVec 20)
  /-- DORMANT_TIMER_EXPIRY (R126): The dormant timer counted in HOLD expires and wakes the device. -/
  | dormantTimerExpiry
  /-- WAKE_COMPLETE (R127): After wake the PLL locks and ports go live, so held work proceeds and CLK_EVT.WAKE is set. -/
  | wakeComplete
  /-- SLOW_WAKE (R127): ROOT is not valid 150 µs after wake, so the device falls back to the normal crystal start and sets SLOWWAKE. -/
  | slowWake
  /-- RSTARM (R113): A strobe of CLK_CTL.RSTARM arms the software reset for 64 µs. -/
  | rstarm
  /-- RSTARM_EXPIRY (R113): The 64 µs arming window ends without RSTGO. -/
  | rstarmExpiry
  /-- RSTGO (R113): A strobe of CLK_CTL.RSTGO while armed performs a software reset, and is ignored otherwise. -/
  | rstgo
  /-- PORT_FREEZE (R107): During a group clock change a port of the group reaches its own boundary and freezes. -/
  | portFreeze (n : PortId)
  /-- GROUP_QUIET_POINT (R107): Every port of the group is frozen, so the group clock is stopped and switched to its new source. -/
  | groupQuietPoint (g : Fin 4)
  /-- GROUP_CLOCK_RELEASE (R107): After 8 new-clock cycles the group clock is released, ports unfreeze with their co-committed fields and PGDONE is set. -/
  | groupClockRelease (g : Fin 4)
  /-- PFI_FALL (R554): PFI_N falls, so SUP_EVT.PFI is set, a power-dip record is staged and no new journal record starts. -/
  | pfiFall
  /-- PFI_RECOVER (R389): PFI_N has been high for 10 ms, so deferred and staged journal records are written. -/
  | pfiRecover
  -- Registers, commits, mailbox and straps
  /-- COMMIT_STROBE (R141): A write to GLB_COMMIT strobes the selected commit groups and each block instance stages its shadow or queues the strobe. -/
  | commitStrobe (groups : BitVec 8)
  /-- COMMIT_APPLY (R145): A block instance reaches its safe boundary and its turn in the application order and applies all its staged fields at once. -/
  | commitApply (i : Inst)
  /-- COMMIT_SLOW (R150): A staged commit waits longer than GLB_COMMIT_LIMIT, so SLOW is set and a commit-slow record is journaled. -/
  | commitSlow (i : Inst)
  /-- REGISTER_WRITE (R156): A write to a register without a row of its own lands in the shadow or applied copy, clamped to its legal range. -/
  | registerWrite (a : BitVec 16) (w : Word)
  /-- READ_CLEAR (R15): A normal read of an RC field returns its bits and clears exactly those bits. -/
  | readClear (a : BitVec 16)
  /-- MAILBOX_SELECT (R159): A write to MBX_SEL clears VALID and starts a capture of the selected item. -/
  | mailboxSelect (sel : BitVec 16)
  /-- MAILBOX_RECAPTURE (R159): A strobe of MBX_CTL.RECAPTURE clears VALID and captures the selected item again. -/
  | mailboxRecapture
  /-- MAILBOX_CAPTURE_DONE (R159): The selected item, taken whole at one instant, lands in MBX_DAT0 to MBX_DAT3 and VALID is set. -/
  | mailboxCaptureDone
  /-- MAILBOX_DATA_WRITE (R161): A write to an MBX_DAT word stores the data and clears VALID. -/
  | mailboxDataWrite (i : Fin 4) (w : Word)
  /-- MAILBOX_WRITE (R161): A strobe of MBX_CTL.WRITE moves the four data words into the selected item, or sets MBXERR for a read-only item. -/
  | mailboxWrite
  /-- IRAM_WINDOW_WRITE (R135): A write through the instruction RAM window takes effect at once and taints instruction RAM when authentication is required. -/
  | iramWindowWrite (i : Fin 16384) (w : Word)
  /-- MEASURE (R577): A strobe of STR_CTL.MEASURE starts an on-demand measurement of the six strap pins. -/
  | measure
  /-- MEASURE_DONE (R577): The on-demand measurement completes, updating STR_LIVE and setting MEASDONE and LIVEDIFF. -/
  | measureDone (conv : List Conversions)
  /-- HANDBACK (R72): A strobe of STR_CTL.HANDBACK rewrites the selected groups' shadows with Mantle values and commits them. -/
  | handback
  /-- HANDBACK_TIMER_EXPIRY (R72): The hand-back timer expires with no valid host frame and the device performs a hand-back. -/
  | handbackTimerExpiry
  /-- TWIN_NOROUTE_EXPIRY (R68): A profile 12 standby has had no route to its twin for 10 s after Mantle applied and becomes active. -/
  | twinNorouteExpiry
  -- Asynchronous ports
  /-- RECEIVER_ARM (R176): A receiver has seen 16 consecutive mark samples after enable, freeze, wake, relock or gloving and arms. -/
  | receiverArm (n : PortId)
  /-- FALSE_START (R173): A start bit is decided as mark, so the start is discarded and counted in FALSE. -/
  | falseStart (n : PortId) (x : Sample3 := 7#3)
  /-- CHARACTER_RECEIVE (R178): The stop-bit decision completes a character, which gets its error class and flags and is stored in HOLD or CELL mode. -/
  | characterReceive (n : PortId) (r : RxBits)
  /-- BREAK_END (R182): A received break ends at the first mark sample, so LINEBRK clears, BREAKEND is set and the length is latched. -/
  | breakEnd (n : PortId) (len : BitVec 32)
  /-- RECEIVE_TIMEOUT (R196): The receive timeout expires, closing the open cell and delivering a timeout event to the context. -/
  | receiveTimeout (n : PortId)
  /-- TRANSMITTER_START (R168): An idle transmitter with a ready character or break starts it at its next bit tick, asserting DE first in the DE role. -/
  | transmitterStart (n : PortId)
  /-- TRANSMIT_CHARACTER_DONE (R199): The last stop bit ends and the transmitter takes the first applicable action at its decision point. -/
  | transmitCharacterDone (n : PortId)
  /-- DE_LEAD_END (R217): The driver-enable lead ends and the start bit or break begins. -/
  | deLeadEnd (n : PortId)
  /-- DE_LAG_END (R218): The driver-enable lag ends with nothing ready, so CTL releases and the receiver re-arms if it was suppressed. -/
  | deLagEnd (n : PortId)
  /-- SENDBRK (R184): A strobe of Pnn_CTL.SENDBRK requests a break at the next decision point, merging with a pending one. -/
  | sendbrk (n : PortId)
  /-- BREAK_SEND_END (R184): The transmitted break and its mark-after-break end, giving a decision point. -/
  | breakSendEnd (n : PortId)
  /-- CLOSE (R194): A strobe of Pnn_CTL.CLOSE closes the open receive cells of all fed circuits. -/
  | close (n : PortId)
  /-- PORT_CLRCNT (R229): A strobe of Pnn_CTL.CLRCNT zeroes the port's counters. -/
  | portClrcnt (n : PortId)
  /-- PORT_COMMIT_APPLY (R202): A port reaches its character boundary and applies its staged fields, re-arming the receiver if DIV, FMT or EN changed. -/
  | portCommitApply (n : PortId)
  /-- CTS_CHANGE (R208): The synchronised CTS level changes, setting CTSCHG and gating the transmitter. -/
  | ctsChange (n : Fin 8) (level : Bool)
  -- Cells, circuits and integrity
  /-- CELL_ALLOCATE (R243): The allocator serves an allocation request by the decision table and grants or refuses a cell. -/
  | cellAllocate (rs : List Requester)
  /-- CELL_FREE (R239): The allocator serves a free, comparing the cell's owner with the requester. -/
  | cellFree (i : CellId) (r : CtxId)
  /-- CREDIT_TABLE_TIMER (R253): 20 ms after an entry's first credit the owed credits are sent as one Steel CREDIT packet. -/
  | creditTableTimer (dev : BitVec 12) (rc : CircId) (owner : CircId)
  /-- CREDIT_PROBE_TIMER (R255): The probe interval expires while credits are 0 and a cell waits, so a Steel credit probe is sent if a route exists. -/
  | creditProbeTimer (c : CircId)
  /-- STALL_TIMER_EXPIRY (R262): A circuit's stall timer expires and the device reports, discards or cuts as STALLACT says. -/
  | stallTimerExpiry (c : CircId)
  /-- CUT (R264): A strobe of Cnn_CTL.CUT cuts the circuit, freeing its cells, advancing TXSEQ and sending a tombstone notice. -/
  | cut (c : CircId)
  /-- RESTART (R266): A strobe of Cnn_CTL.RESTART takes a circuit out of FAULT. -/
  | restart (c : CircId)
  /-- FRESTART_EXPIRY (R266): The FRESTART interval elapses and the circuit leaves FAULT automatically. -/
  | frestartExpiry (c : CircId)
  /-- CIRCUIT_CLRCNT (R229): A strobe of Cnn_CTL.CLRCNT zeroes the circuit counters and sets PEAK to the current HELD. -/
  | circuitClrcnt (c : CircId)
  /-- CIRCUIT_COMMIT_APPLY (R260): A circuit and its context reach the cell boundary and apply their staged fields together. -/
  | circuitCommitApply (c : CircId)
  /-- SCRUB_WORD (R297): The scrubber reads the next word at its rate, correcting or poisoning it. -/
  | scrubWord (r : EccRead) (behind : Bool) (wrote : Bool := false) (hits : List Upset := [])
  /-- FULL (R299): A strobe of CEL_SCRUBCTL.FULL starts a full-speed scrub pass from word 0. -/
  | full
  /-- INTEGRITY_CLRCNT (R297): A strobe of CEL_SCRUBCTL.CLRCNT zeroes the sleeve and ECC counters. -/
  | integrityClrcnt
  -- Sequencer instructions
  /-- ADD (R343): R343 -/
  | add (x : CircId) (d : Fin 16) (a : Fin 16) (b : Fin 16)
  /-- SUB (R343): R343 -/
  | sub_ (x : CircId) (d : Fin 16) (a : Fin 16) (b : Fin 16)
  /-- AND (R343): R343 -/
  | and_ (x : CircId) (d : Fin 16) (a : Fin 16) (b : Fin 16)
  /-- OR (R343): R343 -/
  | or_ (x : CircId) (d : Fin 16) (a : Fin 16) (b : Fin 16)
  /-- XOR (R343): R343 -/
  | xor_ (x : CircId) (d : Fin 16) (a : Fin 16) (b : Fin 16)
  /-- SHL (R343): R343 -/
  | shl (x : CircId) (d : Fin 16) (a : Fin 16) (b : Fin 16)
  /-- SHR (R343): R343 -/
  | shr (x : CircId) (d : Fin 16) (a : Fin 16) (b : Fin 16)
  /-- SAR (R343): R343 -/
  | sar (x : CircId) (d : Fin 16) (a : Fin 16) (b : Fin 16)
  /-- CMP (R343): R343 -/
  | cmp (x : CircId) (a : Fin 16) (b : Fin 16)
  /-- MUL (R343): R343 -/
  | mul_ (x : CircId) (d : Fin 16) (a : Fin 16) (b : Fin 16)
  /-- ADDI (R343): R343 -/
  | addi (x : CircId) (d : Fin 16) (a : Fin 16) (imm : BitVec 18)
  /-- ANDI (R343): R343 -/
  | andi (x : CircId) (d : Fin 16) (a : Fin 16) (imm : BitVec 18)
  /-- ORI (R343): R343 -/
  | ori (x : CircId) (d : Fin 16) (a : Fin 16) (imm : BitVec 18)
  /-- XORI (R343): R343 -/
  | xori (x : CircId) (d : Fin 16) (a : Fin 16) (imm : BitVec 18)
  /-- CMPI (R343): R343 -/
  | cmpi (x : CircId) (a : Fin 16) (imm : BitVec 18)
  /-- SHI_SHL (R343): R343 -/
  | shiShl (x : CircId) (d : Fin 16) (a : Fin 16) (n : BitVec 5)
  /-- SHI_SHR (R343): R343 -/
  | shiShr (x : CircId) (d : Fin 16) (a : Fin 16) (n : BitVec 5)
  /-- SHI_SAR (R343): R343 -/
  | shiSar (x : CircId) (d : Fin 16) (a : Fin 16) (n : BitVec 5)
  /-- SHI_ROR (R343): R343 -/
  | shiRor (x : CircId) (d : Fin 16) (a : Fin 16) (n : BitVec 5)
  /-- MOVI (R344): R344 -/
  | movi (x : CircId) (d : Fin 16) (imm : BitVec 18)
  /-- MOVH (R344): R344 -/
  | movh (x : CircId) (d : Fin 16) (imm : BitVec 16)
  /-- EXT (R344): R344 -/
  | ext (x : CircId) (d : Fin 16) (a : Fin 16) (l : BitVec 5) (p : BitVec 5)
  /-- INS (R344): R344 -/
  | ins (x : CircId) (d : Fin 16) (a : Fin 16) (l : BitVec 5) (p : BitVec 5)
  /-- BTST (R344): R344 -/
  | btst (x : CircId) (a : Fin 16) (p : BitVec 5)
  /-- LDP (R344): R344 -/
  | ldp (x : CircId) (d : Fin 16) (a : Fin 16)
  /-- BR (R345): R345 -/
  | br (x : CircId) (c : Cond) (off : BitVec 22)
  /-- JMP (R345): R345 -/
  | jmp (x : CircId) (t : BitVec 23)
  /-- CALL (R346): R346 -/
  | call (x : CircId) (t : BitVec 23)
  /-- RET (R346): R346 -/
  | ret (x : CircId)
  /-- JR (R345): R345 -/
  | jr (x : CircId) (a : Fin 16)
  /-- ILLEGAL_ENCODING (R338): R338 -/
  | illegalEncoding (x : CircId)
  /-- WAIT (R312): R312 -/
  | wait (x : CircId) (d : Fin 16)
  /-- WAIT_WAKE (R312): R312 -/
  | waitWake (x : CircId)
  /-- EVM_SET (R347): R347 -/
  | evmSet (x : CircId) (d : Fin 16) (m : BitVec 14)
  /-- EVM_OR (R347): R347 -/
  | evmOr (x : CircId) (d : Fin 16) (m : BitVec 14)
  /-- EVM_CLR (R347): R347 -/
  | evmClr (x : CircId) (d : Fin 16) (m : BitVec 14)
  /-- EVM_PEEK (R347): R347 -/
  | evmPeek (x : CircId) (d : Fin 16) (m : BitVec 14)
  /-- EVM_SETR (R347): R347 -/
  | evmSetr (x : CircId) (d : Fin 16) (a : Fin 16)
  /-- TMR_START (R347): R347 -/
  | tmrStart (x : CircId) (n : Bool) (a : Fin 16)
  /-- TMR_STI (R347): R347 -/
  | tmrSti (x : CircId) (n : Bool) (t : BitVec 14)
  /-- TMR_STOP (R347): R347 -/
  | tmrStop (x : CircId) (n : Bool)
  /-- TMR_READ (R347): R347 -/
  | tmrRead (x : CircId) (n : Bool) (d : Fin 16)
  /-- TIMER_EXPIRY (R347): R347 -/
  | timerExpiry (x : CircId) (n : Bool)
  /-- TIM_FRAC (R348): R348 -/
  | timFrac (x : CircId) (d : Fin 16)
  /-- TIM_SECL (R348): R348 -/
  | timSecl (x : CircId) (d : Fin 16)
  /-- TIM_SECH (R348): R348 -/
  | timSech (x : CircId) (d : Fin 16)
  /-- CRC_CFG (R349): R349 -/
  | crcCfg (x : CircId) (a : Fin 16) (w : Fin 3) (rin : Bool) (rout : Bool)
  /-- CRC_INIT (R349): R349 -/
  | crcInit (x : CircId) (a : Fin 16)
  /-- CRC_FEED (R349): R349 -/
  | crcFeed (x : CircId) (a : Fin 16)
  /-- CRC_FEEDW (R349): R349 -/
  | crcFeedw (x : CircId) (a : Fin 16)
  /-- CRC_READ (R349): R349 -/
  | crcRead (x : CircId) (d : Fin 16) (a : Fin 16)
  /-- PM_VAL (R350): R350 -/
  | pmVal (x : CircId) (n : Bool) (a : Fin 16)
  /-- PM_MASK (R350): R350 -/
  | pmMask (x : CircId) (n : Bool) (a : Fin 16)
  /-- PM_LEN (R350): R350 -/
  | pmLen (x : CircId) (n : Bool) (k : Fin 5)
  /-- PM_FEED (R350): R350 -/
  | pmFeed (x : CircId) (d : Fin 16) (a : Fin 16)
  /-- PM_CLR (R350): R350 -/
  | pmClr (x : CircId)
  /-- PRX (R351): R351 -/
  | prx (x : CircId) (d : Fin 16) (p : Fin 16)
  /-- PRX_NB (R351): R351 -/
  | prxNb (x : CircId) (d : Fin 16) (p : Fin 16)
  /-- PRX_TS (R351): R351 -/
  | prxTs (x : CircId) (d : Fin 16) (p : Fin 16)
  /-- PTX (R353): R353 -/
  | ptx (x : CircId) (a : Fin 16) (p : Fin 16)
  /-- PTX_L (R353): R353 -/
  | ptxL (x : CircId) (a : Fin 16) (p : Fin 16)
  /-- PTX_NB (R351): R353 -/
  | ptxNb (x : CircId) (a : Fin 16) (p : Fin 16)
  /-- PBRK (R351): R351 -/
  | pbrk (x : CircId) (p : Fin 16)
  /-- PST (R351): R351 -/
  | pst (x : CircId) (d : Fin 16) (p : Fin 16)
  /-- CUR_TAKE (R355): R355 -/
  | curTake (x : CircId) (d : Fin 16)
  /-- CUR_PASS (R354): R354 -/
  | curPass (x : CircId)
  /-- CUR_FREE (R354): R354 -/
  | curFree (x : CircId)
  /-- CUR_ALLOC (R357): R357 -/
  | curAlloc (x : CircId) (d : Fin 16)
  /-- CUR_CLOSE (R355): R355 -/
  | curClose (x : CircId) (d : Fin 16) (err : Bool) (loss : Bool) (cont : Bool)
  /-- CUR_DISC (R355): R355 -/
  | curDisc (x : CircId)
  /-- CUR_SEEK (R355): R355 -/
  | curSeek (x : CircId) (a : Fin 16)
  /-- CUR_INFO (R355): R355 -/
  | curInfo (x : CircId) (d : Fin 16) (w : Bool)
  /-- CUR_HDR (R355): R355 -/
  | curHdr (x : CircId) (d : Fin 16) (k : Fin 4)
  /-- CUR_FREEI (R355): R355 -/
  | curFreei (x : CircId) (a : Fin 16)
  /-- RD (R356): R356 -/
  | rd (x : CircId) (d : Fin 16) (crc : Bool) (pm : Bool) (soft : Bool) (word : Bool)
  /-- WR (R356): R356 -/
  | wr (x : CircId) (a : Fin 16) (crc : Bool) (latch : Bool) (word : Bool)
  /-- COPY (R355): R355 -/
  | copy (x : CircId) (a : Fin 16) (crc : Bool)
  /-- CRD_CREDITS (R358): R358 -/
  | crdCredits (x : CircId) (d : Fin 16)
  /-- CRD_HELD (R358): R358 -/
  | crdHeld (x : CircId) (d : Fin 16)
  /-- CRD_WAITING (R358): R358 -/
  | crdWaiting (x : CircId) (d : Fin 16)
  /-- CRD_STATE (R358): R358 -/
  | crdState (x : CircId) (d : Fin 16)
  /-- CRD_INBOX (R358): R358 -/
  | crdInbox (x : CircId) (d : Fin 16)
  /-- NOP (R358): R358 -/
  | nop (x : CircId)
  /-- SYS_CNT0 (R358): R358 -/
  | sysCnt0 (x : CircId)
  /-- SYS_CNT1 (R358): R358 -/
  | sysCnt1 (x : CircId)
  /-- SYS_SIGNAL (R358): R358 -/
  | sysSignal (x : CircId) (j : Fin 8)
  -- Sequencer control
  /-- XIP_FILL_DONE (R320): R320 -/
  | xipFillDone (r : Fin 3)
  /-- XIPINV (R322): R322 -/
  | xipinv
  /-- LOAD (R331): R331 -/
  | load
  /-- RELOAD_DONE (R331): R331 -/
  | reloadDone
  /-- HALT (R308): R308 -/
  | halt (x : CircId)
  /-- RESUME (R307): R307 -/
  | resume (x : CircId)
  /-- START (R306): R306 -/
  | start (x : CircId)
  /-- SIGNAL (R588): R588 -/
  | signal (x : CircId)
  /-- SYSTEM_CONTEXT_RESTART (R318): R318 -/
  | systemContextRestart (k : Fin 8)
  /-- UTILISATION_UPDATE (R303): R303 -/
  | utilisationUpdate
  -- Memory port and journal
  /-- MEM_ENTRY_DONE (R362): R362 -/
  | memEntryDone (din : List Word)
  /-- FLASH_STATUS_POLL (R367): R367 -/
  | flashStatusPoll (busy : Bool)
  /-- FLASH_BUSY_TIMEOUT (R368): R368 -/
  | flashBusyTimeout
  /-- FLASH_RETRY (R368): R368 -/
  | flashRetry
  /-- PARK_EXPIRY (R370): R370 -/
  | parkExpiry
  /-- MEM_COLLISION (R373): R373 -/
  | memCollision
  /-- GO (R374): R374 -/
  | go
  /-- CHAINGO (R378): R378 -/
  | chaingo
  /-- CHAIN_PERIOD_EXPIRY (R378): R378 -/
  | chainPeriodExpiry
  /-- MEM_CLRCNT (R373): R373 -/
  | memClrcnt
  /-- FORMAT (R382): R382 -/
  | format
  /-- JNL_CLRCNT (R387): R387 -/
  | jnlClrcnt
  /-- JOURNAL_BUCKET_REFILL (R388): R388 -/
  | journalBucketRefill
  -- Host port
  /-- HOST_SELECT_FALL (R423): HSEL_N falls and a host frame begins, loading the status word in chain mode. -/
  | hostSelectFall
  /-- HOST_SELECT_RELEASE (R400): HSEL_N rises, ending the frame: A and P move for an accepted frame, and short or fragmented frames are counted. -/
  | hostSelectRelease (e : HostEnd)
  /-- HOST_NOP (R407): A framed NOP is accepted and replies with GLB_EVTSUM. -/
  | hostNop (f : HostFrame)
  /-- HOST_RD (R408): A framed RD reads N words as normal reads. -/
  | hostRd (f : HostFrame)
  /-- HOST_WR (R409): A framed WR writes N words in order. -/
  | hostWr (f : HostFrame)
  /-- HOST_RMW (R410): A framed RMW writes VALUE under MASK and returns the old value. -/
  | hostRmw (f : HostFrame)
  /-- HOST_MBX_READ (R411): A framed MBX read selects an item, waits for VALID and returns the four words. -/
  | hostMbxRead (f : HostFrame)
  /-- HOST_MBX_WRITE (R411): A framed MBX write selects an item, loads the data and strobes WRITE. -/
  | hostMbxWrite (f : HostFrame)
  /-- HOST_PUSH (R413): PUSH judges the circuit and PSEQ, allocates a cell and closes it when the frame is accepted. -/
  | hostPush (f : HostFrame) (upset : Option (Fin 30) := none)
  /-- HOST_PULL (R416): PULL acknowledges a token and delivers a waiting cell with its sleeve checks. -/
  | hostPull (f : HostFrame) (upset : Option CopyUpset)
  /-- HOST_SNAPSHOT (R418): SNAPSHOT returns a 64-word chunk of the numbered summary, starting a new snapshot with START. -/
  | hostSnapshot (f : HostFrame)
  /-- HOST_AGAIN (R400): A frame with AGAIN sends the previous reply and executes nothing. -/
  | hostAgain (f : HostFrame)
  /-- HOST_ILLEGAL (R399): A frame with a reserved OP or illegal field is accepted and answered ILLEGAL. -/
  | hostIllegal (f : HostFrame)
  /-- CHAIN_NOP (R426): A chain NOP answers GLB_EVTSUM. -/
  | chainNop
  /-- CHAIN_RD (R426): A chain RD reads one word. -/
  | chainRd
  /-- CHAIN_WR (R426): A chain WR writes one word. -/
  | chainWr
  /-- CHAIN_RMW_SET (R426): A chain RMW.SET sets the bits under DATA and returns the old value. -/
  | chainRmwSet
  /-- CHAIN_RMW_CLR (R426): A chain RMW.CLR clears the bits under DATA and returns the old value. -/
  | chainRmwClr
  /-- CHAIN_SNAP (R426): A chain SNAP returns one snapshot word, starting a new snapshot with START. -/
  | chainSnap
  /-- CHAIN_AGAIN (R428): A chain AGAIN executes nothing and the next status repeats the earlier one. -/
  | chainAgain
  /-- HOST_CLRCNT (R405): A strobe of HST_CTL.CLRCNT zeroes the host error counters. -/
  | hostClrcnt
  -- CAN channels
  /-- CAN_INTEGRATED (R445): A channel completes bus integration and may send, and a potential master enters BACKUP. -/
  | canIntegrated (ch : ChanId)
  /-- CAN_FRAME_RECEIVED (R450): A received frame becomes valid and goes to the system buffers or the lowest accepting object. -/
  | canFrameReceived (ch : ChanId) (f : CanFrame) (t0 : BitVec 80)
  /-- CAN_FRAME_TRANSMITTED (R456): A frame sent by the channel becomes valid, so TXDONE is set, the frame is counted and its cell is freed. -/
  | canFrameTransmitted (ch : ChanId) (d : BitVec 16 := 0#16)
  /-- CAN_ARBITRATION_LOST (R457): The channel's frame loses bus arbitration and is counted, then retried or failed as one-shot. -/
  | canArbitrationLost (ch : ChanId) (toRef : Bool)
  /-- CAN_ERROR (R433): The channel detects a bus error and updates its error counters and state as ISO 11898-1 requires. -/
  | canError (ch : ChanId) (kind : Fin 5) (big : Bool) (keep : Bool) (part : Option (CanFrame × BitVec 80)) (d : Option (BitVec 16) := none)
  /-- CAN_PROTOCOL_EXCEPTION (R436): A recessive res bit with PEXC set makes the channel stop receiving and integrate again. -/
  | canProtocolException (ch : ChanId)
  /-- RECOVERED (R462): After 128 occurrences of 11 recessive bits the channel leaves bus-off with its counters at 0. -/
  | recovered (ch : ChanId)
  /-- TXREQ (R453): A strobe of CANx_OBJi_CTL.TXREQ requests one frame from a register-kind transmit object. -/
  | txreq (ch : ChanId) (i : ObjId)
  /-- CANCEL (R460): A strobe of CANx_OBJi_CTL.CANCEL withdraws or stops retrying the object's pending frame. -/
  | cancel (ch : ChanId) (i : ObjId)
  /-- RECOVER (R462): A strobe of CANx_CTL.RECOVER starts held bus-off recovery. -/
  | recover (ch : ChanId)
  /-- CAN_CLRCNT (R462): A strobe of CANx_CTL.CLRCNT zeroes the channel and object counters. -/
  | canClrcnt (ch : ChanId)
  /-- CAN_COMMIT_APPLY (R465): At bus idle the channel applies its staged fields, restarting it for bit timing, mode or FDEN changes. -/
  | canCommitApply (ch : ChanId)
  /-- REFERENCE_MESSAGE_RECEIVED (R473): A valid reference message arrives, its sync mark is captured, the role may change and followers measure. -/
  | referenceMessageReceived (ch : ChanId)
  /-- REFERENCE_MESSAGE_DUE (R471): PERIOD after the last sync mark a master's reference message falls due and is requested. -/
  | referenceMessageDue (ch : ChanId)
  /-- BACKUP_TIMEOUT (R472): A potential master sees no reference message for its backup time and sends its own. -/
  | backupTimeout (ch : ChanId)
  /-- FABRIC_SEGMENT_RECEIVE (R484): A fabric CAN frame is taken and reassembled into its packet, or discarded as a segment error. -/
  | fabricSegmentReceive (ch : ChanId)
  /-- REASSEMBLY_TIMEOUT (R484): A partial packet that receives no frame for 100 ms is discarded. -/
  | reassemblyTimeout (ch : ChanId) (sender : BitVec 12) (cls : BitVec 2)
  /-- FABRIC_FRAME_RETRY (R483): 10 ms after a packet fails on a trunk it is sent again from its first frame. -/
  | fabricFrameRetry (cell : CellId)
  -- Fabric
  /-- TRUNK_FRAME_JUDGE (R488): A UART trunk frame is judged in order at its trailing sync and its packet is taken or discarded. -/
  | trunkFrameJudge (t : Fin 4)
  /-- DATA_RECEIVE (R512): A DATA packet for this device is judged by its reorder context and released, held or discarded. -/
  | dataReceive
  /-- PACKET_RELAY (R509): A packet addressed elsewhere is copied into a relay cell and sent on its best path. -/
  | packetRelay
  /-- CREDIT_RECEIVE (R516): A CREDIT packet raises the sending circuit's CREDITS. -/
  | creditReceive
  /-- PROBE_RECEIVE (R517): A PROBE packet is answered with a PROBEREPLY carrying HELD. -/
  | probeReceive
  /-- PROBEREPLY_RECEIVE (R255): A PROBEREPLY sets the prober's CREDITS to INIT minus the count held. -/
  | probereplyReceive
  /-- TOMB_RECEIVE (R514): A TOMB packet sets the reorder context's TOMB and E and discards older held packets. -/
  | tombReceive
  /-- ROUTE_RECEIVE (R503): A ROUTE packet's entries update the route table by distance vector. -/
  | routeReceive
  /-- HELLO_RECEIVE (R496): A HELLO learns or refreshes a neighbour, updates freshness and may reveal a conflict or defend a claim. -/
  | helloReceive
  /-- CLAIM_RECEIVE (R498): A claim frame is compared by precedence, defeating this device or drawing a defence. -/
  | claimReceive
  /-- TIME_RECEIVE (R545): A TIME packet gives an offset measurement against the sender. -/
  | timeReceive
  /-- HELLO_SEND (R496): The HELLO interval of a trunk expires and a HELLO is sent. -/
  | helloSend (k : TrunkId)
  /-- NEIGHBOUR_LOST (R496): No HELLO from a neighbour for four of its intervals, so it is lost and its routes fail over or enter hold-down. -/
  | neighbourLost (j : Fin 128)
  /-- CLAIM_TIMER (R497): A claim's 100 ms step passes, so the claim is resent or, at 300 ms undefeated, won. -/
  | claimTimer
  /-- CLAIM_COLLISION_RETRY (R498): After a FORM 0 data-field collision the device waits its UID-derived delay and sends again. -/
  | claimCollisionRetry (ch : ChanId)
  /-- AUTO_CLAIM_BACKOFF (R499): After 16 consecutive defeats the device waits 10 s before the next auto candidate. -/
  | autoClaimBackoff
  /-- RECLAIM (R497): A strobe of FAB_CTL.RECLAIM claims REQ again. -/
  | reclaim
  /-- ROUTEUPD (R502): A strobe of FAB_CTL.ROUTEUPD sends a full route update now. -/
  | routeupd
  /-- FAB_CLRCNT (R502): A strobe of FAB_CTL.CLRCNT zeroes the fabric counters. -/
  | fabClrcnt
  /-- ROUTE_UPDATE_PERIOD (R502): RTPER passes and the whole table is sent on every trunk that is up. -/
  | routeUpdatePeriod
  /-- TRIGGERED_UPDATE (R502): Changed route entries are sent within 1 s of a change, at most once per trunk per second. -/
  | triggeredUpdate (k : TrunkId)
  /-- HOLDDOWN_EXPIRY (R505): An entry's hold-down ends and an entry still at 16 is emptied. -/
  | holddownExpiry (i : Fin 256)
  /-- ROUTE_AGE_OUT (R505): An entry not refreshed for 3 × RTPER ages out. -/
  | routeAgeOut (i : Fin 256)
  /-- REORDER_GAP_EXPIRY (R513): A gap at E has stood for REORDER, so E skips past it and held packets are released. -/
  | reorderGapExpiry (r : Fin 128)
  /-- REORDER_CONTEXT_IDLE (R511): A reorder context with no held packets idle for 60 s becomes free. -/
  | reorderContextIdle (r : Fin 128)
  /-- PACKET_LIFE_EXPIRY (R508): A packet not sent within LIFE is discarded and its cell freed. -/
  | packetLifeExpiry (cell : CellId)
  /-- CELL_HANDOVER (R507): A closed cell with credit and a valid route is handed to the fabric or delivered locally. -/
  | cellHandover (c : CircId)
  -- Timebase
  /-- SECOND_BOUNDARY (R521): The fraction wraps to 0, so TIM commits apply, pending seconds load, TPO rises and SECOND events are set. -/
  | secondBoundary
  /-- TPI_PULSE (R529): A TPI edge is captured, accepted or rejected, and gives a measurement to the discipline loop. -/
  | tpiPulse (wide : Bool) (edge : BitVec 80)
  /-- TIME_STEP (R535): The corrected count passes a whole second, so the count is loaded and a time-step record is journaled. -/
  | timeStep
  /-- REFERENCE_LOST (R530): Nothing arrives from the selected reference for its loss time, so LOST is set. -/
  | referenceLost (r : Fin 131)
  /-- HOLDEXP (R537): The holdover limit passes and quality falls to FREE. -/
  | holdexp
  /-- TPO_FALL (R540): TPO's pulse width ends and it returns to its inactive level. -/
  | tpoFall
  /-- TIME_PACKET_SEND (R543): The TIME period of a trunk expires and a TIME packet is sent. -/
  | timePacketSend (k : TrunkId)
  /-- HOLD_CALIBRATION (R539): A 64 s window ends while LOCKED and the HOLD crystal correction is stored. -/
  | holdCalibration (hf : BitVec 32)
  /-- TIM_CLRCNT (R535): A strobe of TIM_CTL.CLRCNT zeroes TIM_CNT0 to TIM_CNT2. -/
  | timClrcnt
  -- Supervision
  /-- WATCHDOG_WARNING (R549): Half of TIMEOUT passes without a restart, so WDWARN is set and a watchdog-warn record is journaled. -/
  | watchdogWarning (late : BitVec 8)
  /-- WATCHDOG_RESET (R548): TIMEOUT passes without a restart, so WDLAST is stored and the device resets with cause 3. -/
  | watchdogReset (late : BitVec 8)
  /-- SUPPLY_WARNING (R550): VDDIO crosses below VWARN, so VLOW is set, the supply fault becomes active and DORMANT ends. -/
  | supplyWarning
  /-- SUPPLY_FAULT_CLEAR (R550): VDDIO has stayed up for 10 s and 600 s have passed since the last brownout, so the supply fault clears. -/
  | supplyFaultClear
  /-- VOLTAGE_MEASURE (R551): Once per second VDDIO and VBAT are measured and a low VBAT sets VBATLOW. -/
  | voltageMeasure (vddio : BitVec 12) (vbat : BitVec 12)
  /-- TEMPERATURE_MEASURE (R552): The die temperature is measured and a high reading raises or clears the temperature fault. -/
  | temperatureMeasure (t : BitVec 8)
  /-- STORM_DRAIN (R555): A port's storm bucket loses one at the DRAIN rate. -/
  | stormDrain (n : PortId)
  /-- BREAK_STORM (R555): A received break lasts BRKMAX with the line at space, so the port storms. -/
  | breakStorm (n : PortId)
  /-- GLOVE_END (R557): A glove period ends and the port leaves gloving, or repeats its loopback first if PORTFAIL is set. -/
  | gloveEnd (n : PortId) (loop : List (Byte × Fin 4))
  /-- GLOVE_CLEAN (R557): A port runs for CLEAN without a storm and its back-off level returns to 0. -/
  | gloveClean (n : PortId)
  /-- SUP_RELEASE (R557): A strobe of a SUP_RELEASE bit ends that port's gloving, after a loopback repeat if PORTFAIL is set. -/
  | supRelease (ports : BitVec 16)
  /-- ACK (R562): A strobe of SUP_CTL.ACK clears the audit and system program faults. -/
  | ack
  /-- AUDIT (R564): A strobe of SUP_CTL.AUDIT runs a run-time strap and memory audit. -/
  | audit (straps : List (Conversions × Conversions)) (mem : List (Fin 151552 × EccRead))
  /-- LAMPTEST (R567): A strobe of SUP_CTL.LAMPTEST drives STAT high and FAULT_N low for 2 s. -/
  | lamptest
  /-- LAMPTEST_END (R567): The 2 s lamp test ends and the patterns restart from a cycle start. -/
  | lamptestEnd
  /-- SUP_CLRCNT (R556): A strobe of SUP_CTL.CLRCNT zeroes WDWARN, SUP_CNT1 and every STORMS field. -/
  | supClrcnt
  /-- SYSTEM_FAULT_CLEAR (R566): 600 s pass with no system context fault and the system program fault clears. -/
  | systemFaultClear
  -- Further events
  /-- SUPPLY_ABOVE_BROWNOUT (R115): VDDIO rises above the brownout rising threshold, so the device leaves OFF, its pins take their reset states and the 1 ms count to the power-on release starts. -/
  | supplyAboveBrownout
  /-- PFI_RISE (R389): PFI_N rises, JNL_STAT.PFI clears and the 10 ms count before deferred and staged records may be written begins. -/
  | pfiRise (us : BitVec 32)
  /-- SUPPLY_WARNING_RISE (R550): VDDIO rises back above the supply warning comparator's rising threshold, starting the 10 s that the supply fault needs to clear. -/
  | supplyWarningRise
  /-- START_BIT_VALIDATED (R196): An armed receiver decides a start bit as space, so a character begins, RXBUSY is set and the receive timeout stops. -/
  | startBitValidated (n : PortId) (x : Sample3 := 0#3)
  /-- START_EDGE_BEFORE_ARMING (R176): A start edge falls on a present, enabled port whose receiver is frozen or not yet armed, starts no character and is counted as a lost character. -/
  | startEdgeBeforeArming (n : PortId)
  /-- RECEIVER_REARM_AT_MARK (R175): After a stop bit decided as space on a character that is not a break, the receiver re-arms at the first mark sample. -/
  | receiverRearmAtMark (n : PortId)
  /-- HOST_REPLY_COMPLETE (R406): The command of the last accepted host frame finishes, its reply becomes complete in A and HST_STAT.APEND clears. -/
  | hostReplyComplete
  /-- CAN_START_OF_FRAME (R460): At a decision point the channel starts the start of frame of the frame it chose, which is then on the bus and can no longer be withdrawn. -/
  | canStartOfFrame (ch : ChanId) (t0 : BitVec 80)
  /-- MEMORY_ENTRY_START (R372): R372 -/
  | memoryEntryStart (other : Bool := false) (high : BitVec 8 := 0xFF#8)
  /-- FAULT_N_CYCLE_END (R566): A FAULT_N blink cycle ends and the lowest-numbered active fault code becomes the one shown in SUP_STAT.SHOWN. -/
  | faultNCycleEnd
  deriving DecidableEq, Repr

end Sys2Proof
end

