-- ==== Sys2Proof/Decode.lean ====
section
/-! DEFINITION. Sys2Proof/Decode.lean: the commands that words spell by the bits of spec/opcode_table.json. -/
namespace Sys2Proof

/-- The command that a word of `nbits` bits spells. Every row of the table has an empty list of fields and no bits: commands are
operations and events, not words; so no word spells one (log entry 11). The words that the specification does define, those of the
sequencers' programs, of host frames and of chain frames, are decoded in Machine/SeqCode.lean and Machine/Host.lean. -/
def decodeTableWord (_nbits _w : Nat) : Option Instr := none

end Sys2Proof
end

