-- ==== Sys2Proof/Machine/SeqTypes.lean ====
section
/-! DEFINITION. Sys2Proof/Machine/SeqTypes.lean: the instructions of a circuit context as data (chapter 10), the prefetch
lines, the stock programs' own state, and what an image load keeps (chapter 9). -/
namespace Sys2Proof.Machine

/-- A general register's number. -/
abbrev Reg := Fin 16

/-- A circuit context's instruction (Tables 10-3 to 10-11), its fields as Table 10-1 gives them. For `ext` and `ins`,
`l` is L − 1. -/
inductive SeqOp where
  | add (d a b : Reg) | sub (d a b : Reg) | and (d a b : Reg) | or (d a b : Reg) | xor (d a b : Reg)
  | shl (d a b : Reg) | shr (d a b : Reg) | sar (d a b : Reg) | cmp (a b : Reg) | mul (d a b : Reg)
  | addi (d a : Reg) (imm : BitVec 18) | andi (d a : Reg) (imm : BitVec 18) | ori (d a : Reg) (imm : BitVec 18)
  | xori (d a : Reg) (imm : BitVec 18) | cmpi (a : Reg) (imm : BitVec 18)
  | shiShl (d a : Reg) (n : BitVec 5) | shiShr (d a : Reg) (n : BitVec 5) | shiSar (d a : Reg) (n : BitVec 5)
  | shiRor (d a : Reg) (n : BitVec 5)
  | movi (d : Reg) (imm : BitVec 18) | movh (d : Reg) (imm : BitVec 16)
  | ext (d a : Reg) (l p : BitVec 5) | ins (d a : Reg) (l p : BitVec 5) | btst (a : Reg) (p : BitVec 5)
  | ldp (d a : Reg)
  | br (c : Cond) (off : BitVec 22) | jmp (t : BitVec 23) | call (t : BitVec 23) | ret | jr (a : Reg)
  | wait (d : Reg)
  | evmSet (d : Reg) (m : BitVec 14) | evmOr (d : Reg) (m : BitVec 14) | evmClr (d : Reg) (m : BitVec 14)
  | evmPeek (d : Reg) (m : BitVec 14) | evmSetr (d a : Reg)
  | tmrStart (n : Bool) (a : Reg) | tmrSti (n : Bool) (t : BitVec 14) | tmrStop (n : Bool) | tmrRead (n : Bool) (d : Reg)
  | timFrac (d : Reg) | timSecl (d : Reg) | timSech (d : Reg)
  | crcCfg (a : Reg) (w : Fin 3) (rin rout : Bool) | crcInit (a : Reg) | crcFeed (a : Reg) | crcFeedw (a : Reg)
  | crcRead (d a : Reg)
  | pmVal (n : Bool) (a : Reg) | pmMask (n : Bool) (a : Reg) | pmLen (n : Bool) (k : Fin 5) | pmFeed (d a : Reg) | pmClr
  | prx (d : Reg) (p : Fin 16) | prxNb (d : Reg) (p : Fin 16) | prxTs (d : Reg) (p : Fin 16)
  | ptx (a : Reg) (p : Fin 16) | ptxL (a : Reg) (p : Fin 16) | ptxNb (a : Reg) (p : Fin 16) | pbrk (p : Fin 16)
  | pst (d : Reg) (p : Fin 16)
  | curTake (d : Reg) | curPass | curFree | curAlloc (d : Reg) | curClose (d : Reg) (err loss cont : Bool) | curDisc
  | curSeek (a : Reg) | curInfo (d : Reg) (w : Bool) | curHdr (d : Reg) (k : Fin 4) | curFreei (a : Reg)
  | rd (d : Reg) (crc pm soft word : Bool) | wr (a : Reg) (crc latch word : Bool) | copy (a : Reg) (crc : Bool)
  | crdCredits (d : Reg) | crdHeld (d : Reg) | crdWaiting (d : Reg) | crdState (d : Reg) | crdInbox (d : Reg)
  | nop | sysCnt0 | sysCnt1 | sysSignal (j : Fin 8)
  deriving DecidableEq

/-- A prefetch line (R319): the line address (flash byte address / 32) and its eight words. -/
structure Line where
  addr : Nat
  words : List Word
  deriving DecidableEq, Repr

/-- A down-counting timer of a context in TIME ticks (R347). -/
structure Tmr where
  run : Bool := false
  val : Nat := 0
  deriving DecidableEq, Repr

/-- What a stock program keeps between events (R589): the inbox cells it has read of a frame not yet ended; the bytes of the
frame it is copying; bytes to be searched again after a failed candidate; that the rest of a discarded frame is still to be
skipped; the complete frames held for the source's verdict; closed cells of the frame being copied; that the device has freed
a cell of the frame in progress. -/
structure Stock where
  cells : List Nat := []
  bytes : List Byte := []
  replay : List Byte := []
  skip : Bool := false
  frames : Nat := 0
  parts : List Nat := []
  lost : Bool := false
  deriving DecidableEq, Repr

/-- An image header's fields (Table 9-6) as a load uses them. -/
structure ImgHdr where
  tagged : Bool
  xiptag : Bool
  serial : Nat
  iramLen : Nat
  ctxn : Nat
  xipOff : Nat
  xipLen : Nat
  bodyCrc : Nat
  deriving DecidableEq, Repr

/-- The shared part of the sequencers: the valid prefetch lines, most recently used first; a pending XIPINV; consecutive
failures of the line being filled; the instructions issued in this millisecond per core; the contexts that a running load has
halted. -/
structure Seq where
  lines : List Line := []
  inv : Bool := false
  fails : Nat := 0
  issued : List Nat := [0, 0, 0, 0, 0, 0, 0, 0]
  loadHalted : List Nat := []
  deriving DecidableEq, Repr

end Sys2Proof.Machine
end

