-- ==== Sys2Proof/Machine/SeqCode.lean ====
section
/-! DEFINITION. Sys2Proof/Machine/SeqCode.lean: the encoding of a circuit context's instructions (R336–R339, Tables 10-1 to
10-11): `seqEncode` writes an instruction's word, `seqDecode` reads a word, answering none for a reserved encoding (R338). -/
namespace Sys2Proof.Machine

/-! ## Fields of a word -/

/-- A word from its opcode, D, A and bits 17:0. -/
def packSeq (op d a lo : Nat) : Word := BitVec.ofNat 32 (op * 2 ^ 26 + d * 2 ^ 22 + a * 2 ^ 18 + lo)

/-- The opcode, bits 31:26. -/
def opOf (w : Word) : Nat := w.toNat / 2 ^ 26
/-- Bits 25:22. -/
def dOf (w : Word) : Nat := w.toNat / 2 ^ 22 % 16
/-- Bits 21:18. -/
def aOf (w : Word) : Nat := w.toNat / 2 ^ 18 % 16
/-- Bits 17:0. -/
def loOf (w : Word) : Nat := w.toNat % 2 ^ 18

/-- A register number from a field. -/
def regN (n : Nat) : Reg := ⟨n % 16, Nat.mod_lt _ (by decide)⟩

/-- The number of a bit. -/
def bN (b : Bool) (v : Nat) : Nat := if b then v else 0

/-- The code of a condition (Table 10-2). -/
def condCode : Cond → Nat
  | .al => 0 | .eq => 1 | .ne => 2 | .cs => 3 | .cc => 4 | .mi => 5 | .pl => 6 | .er => 7 | .ner => 8 | .hi => 9 | .ls => 10
  | .ge => 11 | .lt => 12 | .gt => 13 | .le => 14

/-- The condition of a code; 15 is reserved. -/
def condOf : Nat → Option Cond
  | 0 => some .al | 1 => some .eq | 2 => some .ne | 3 => some .cs | 4 => some .cc | 5 => some .mi | 6 => some .pl
  | 7 => some .er | 8 => some .ner | 9 => some .hi | 10 => some .ls | 11 => some .ge | 12 => some .lt | 13 => some .gt
  | 14 => some .le | _ => none

/-! ## Encoding -/

/-- A format R word. -/
def encR (op d a b : Nat) : Word := packSeq op d a (b * 2 ^ 14)
/-- A format F word: `l` is L − 1. -/
def encF (op d a l p : Nat) : Word := packSeq op d a (l * 2 ^ 13 + p * 2 ^ 8)
/-- A format K word. -/
def encK (op d a sub imm : Nat) : Word := packSeq op d a (sub * 2 ^ 14 + imm)
/-- A format J word. -/
def encJ (op t : Nat) : Word := BitVec.ofNat 32 (op * 2 ^ 26 + t)

/-- The word of an instruction. -/
def seqEncode : SeqOp → Word
  | .add d a b => encR 0x01 d a b | .sub d a b => encR 0x02 d a b | .and d a b => encR 0x03 d a b
  | .or d a b => encR 0x04 d a b | .xor d a b => encR 0x05 d a b | .shl d a b => encR 0x06 d a b
  | .shr d a b => encR 0x07 d a b | .sar d a b => encR 0x08 d a b | .cmp a b => encR 0x09 0 a b
  | .mul d a b => encR 0x0A d a b
  | .addi d a i => packSeq 0x0B d a i.toNat | .andi d a i => packSeq 0x0C d a i.toNat
  | .ori d a i => packSeq 0x0D d a i.toNat | .xori d a i => packSeq 0x0E d a i.toNat
  | .cmpi a i => packSeq 0x0F 0 a i.toNat
  | .shiShl d a n => encK 0x10 d a 0 n.toNat | .shiShr d a n => encK 0x10 d a 1 n.toNat
  | .shiSar d a n => encK 0x10 d a 2 n.toNat | .shiRor d a n => encK 0x10 d a 3 n.toNat
  | .movi d i => packSeq 0x11 d 0 i.toNat | .movh d i => packSeq 0x12 d 0 i.toNat
  | .ext d a l p => encF 0x13 d a l.toNat p.toNat | .ins d a l p => encF 0x14 d a l.toNat p.toNat
  | .btst a p => encF 0x15 0 a 0 p.toNat
  | .ldp d a => encR 0x16 d a 0
  | .br c off => BitVec.ofNat 32 (0x18 * 2 ^ 26 + condCode c * 2 ^ 22 + off.toNat)
  | .jmp t => encJ 0x19 t.toNat | .call t => encJ 0x1A t.toNat
  | .ret => encR 0x1B 0 0 0 | .jr a => encR 0x1C 0 a 0
  | .wait d => encR 0x20 d 0 0
  | .evmSet d m => encK 0x21 d 0 0 m.toNat | .evmOr d m => encK 0x21 d 0 1 m.toNat
  | .evmClr d m => encK 0x21 d 0 2 m.toNat | .evmPeek d m => encK 0x21 d 0 3 m.toNat | .evmSetr d a => encK 0x21 d a 4 0
  | .tmrStart n a => encK 0x22 0 a (0 + bN n 1) 0 | .tmrSti n t => encK 0x22 0 0 (2 + bN n 1) t.toNat
  | .tmrStop n => encK 0x22 0 0 (4 + bN n 1) 0 | .tmrRead n d => encK 0x22 d 0 (6 + bN n 1) 0
  | .timFrac d => encK 0x23 d 0 0 0 | .timSecl d => encK 0x23 d 0 1 0 | .timSech d => encK 0x23 d 0 2 0
  | .crcCfg a w ri ro => encK 0x28 0 a 0 (w.val + bN ri 4 + bN ro 8)
  | .crcInit a => encK 0x28 0 a 1 0 | .crcFeed a => encK 0x28 0 a 2 0 | .crcFeedw a => encK 0x28 0 a 3 0
  | .crcRead d a => encK 0x28 d a 4 0
  | .pmVal n a => encK 0x29 0 a (0 + bN n 3) 0 | .pmMask n a => encK 0x29 0 a (1 + bN n 3) 0
  | .pmLen n k => encK 0x29 0 0 (2 + bN n 3) k.val | .pmFeed d a => encK 0x29 d a 6 0 | .pmClr => encK 0x29 0 0 7 0
  | .prx d p => encK 0x2C d 0 0 p | .prxNb d p => encK 0x2C d 0 1 p | .prxTs d p => encK 0x2C d 0 2 p
  | .ptx a p => encK 0x2D 0 a 0 p | .ptxL a p => encK 0x2D 0 a 1 p | .ptxNb a p => encK 0x2D 0 a 2 p
  | .pbrk p => encK 0x2D 0 0 3 p | .pst d p => encK 0x2E d 0 0 p
  | .curTake d => encK 0x30 d 0 0 0 | .curPass => encK 0x30 0 0 1 0 | .curFree => encK 0x30 0 0 2 0
  | .curAlloc d => encK 0x30 d 0 3 0
  | .curClose d e l c => encK 0x30 d 0 4 (bN e 128 + bN l 64 + bN c 32)
  | .curDisc => encK 0x30 0 0 5 0 | .curSeek a => encK 0x30 0 a 6 0 | .curInfo d w => encK 0x30 d 0 7 (bN w 1)
  | .curHdr d k => encK 0x30 d 0 8 k.val | .curFreei a => encK 0x30 0 a 9 0
  | .rd d c p s w => encK 0x31 d 0 0 (bN c 1 + bN p 2 + bN s 4 + bN w 8)
  | .wr a c l w => encK 0x32 0 a 0 (bN c 1 + bN l 2 + bN w 8)
  | .copy a c => encK 0x33 0 a 0 (bN c 1)
  | .crdCredits d => encK 0x34 d 0 0 0 | .crdHeld d => encK 0x34 d 0 1 0 | .crdWaiting d => encK 0x34 d 0 2 0
  | .crdState d => encK 0x34 d 0 3 0 | .crdInbox d => encK 0x34 d 0 4 0
  | .nop => encK 0x38 0 0 0 0 | .sysCnt0 => encK 0x38 0 0 1 0 | .sysCnt1 => encK 0x38 0 0 2 0
  | .sysSignal j => encK 0x38 0 0 3 j.val

/-! ## Decoding -/

/-- An answer where the fields that must be zero are. -/
def when (c : Bool) (o : SeqOp) : Option SeqOp := if c then some o else none

/-- Opcodes 0x01 to 0x1C. -/
def decodeArith (op : Nat) (d a lo : Nat) : Option SeqOp :=
  let D := regN d
  let A := regN a
  let B := regN (lo / 2 ^ 14)
  let r := decide (lo % 2 ^ 14 = 0)
  let im : BitVec 18 := BitVec.ofNat 18 lo
  let l : BitVec 5 := BitVec.ofNat 5 (lo / 2 ^ 13)
  let p : BitVec 5 := BitVec.ofNat 5 (lo / 2 ^ 8)
  let f := decide (lo % 2 ^ 8 = 0)
  let t : BitVec 23 := BitVec.ofNat 23 (d * 2 ^ 22 + a * 2 ^ 18 + lo)
  let j := decide (d < 2)
  match op with
  | 0x01 => when r (.add D A B)
  | 0x02 => when r (.sub D A B)
  | 0x03 => when r (.and D A B)
  | 0x04 => when r (.or D A B)
  | 0x05 => when r (.xor D A B)
  | 0x06 => when r (.shl D A B)
  | 0x07 => when r (.shr D A B)
  | 0x08 => when r (.sar D A B)
  | 0x09 => when (r && d == 0) (.cmp A B)
  | 0x0A => when r (.mul D A B)
  | 0x0B => some (.addi D A im)
  | 0x0C => some (.andi D A im)
  | 0x0D => some (.ori D A im)
  | 0x0E => some (.xori D A im)
  | 0x0F => when (d == 0) (.cmpi A im)
  | 0x10 =>
    if lo % 2 ^ 14 < 32 then
      match lo / 2 ^ 14 with
      | 0 => some (.shiShl D A (BitVec.ofNat 5 lo))
      | 1 => some (.shiShr D A (BitVec.ofNat 5 lo))
      | 2 => some (.shiSar D A (BitVec.ofNat 5 lo))
      | 3 => some (.shiRor D A (BitVec.ofNat 5 lo))
      | _ => none
    else none
  | 0x11 => when (a == 0) (.movi D im)
  | 0x12 => when (a == 0 && decide (lo < 2 ^ 16)) (.movh D (BitVec.ofNat 16 lo))
  | 0x13 => when (f && decide (l.toNat + p.toNat < 32)) (.ext D A l p)
  | 0x14 => when (f && decide (l.toNat + p.toNat < 32)) (.ins D A l p)
  | 0x15 => when (f && d == 0 && decide (lo < 2 ^ 13)) (.btst A p)
  | 0x16 => when (lo == 0) (.ldp D A)
  | 0x18 => (condOf d).map (fun c => .br c (BitVec.ofNat 22 (a * 2 ^ 18 + lo)))
  | 0x19 => when j (.jmp t)
  | 0x1A => when j (.call t)
  | 0x1B => when (d == 0 && a == 0 && lo == 0) .ret
  | 0x1C => when (d == 0 && lo == 0) (.jr A)
  | _ => none

/-- The sub-operations of opcodes 0x20 to 0x29: `s` is S and `i` imm14. -/
def decodeEvents (op d a s i : Nat) : Option SeqOp :=
  let D := regN d
  let A := regN a
  let m : BitVec 14 := BitVec.ofNat 14 i
  match op, s with
  | 0x20, 0 => when (a == 0 && i == 0) (.wait D)
  | 0x21, 0 => when (a == 0) (.evmSet D m)
  | 0x21, 1 => when (a == 0) (.evmOr D m)
  | 0x21, 2 => when (a == 0) (.evmClr D m)
  | 0x21, 3 => when (a == 0) (.evmPeek D m)
  | 0x21, 4 => when (i == 0) (.evmSetr D A)
  | 0x22, 0 => when (d == 0 && i == 0) (.tmrStart false A)
  | 0x22, 1 => when (d == 0 && i == 0) (.tmrStart true A)
  | 0x22, 2 => when (d == 0 && a == 0) (.tmrSti false m)
  | 0x22, 3 => when (d == 0 && a == 0) (.tmrSti true m)
  | 0x22, 4 => when (d == 0 && a == 0 && i == 0) (.tmrStop false)
  | 0x22, 5 => when (d == 0 && a == 0 && i == 0) (.tmrStop true)
  | 0x22, 6 => when (a == 0 && i == 0) (.tmrRead false D)
  | 0x22, 7 => when (a == 0 && i == 0) (.tmrRead true D)
  | 0x23, 0 => when (a == 0 && i == 0) (.timFrac D)
  | 0x23, 1 => when (a == 0 && i == 0) (.timSecl D)
  | 0x23, 2 => when (a == 0 && i == 0) (.timSech D)
  | 0x28, 0 =>
    if h : i % 4 < 3 then when (d == 0 && decide (i < 16)) (.crcCfg A ⟨i % 4, h⟩ (i.testBit 2) (i.testBit 3)) else none
  | 0x28, 1 => when (d == 0 && i == 0) (.crcInit A)
  | 0x28, 2 => when (d == 0 && i == 0) (.crcFeed A)
  | 0x28, 3 => when (d == 0 && i == 0) (.crcFeedw A)
  | 0x28, 4 => when (i == 0) (.crcRead D A)
  | 0x29, 0 => when (d == 0 && i == 0) (.pmVal false A)
  | 0x29, 1 => when (d == 0 && i == 0) (.pmMask false A)
  | 0x29, 2 => if h : i < 5 then when (d == 0 && a == 0) (.pmLen false ⟨i, h⟩) else none
  | 0x29, 3 => when (d == 0 && i == 0) (.pmVal true A)
  | 0x29, 4 => when (d == 0 && i == 0) (.pmMask true A)
  | 0x29, 5 => if h : i < 5 then when (d == 0 && a == 0) (.pmLen true ⟨i, h⟩) else none
  | 0x29, 6 => when (i == 0) (.pmFeed D A)
  | 0x29, 7 => when (d == 0 && a == 0 && i == 0) .pmClr
  | _, _ => none

/-- The sub-operations of opcodes 0x2C to 0x38. -/
def decodeCells (op d a s i : Nat) : Option SeqOp :=
  let D := regN d
  let A := regN a
  let P := regN i
  let p := decide (i < 16)
  match op, s with
  | 0x2C, 0 => when (a == 0 && p) (.prx D P)
  | 0x2C, 1 => when (a == 0 && p) (.prxNb D P)
  | 0x2C, 2 => when (a == 0 && p) (.prxTs D P)
  | 0x2D, 0 => when (d == 0 && p) (.ptx A P)
  | 0x2D, 1 => when (d == 0 && p) (.ptxL A P)
  | 0x2D, 2 => when (d == 0 && p) (.ptxNb A P)
  | 0x2D, 3 => when (d == 0 && a == 0 && p) (.pbrk P)
  | 0x2E, 0 => when (a == 0 && p) (.pst D P)
  | 0x30, 0 => when (a == 0 && i == 0) (.curTake D)
  | 0x30, 1 => when (d == 0 && a == 0 && i == 0) .curPass
  | 0x30, 2 => when (d == 0 && a == 0 && i == 0) .curFree
  | 0x30, 3 => when (a == 0 && i == 0) (.curAlloc D)
  | 0x30, 4 => when (a == 0 && decide (i < 256) && decide (i % 32 = 0)) (.curClose D (i.testBit 7) (i.testBit 6) (i.testBit 5))
  | 0x30, 5 => when (d == 0 && a == 0 && i == 0) .curDisc
  | 0x30, 6 => when (d == 0 && i == 0) (.curSeek A)
  | 0x30, 7 => when (a == 0 && decide (i < 2)) (.curInfo D (i.testBit 0))
  | 0x30, 8 => if h : i < 4 then when (a == 0) (.curHdr D ⟨i, h⟩) else none
  | 0x30, 9 => when (d == 0 && i == 0) (.curFreei A)
  | 0x31, 0 => when (a == 0 && decide (i < 16)) (.rd D (i.testBit 0) (i.testBit 1) (i.testBit 2) (i.testBit 3))
  | 0x32, 0 =>
    when (d == 0 && decide (i < 16) && !i.testBit 2 && !(i.testBit 1 && i.testBit 3)) (.wr A (i.testBit 0) (i.testBit 1) (i.testBit 3))
  | 0x33, 0 => when (d == 0 && decide (i < 2)) (.copy A (i.testBit 0))
  | 0x34, 0 => when (a == 0 && i == 0) (.crdCredits D)
  | 0x34, 1 => when (a == 0 && i == 0) (.crdHeld D)
  | 0x34, 2 => when (a == 0 && i == 0) (.crdWaiting D)
  | 0x34, 3 => when (a == 0 && i == 0) (.crdState D)
  | 0x34, 4 => when (a == 0 && i == 0) (.crdInbox D)
  | 0x38, 0 => when (d == 0 && a == 0 && i == 0) .nop
  | 0x38, 1 => when (d == 0 && a == 0 && i == 0) .sysCnt0
  | 0x38, 2 => when (d == 0 && a == 0 && i == 0) .sysCnt1
  | 0x38, 3 => if h : i < 8 then when (d == 0 && a == 0) (.sysSignal ⟨i, h⟩) else none
  | _, _ => none

/-- The instruction of a word; none for a reserved encoding (R338). -/
def seqDecode (w : Word) : Option SeqOp :=
  let op := opOf w
  let lo := loOf w
  if op < 0x20 then decodeArith op (dOf w) (aOf w) lo
  else if op < 0x2C then decodeEvents op (dOf w) (aOf w) (lo / 2 ^ 14) (lo % 2 ^ 14)
  else decodeCells op (dOf w) (aOf w) (lo / 2 ^ 14) (lo % 2 ^ 14)

/-- The general registers that an instruction reads (R337): MOVH and INS keep bits of Gd. -/
def SeqOp.reads : SeqOp → List Reg
  | .add _ a b | .sub _ a b | .and _ a b | .or _ a b | .xor _ a b | .shl _ a b | .shr _ a b | .sar _ a b | .cmp a b | .mul _ a b => [a, b]
  | .addi _ a _ | .andi _ a _ | .ori _ a _ | .xori _ a _ | .cmpi a _ => [a]
  | .shiShl _ a _ | .shiShr _ a _ | .shiSar _ a _ | .shiRor _ a _ => [a]
  | .movh d _ => [d]
  | .ext _ a _ _ => [a]
  | .ins d a _ _ => [d, a]
  | .btst a _ | .ldp _ a | .jr a => [a]
  | .evmSetr _ a | .tmrStart _ a => [a]
  | .crcCfg a _ _ _ | .crcInit a | .crcFeed a | .crcFeedw a | .crcRead _ a => [a]
  | .pmVal _ a | .pmMask _ a | .pmFeed _ a => [a]
  | .ptx a _ | .ptxL a _ | .ptxNb a _ => [a]
  | .curSeek a | .curFreei a | .copy a _ => [a]
  | .wr a _ latch _ => if latch then [] else [a]
  | .movi _ _ | .br _ _ | .jmp _ | .call _ | .ret | .wait _ | .evmSet _ _ | .evmOr _ _ | .evmClr _ _ | .evmPeek _ _ => []
  | .tmrSti _ _ | .tmrStop _ | .tmrRead _ _ | .timFrac _ | .timSecl _ | .timSech _ | .pmLen _ _ | .pmClr => []
  | .prx _ _ | .prxNb _ _ | .prxTs _ _ | .pbrk _ | .pst _ _ | .curTake _ | .curPass | .curFree | .curAlloc _ | .curClose _ _ _ _ => []
  | .curDisc | .curInfo _ _ | .curHdr _ _ | .rd _ _ _ _ _ => []
  | .crdCredits _ | .crdHeld _ | .crdWaiting _ | .crdState _ | .crdInbox _ | .nop | .sysCnt0 | .sysCnt1 | .sysSignal _ => []

/-- An instruction that has an encoding: a bit field within the word (R344), no LATCH with WORD (Table 10-10). -/
def SeqOp.wf : SeqOp → Bool
  | .ext _ _ l p => decide (l.toNat + p.toNat < 32)
  | .ins _ _ l p => decide (l.toNat + p.toNat < 32)
  | .wr _ _ l w => !(l && w)
  | _ => true

end Sys2Proof.Machine
end

