-- ==== Sys2Proof/Config.lean ====
section
/-! DEFINITION. Sys2Proof/Config.lean: the free values. Each is an opaque constant applied to plain data, so that nothing
in Lean can say which value it is: what is proved holds for every value the hardware may produce. -/
namespace Sys2Proof.Config

/-- Which free cell the allocator looks at first; the specification does not define which free cell an allocation
takes (R586; log entry 5). -/
opaque cellChoice : Nat → Nat

/-- The number of SUPV cycles that a ROOT start took, which enters a trunk's nonce (R494; log entry 7). -/
opaque rootStartCycles : Nat → BitVec 32

/-- Where in 119 to 127 a receive error counter above 127 falls to after a frame received well, which ISO 11898-1 leaves
open (R433, R464; log entry 8). -/
opaque recAfter : Nat → Fin 9

/-- A word of the stock ROM, 0x00_4000 to 0x00_47FF: the specification does not give the ROM's words (log entry 15). -/
opaque romWord : Nat → Word

/-- Where a stock program stands within the circuit programs' ROM when its address is read (log entry 15). -/
opaque stockPc : Nat → Nat → Time → Fin 0x800

/-- A general register of a context that runs a stock program (log entry 15). -/
opaque stockReg : Nat → Nat → Nat → Word

/-- The event mask of a context that runs a stock program (log entry 15). -/
opaque stockMask : Nat → Nat → BitVec 16

/-- The ROM address at which system context Sk starts, above 0x00_4800, for the chip's ROM version (R579; log entry 16). -/
opaque sysEntry : Nat → Fin 0x1800

/-- Where system context Sk stands in its ROM program, above 0x00_4800, when it is read (R579; log entry 16). -/
opaque sysPc : Nat → Nat → Time → Fin 0x1800

/-- Whether a system context reads RUN rather than WAIT (R579; log entry 16). -/
opaque sysRuns : Nat → Nat → Time → Bool

/-- The events and the mask of a system context, bits 31:16 the mask (R311, R579; log entry 16). -/
opaque sysEvents : Nat → Nat → Time → Word

/-- A general register of a system context: context, register, draw (log entry 16). -/
opaque sysReg : Nat → Nat → Nat → Time → Word

/-- The instructions that ROM programs issue: per core within a millisecond (R303), and per context since reset (log entries
15 and 16). -/
opaque romIssued : Nat → Nat → Nat
opaque romTotal : Nat → Nat → Time → BitVec 64

/-- The byte that a cell memory word with an uncorrectable error reads as: cell, offset, draw (log entry 17). -/
opaque badByte : Nat → Nat → Nat → Byte

/-- A payload byte of a checkpoint's strap record where no last-known-good copy exists (R386; log entry 24). -/
opaque noLkg : Nat → Nat → Byte

/-- The STATUS of the reply to a PUSH whose cell an uncorrectable error discards, for which Table 12-4 has no code (log entry 69). -/
opaque pushStatus : Nat → BitVec 8

end Sys2Proof.Config
end

