-- ==== Sys2Proof/Machine/Bits.lean ====
section
/-! DEFINITION. Sys2Proof/Machine/Bits.lean: bit fields of a word, saturating counters and byte order. Bit 31 of a
word is its most significant bit (R11); multi-byte values travel most significant byte first (R12). -/
namespace Sys2Proof.Machine

/-- The mask of the `wd` bits from bit `lo`. -/
def maskAt (lo wd : Nat) : Word := BitVec.ofNat 32 ((2 ^ wd - 1) * 2 ^ lo)

/-- The value of the field of `wd` bits from bit `lo`. -/
def getF (w : Word) (lo wd : Nat) : Nat := w.toNat / 2 ^ lo % 2 ^ wd

/-- The word with the field of `wd` bits from bit `lo` replaced by `v`. -/
def setF (w : Word) (lo wd v : Nat) : Word :=
  (w &&& ~~~ maskAt lo wd) ||| BitVec.ofNat 32 ((v % 2 ^ wd) * 2 ^ lo)

/-- One bit of a word. -/
def bitF (w : Word) (i : Nat) : Bool := w.getLsbD i

/-- A saturating increment of a counter of `wd` bits. -/
def satInc (wd v : Nat) : Nat := if v + 1 < 2 ^ wd then v + 1 else 2 ^ wd - 1

/-- A Bool as a bit. -/
def b2n (b : Bool) : Nat := if b then 1 else 0

/-- A word whose bit `i` is the `i`-th element of the list. -/
def wordOfBits : List Bool → Nat
  | [] => 0
  | b :: t => b2n b + 2 * wordOfBits t

/-- Byte `i` of a word, byte 0 the most significant (R12). -/
def byteOf (w : Word) (i : Nat) : Byte := BitVec.ofNat 8 (w.toNat / 2 ^ (8 * (3 - i)))

/-- The word of four bytes, most significant first (R12). -/
def wordOf4 (b0 b1 b2 b3 : Byte) : Word :=
  BitVec.ofNat 32 (b0.toNat * 2 ^ 24 + b1.toNat * 2 ^ 16 + b2.toNat * 2 ^ 8 + b3.toNat)

/-- The `n` bytes of a number, most significant first (R12). -/
def bytesBE : Nat → Nat → List Byte
  | 0, _ => []
  | n + 1, v => BitVec.ofNat 8 (v / 2 ^ (8 * n)) :: bytesBE n v

/-- The number spelled by bytes, most significant first (R12). -/
def natBE (bs : List Byte) : Nat := bs.foldl (fun a b => a * 256 + b.toNat) 0

/-- The number spelled by bits, most significant first. -/
def natOfBitsBE (bs : List Bool) : Nat := bs.foldl (fun a b => a * 2 + b2n b) 0

/-- The low `wd` bits of `v` read as a two's complement number. -/
def sext (wd v : Nat) : Int :=
  if v % 2 ^ wd < 2 ^ (wd - 1) then (v % 2 ^ wd : Int) else (v % 2 ^ wd : Int) - 2 ^ wd

/-- A two's complement number as `wd` bits. -/
def ofInt (wd : Nat) (i : Int) : Nat := (i % (2 ^ wd : Int)).toNat

/-- Replace element `i` of a list. -/
def listSet {α : Type} : List α → Nat → α → List α
  | [], _, _ => []
  | _ :: t, 0, v => v :: t
  | a :: t, i + 1, v => a :: listSet t i v

/-- The duration codes of Table 2-8 in seconds; code 0 and code 13 are off (R64). -/
def durSeconds : Nat → Option Nat
  | 1 => some 1 | 2 => some 2 | 3 => some 5 | 4 => some 10 | 5 => some 30 | 6 => some 60 | 7 => some 120
  | 8 => some 300 | 9 => some 600 | 10 => some 1200 | 11 => some 1800 | 12 => some 3600 | _ => none

end Sys2Proof.Machine
end

