-- ==== Sys2Proof/Machine/RegMap.lean ====
section
/-! DEFINITION. Sys2Proof/Machine/RegMap.lean: the register map. One row per register word of the tables of chapters
2, 4 to 9 and 11 to 16: each field's place, access code (R15), reset value and clamp (R18, R156). -/
namespace Sys2Proof.Machine

/-- The access codes of R15. -/
inductive Acc where
  | r | rw | rb | rc | w1s
  deriving DecidableEq, Repr

/-- What happens to a value outside a field's legal range (R18, R156): nothing is illegal; a range with a target below
and a target above it; a field of one bit per port whose absent ports' bits clamp to 0 (R578). -/
inductive Clamp where
  | any
  | range (lo hi below above : Nat)
  | ports
  deriving DecidableEq, Repr

/-- One field of a register word. -/
structure Field where
  lo : Nat
  wd : Nat
  acc : Acc
  reset : Nat
  clamp : Clamp
  deriving DecidableEq, Repr

/-- A read-only field. -/
def fR (lo wd : Nat) (rst : Nat := 0) : Field := ⟨lo, wd, .r, rst, .any⟩
/-- A read-write field that takes effect at once. -/
def fRW (lo wd : Nat) (rst : Nat := 0) (c : Clamp := .any) : Field := ⟨lo, wd, .rw, rst, c⟩
/-- A buffered field: written in the shadow, applied by a commit. -/
def fRB (lo wd : Nat) (rst : Nat := 0) (c : Clamp := .any) : Field := ⟨lo, wd, .rb, rst, c⟩
/-- A field that a normal read clears. -/
def fRC (lo wd : Nat) : Field := ⟨lo, wd, .rc, 0, .any⟩
/-- A strobe. -/
def fS (lo wd : Nat) : Field := ⟨lo, wd, .w1s, 0, .any⟩

/-- A clamp with one target on each side: the nearer end. -/
def near (lo hi : Nat) : Clamp := .range lo hi lo hi
/-- A clamp of every value above `hi` to `t`. -/
def above (hi t : Nat) : Clamp := .range 0 hi 0 t

/-- Block STR, 0x0100 (Tables 2-14 to 2-20). -/
def strRows : List (Nat × List Field) := [
  (0x00, [fR 24 8, fR 20 4, fR 16 4, fR 12 4, fR 8 4, fR 4 4, fR 0 4]),
  (0x01, [fR 16 12, fR 0 12]), (0x02, [fR 16 12, fR 0 12]), (0x03, [fR 16 12, fR 0 12]),
  (0x04, [fR 0 6, fR 8 6, fR 16 6, fR 24 1, fR 25 1, fR 26 1, fR 27 1]),
  (0x05, [fR 0 4, fR 4 3, fR 7 1, fR 8 1, fR 9 2, fR 11 1, fR 12 1, fR 16 12]),
  (0x06, [fR 24 8, fR 20 4, fR 16 4, fR 12 4, fR 8 4, fR 4 4, fR 0 4]),
  (0x07, [fR 0 9, fR 12 1, fR 13 1, fR 14 1, fR 15 1, fR 16 8]),
  (0x08, [fR 0 32]), (0x09, [fR 0 32]), (0x0A, [fR 0 32]), (0x0B, [fR 0 32]),
  (0x0C, [fR 0 32]), (0x0D, [fR 0 32]), (0x0E, [fR 0 32]), (0x0F, [fR 0 32]),
  (0x10, [fRB 0 4 0 (above 13 13), fRB 8 8 0]),
  (0x11, [fS 0 1, fS 1 1]),
  (0x12, [fR 0 32]),
  (0x13, [fRC 0 1, fRC 1 1, fRC 2 1])]

/-- Block CLK, 0x0200 (Tables 4-9 to 4-16). -/
def clkRows : List (Nat × List Field) := [
  (0x00, [fR 0 1, fR 1 1, fR 2 2, fR 4 1, fR 8 4, fR 12 4]),
  (0x01, [fRB 0 3, fRB 4 3, fRB 8 3, fRB 12 3]),
  (0x02, [fRB 0 1 1, fRB 16 16]),
  (0x03, [fRB 0 16 0xFFFF .ports, fRB 16 1 1, fRB 17 1 1]),
  (0x04, [fS 0 1, fS 1 1, fS 4 1, fS 5 1]),
  (0x05, [fRC 0 4, fRC 4 1, fRC 5 1, fRC 6 1, fRC 7 1, fRC 8 1]),
  (0x06, [fR 0 16, fR 16 1, fR 17 1, fR 18 1, fR 19 1, fR 24 8]),
  (0x07, [fR 0 3, fR 8 1, fR 9 1, fR 16 16]),
  (0x08, [fR 0 16, fR 16 16])]

/-- Block GLB and the mailbox, 0x0000 (Tables 5-7 to 5-14). -/
def glbRows : List (Nat × List Field) := [
  (0x00, [fR 24 8 0x52, fR 16 8 0x01, fR 8 8 0x10, fR 0 8 0x64]),
  (0x01, [fR 0 8 0x01, fR 8 8 0x01, fR 16 8 0x01]),
  (0x02, [fRW 0 1]), (0x03, [fS 0 8]), (0x04, [fR 0 8, fR 8 8]), (0x05, [fR 0 14]),
  (0x06, [fR 0 16]), (0x07, [fR 0 32]), (0x08, [fR 0 32]),
  (0x09, [fR 0 16, fR 16 16]), (0x0A, [fRB 0 8 0x14]),
  (0x0B, [fRC 0 1, fRC 1 1, fRC 2 1, fRC 3 1, fRC 4 1, fRC 5 1]),
  (0x0C, [fRW 0 1 0, fRW 1 1 1, fRW 2 1 1, fRW 3 1 0, fRW 4 1 0, fRW 5 1 0]),
  (0x0D, [fR 0 14]), (0x0E, [fRW 0 14]), (0x0F, [fR 0 16]), (0x10, [fR 0 32]), (0x11, [fR 0 32]),
  (0x12, [fR 0 16, fR 16 16]), (0x13, [fR 0 16, fR 16 16]), (0x14, [fRW 0 32]),
  (0x20, [fRW 0 16]), (0x21, [fR 0 1 0, fR 1 1 1, fS 8 1, fS 9 1]),
  (0x22, [fRW 0 32]), (0x23, [fRW 0 32]), (0x24, [fRW 0 32]), (0x25, [fRW 0 32])]

/-- A port's words, 0x0800 + 64 nn (Tables 6-3 to 6-9). -/
def portRows : List (Nat × List Field) := [
  (0x00, [fRB 0 1 0, fRB 1 1 1, fRB 2 2 0 (above 2 0), fRB 4 1, fRB 5 1, fRB 6 1, fRB 7 1]),
  (0x01, [fRB 0 16 0x60 (.range 1 65535 1 65535)]),
  (0x02, [fRB 0 2 3, fRB 2 2 0 (above 2 0), fRB 4 1, fRB 5 1]),
  (0x03, [fRB 0 8 0x04 (near 1 255), fRB 8 6 0, fRB 15 1]),
  (0x04, [fRB 0 2 0 (above 2 1), fRB 4 12 0x060 (near 1 4095), fRB 16 12 0x040 (above 4094 4094)]),
  (0x05, [fRB 0 8 0x11, fRB 8 8 0x13]),
  (0x06, [fRB 0 8 0x01, fRB 8 8 0x01]),
  (0x07, [fRB 0 12 0x018 (near 13 4095), fRB 16 8 0x01 (near 1 255)]),
  (0x08, [fRB 0 2 0 (above 2 0), fRB 4 1]),
  (0x09, [fRB 0 8, fRB 8 8 0xFF, fRB 16 6, fRB 31 1]), (0x0A, [fRB 0 8, fRB 8 8 0xFF, fRB 16 6, fRB 31 1]),
  (0x0B, [fRB 0 8, fRB 8 8 0xFF, fRB 16 6, fRB 31 1]), (0x0C, [fRB 0 8, fRB 8 8 0xFF, fRB 16 6, fRB 31 1]),
  (0x0D, [fRB 0 8, fRB 8 8 0xFF, fRB 16 6, fRB 31 1]), (0x0E, [fRB 0 8, fRB 8 8 0xFF, fRB 16 6, fRB 31 1]),
  (0x0F, [fRB 0 8, fRB 8 8 0xFF, fRB 16 6, fRB 31 1]), (0x10, [fRB 0 8, fRB 8 8 0xFF, fRB 16 6, fRB 31 1]),
  (0x11, [fS 0 1, fS 1 1, fS 2 1]),
  (0x12, [fR 0 14, fR 16 4 8]),
  (0x13, [fRC 0 1, fRC 1 1, fRC 2 1, fRC 3 1, fRC 4 1, fRC 5 1, fRC 6 1, fRC 7 1, fRC 8 1, fRC 9 1, fRC 10 1, fRC 11 1]),
  (0x14, [fRW 0 12]),
  (0x15, [fR 0 16]), (0x18, [fR 0 32]), (0x19, [fR 0 32]), (0x1A, [fR 0 16, fR 16 16]), (0x1B, [fR 0 16, fR 16 16]),
  (0x1C, [fR 0 16, fR 16 16]), (0x1D, [fR 0 16, fR 16 16]), (0x1E, [fR 0 16]), (0x1F, [fR 0 16, fR 16 16])]

/-- A circuit's words, 0x1000 + 64 nn (Tables 7-9 to 7-13). -/
def circRows : List (Nat × List Field) := [
  (0x00, [fRB 0 1, fRB 1 1, fRB 4 2 2, fRB 8 4 6 (above 13 13), fRB 12 2 1 (above 2 1), fRB 16 4 3 (above 13 13)]),
  (0x01, [fRB 0 2, fRB 4 4, fRB 8 6, fRB 16 12]),
  (0x02, [fRB 0 8, fRB 16 12 0x080 (near 1 4095)]),
  (0x03, [fRB 0 8 8 (near 1 255), fRB 8 4 3 (.range 1 12 12 12)]),
  (0x08, [fR 0 2, fR 2 1, fR 3 1, fR 16 12]), (0x09, [fR 0 12, fR 16 8]), (0x0A, [fR 0 16, fR 16 16]), (0x0B, [fR 0 12]),
  (0x0C, [fS 0 1, fS 1 1, fS 2 1]),
  (0x0D, [fRC 0 1, fRC 1 1, fRC 2 1, fRC 3 1, fRC 4 1, fRC 5 1, fRC 6 1]),
  (0x0E, [fRW 0 7 0x0F]),
  (0x10, [fR 0 32]), (0x11, [fR 0 16, fR 16 16]), (0x12, [fR 0 16, fR 16 16]), (0x13, [fR 0 16, fR 16 16]),
  (0x14, [fR 0 16, fR 16 16])]

/-- Block CEL, 0x2000 (Tables 7-15, 8-7 and 8-8). -/
def celRows : List (Nat × List Field) := [
  (0x00, [fR 0 12 4000, fR 16 7]), (0x01, [fR 0 16 4000, fR 16 12]),
  (0x02, [fRB 0 12 0x020 (above 4000 4000), fRB 16 12 0x080 (above 4000 4000)]),
  (0x03, [fR 0 7, fR 8 7, fR 16 5, fR 24 4]), (0x04, [fR 0 12]), (0x05, [fR 0 12, fR 16 6, fR 22 1, fR 24 8]),
  (0x06, [fRC 0 1, fRC 1 1, fRC 2 1, fRC 3 1, fRC 4 1]), (0x07, [fRW 0 5 0b11011]), (0x08, [fR 0 16]),
  (0x10, [fRB 0 1]), (0x11, [fR 0 16, fR 16 16]), (0x12, [fR 0 16, fR 16 16]), (0x13, [fR 0 16, fR 16 16]),
  (0x14, [fR 0 3, fR 8 6, fR 16 12, fR 31 1]), (0x15, [fR 0 16, fR 16 16]), (0x16, [fR 0 16, fR 16 16]),
  (0x17, [fR 0 16, fR 16 16]), (0x18, [fR 0 2, fR 2 1, fR 4 17]), (0x19, [fRB 0 8 0x10]),
  (0x1A, [fS 0 1, fS 1 1]), (0x1B, [fR 0 16, fR 16 1, fR 17 1]),
  (0x1C, [fRC 0 1, fRC 1 1, fRC 2 1, fRC 3 1, fRC 4 1, fRC 5 1]),
  (0x1D, [fRW 0 1 1, fRW 1 1 0, fRW 2 1 1, fRW 3 1 1, fRW 4 1 0, fRW 5 1 1])]

/-- The shared words of block SEQ, 0x2400 (Tables 9-12 and 9-13). -/
def seqRows : List (Nat × List Field) := [
  (0x00, [fR 0 1, fR 1 2, fR 3 1, fR 4 1, fR 5 1, fR 6 1]),
  (0x01, [fS 0 1, fS 1 1, fRW 4 2 0 (above 2 0)]),
  (0x02, [fRB 0 8 0x40]), (0x03, [fR 0 32]), (0x04, [fR 0 15, fR 16 7]), (0x05, [fR 0 32]), (0x06, [fR 0 32]),
  (0x07, [fR 0 16, fR 16 16]),
  (0x08, [fRC 0 1, fRC 1 1, fRC 2 1, fRC 3 1, fRC 4 1, fRC 5 1]),
  (0x09, [fRW 0 1 0, fRW 1 1 1, fRW 2 1 1, fRW 3 1 1, fRW 4 1 1, fRW 5 1 1]),
  (0x0A, [fR 0 32]), (0x0B, [fR 0 32])]

/-- A circuit context's words, 0x2800 + 16 nn (Table 9-14). -/
def ctxRows : List (Nat × List Field) := [
  (0x00, [fRB 0 23 0x004000, fRB 24 1]), (0x01, [fS 0 1, fS 1 1, fS 2 1, fS 3 1]), (0x02, [fR 0 3, fR 8 4]),
  (0x03, [fR 0 23]), (0x04, [fR 0 16, fR 16 16]), (0x05, [fR 0 16, fR 16 16]), (0x06, [fR 0 23, fR 24 8])]

/-- A system context's words, 0x2C00 + 16 k: as a circuit context's, every field read-only (R142, R587). -/
def sctxRows : List (Nat × List Field) := [
  (0x00, [fR 0 23, fR 24 1]), (0x02, [fR 0 3, fR 8 4]),
  (0x03, [fR 0 23]), (0x04, [fR 0 16, fR 16 16]), (0x05, [fR 0 16, fR 16 16]), (0x06, [fR 0 23, fR 24 8])]

/-- Blocks MEM and JNL, 0x3000 (Tables 11-11 to 11-14), the data windows apart. -/
def memRows : List (Nat × List Field) := [
  (0x00, [fRB 0 2 3, fRB 4 8 0x10 (near 4 255), fRB 16 8 0x40]), (0x01, [fR 0 8]), (0x02, [fR 0 5, fR 8 4, fR 16 8]),
  (0x03, [fR 0 24]), (0x04, [fR 0 24]), (0x08, [fRW 0 6 1 (near 1 32), fRW 8 1, fS 16 1]),
  (0x30, [fR 0 1, fR 1 1, fR 2 1, fR 3 1]), (0x31, [fRB 0 9 0 (above 256 256), fRB 16 8]), (0x33, [fS 0 1, fS 1 1]),
  (0x34, [fRC 0 1, fRC 1 1, fRC 2 1, fRC 3 1, fRC 4 1]),
  (0x35, [fRW 0 1 1, fRW 1 1 0, fRW 2 1 1, fRW 3 1 1, fRW 4 1 0]), (0x48, [fR 0 16, fR 16 16]),
  (0x100, [fR 0 2, fR 2 1, fR 3 1, fR 4 1, fR 5 1, fR 6 1]), (0x101, [fR 0 12, fR 16 9]), (0x102, [fR 0 8, fR 8 6]),
  (0x103, [fR 0 32]), (0x104, [fRW 0 12, fRW 16 9 16 (near 4 256), fRW 28 1]), (0x105, [fS 0 1, fS 1 1]),
  (0x106, [fRB 0 16 0x01F4]), (0x107, [fR 0 16, fR 16 16]), (0x108, [fR 0 8, fR 8 8, fR 16 8]),
  (0x109, [fRC 0 1, fRC 1 1, fRC 2 1, fRC 3 1, fRC 4 1]),
  (0x10A, [fRW 0 1 1, fRW 1 1 0, fRW 2 1 1, fRW 3 1 1, fRW 4 1 0]), (0x10B, [fR 0 5])]

/-- Block HST, 0x0400 (Table 12-14), the PSEQ words apart. -/
def hstRows : List (Nat × List Field) := [
  (0x00, [fR 0 2, fR 2 1, fR 3 1, fR 8 8]), (0x01, [fRB 0 3]), (0x02, [fRC 0 8]), (0x03, [fRW 0 8 0x8D]),
  (0x04, [fR 0 16, fR 16 16]), (0x05, [fR 0 16, fR 16 16]), (0x06, [fR 0 16, fR 16 16]), (0x07, [fR 0 16, fR 16 16]),
  (0x08, [fR 0 32]), (0x09, [fR 0 32]), (0x0A, [fR 0 16, fR 16 8 49]), (0x0B, [fR 0 7, fR 16 16 1]), (0x0C, [fS 0 1])]

/-- A CAN channel's words, 0x5000 or 0x5800 (Tables 13-6 to 13-9), the objects apart. -/
def canRows : List (Nat × List Field) := [
  (0x000, [fRB 0 2, fRB 4 1, fRB 5 1, fRB 6 1 1, fRB 8 1]),
  (0x001, [fRB 0 7 1 (near 1 64), fRB 16 16 0x0625]),
  (0x002, [fRB 0 9 83 (near 2 256), fRB 16 8 12 (near 1 128), fRB 24 8 12 (near 1 128)]),
  (0x003, [fRB 0 5 1 (near 1 31), fRB 8 6 8 (near 2 32), fRB 16 5 3 (near 1 16), fRB 24 5 3 (near 1 16)]),
  (0x004, [fRB 0 7 9, fR 16 7]),
  (0x005, [fRB 0 2 0 (above 2 0), fRB 4 3, fRB 8 11 0x008, fRB 20 12 100 (near 1 4095)]),
  (0x006, [fS 0 1, fS 1 1]),
  (0x007, [fR 0 3, fR 3 1, fR 4 2, fR 8 6, fR 16 8, fR 24 8]),
  (0x008, [fRC 0 1, fRC 1 1, fRC 2 1, fRC 3 1, fRC 4 1, fRC 5 1, fRC 6 1, fRC 7 1, fRC 8 1, fRC 9 1, fRC 10 1, fRC 11 1, fRC 12 1]),
  (0x009, [fRW 0 1 0, fRW 1 1 0, fRW 2 1 1, fRW 3 1 1, fRW 4 1 0, fRW 5 1 1, fRW 6 1 0, fRW 7 1 1, fRW 8 1 0, fRW 9 1 0,
    fRW 10 1 1, fRW 11 1 1, fRW 12 1 1]),
  (0x00A, [fR 0 32]), (0x00B, [fR 0 32]), (0x00C, [fR 0 16, fR 16 16]), (0x00D, [fR 0 16, fR 16 16]),
  (0x00E, [fR 0 16, fR 16 16]), (0x00F, [fR 0 16, fR 16 16]), (0x010, [fR 0 16, fR 16 16]), (0x011, [fR 0 16, fR 16 8, fR 24 8]),
  (0x018, [fR 0 32]), (0x019, [fR 0 32]), (0x01A, [fR 0 32]), (0x01B, [fR 0 32]),
  (0x01C, [fR 0 32]), (0x01D, [fR 0 32]), (0x01E, [fR 0 32]), (0x01F, [fR 0 32])]

/-- A CAN object's words, channel base + 0x400 + 8 i (Table 13-10). -/
def objRows : List (Nat × List Field) := [
  (0, [fRB 0 1, fRB 1 1, fRB 2 2 0 (above 1 0), fRB 4 1, fRB 5 1, fRB 6 1, fRB 7 1, fRB 8 1, fRB 12 2 2, fRB 16 6, fRB 24 1 1,
    fRB 25 1 1, fRB 26 1]),
  (1, [fRB 0 29, fRB 31 1]), (2, [fRB 0 29 0x1FFFFFFF, fRB 31 1 1]), (3, [fS 0 1, fS 1 1]),
  (4, [fR 0 2, fRC 8 1, fRC 9 1, fRC 10 1, fRC 11 1, fR 12 1, fR 13 1, fRC 14 1]), (5, [fR 0 16, fR 16 16])]

/-- Block FAB, 0x4000 (Tables 14-8 to 14-10). -/
def fabRows : List (Nat × List Field) := [
  (0x00, [fR 0 12, fR 12 2, fR 14 1, fR 15 1, fR 16 9]), (0x01, [fRB 0 12 0 (above 0xFFE 0)]),
  (0x02, [fRB 0 12 0x800 (near 1 0xFFE), fRB 16 12 0xFFE (near 1 0xFFE)]),
  (0x03, [fRB 0 1, fRB 1 1, fRB 2 1, fRB 3 1, fRB 4 2 3, fRB 8 2 1, fRB 12 4 8 (near 1 15)]),
  (0x04, [fRB 0 8 0x0A (near 1 255), fRB 8 8 0x14 (near 1 255), fRB 16 8 0x0A (near 1 255), fRB 24 8 0x1E (near 5 255)]),
  (0x05, [fRB 0 8 0x1E (near 1 255)]),
  (0x08, [fRB 0 1, fRB 4 4, fRB 8 1, fRB 12 2, fRB 16 8 0x0A (near 1 255)]),
  (0x09, [fRB 0 1, fRB 4 4, fRB 8 1, fRB 12 2, fRB 16 8 0x0A (near 1 255)]),
  (0x0A, [fRB 0 1, fRB 4 4, fRB 8 1, fRB 12 2, fRB 16 8 0x0A (near 1 255)]),
  (0x0B, [fRB 0 1, fRB 4 4, fRB 8 1, fRB 12 2, fRB 16 8 0x0A (near 1 255)]),
  (0x0C, [fR 0 6, fR 8 4, fR 16 7]), (0x0D, [fS 0 1, fS 1 1, fS 2 1]),
  (0x10, [fRC 0 1, fRC 1 1, fRC 2 1, fRC 3 1, fRC 4 1, fRC 5 1, fRC 6 1, fRC 7 1, fRC 8 1, fRC 9 1, fRC 10 1]),
  (0x11, [fRW 0 1 1, fRW 1 1 1, fRW 2 1 0, fRW 3 1 1, fRW 4 1 0, fRW 5 1 1, fRW 6 1 1, fRW 7 1 0, fRW 8 1 1, fRW 9 1 0, fRW 10 1 1]),
  (0x18, [fR 0 32]), (0x19, [fR 0 32]), (0x1A, [fR 0 16, fR 16 16]), (0x1B, [fR 0 16, fR 16 16]), (0x1C, [fR 0 16, fR 16 16]),
  (0x1D, [fR 0 16, fR 16 16]), (0x1E, [fR 0 16, fR 16 16]), (0x1F, [fR 0 16, fR 16 16]), (0x20, [fR 0 16, fR 16 16]),
  (0x21, [fR 0 16, fR 16 16]), (0x22, [fR 0 16, fR 16 16]), (0x23, [fR 0 16, fR 16 16])]

/-- Block TIM, 0x4800 (Table 15-6). -/
def timRows : List (Nat × List Field) := [
  (0x00, [fR 0 2, fR 2 3, fR 5 1, fR 6 1, fR 8 4, fR 12 1, fR 13 1]),
  (0x01, [fRB 0 1 1, fRB 1 1, fRB 2 1, fRB 3 1 1, fRB 4 4 4 (above 8 8), fRB 16 8 10 (near 1 255)]),
  (0x02, [fRB 0 1, fRB 1 1, fRB 4 10 100 (near 1 400), fRB 16 2]), (0x03, [fRB 0 8 24 (near 1 255)]),
  (0x04, [fRB 0 8 1 (near 1 255), fRB 8 8 16 (near 1 255), fRB 16 8 10 (near 1 255)]),
  (0x05, [fRB 0 20 0 (above 999999 999999)]), (0x06, [fRB 0 20 0 (above 999999 999999)]),
  (0x07, [fRB 0 20 0 (above 999999 999999)]), (0x08, [fRB 0 20 0 (above 999999 999999)]),
  (0x09, [fR 0 32]), (0x0A, [fR 0 32]), (0x0B, [fR 0 32]), (0x0C, [fR 0 32]), (0x0D, [fRC 0 8]), (0x0E, [fRW 0 8 0x87]),
  (0x0F, [fR 0 16, fR 16 16]), (0x10, [fR 0 16, fR 16 16]), (0x11, [fR 0 16]), (0x12, [fS 0 1])]

/-- Block SUP, 0x0300 (Table 16-7), the per-port words apart. -/
def supRows : List (Nat × List Field) := [
  (0x00, [fR 0 9, fR 12 4, fR 16 3]), (0x01, [fRC 0 9]), (0x02, [fRC 0 9]), (0x03, [fRW 0 9 0x1AF]),
  (0x04, [fRB 0 8 0x20 (near 4 250), fR 16 8]), (0x05, [fR 0 12, fR 16 12]), (0x06, [fR 0 8, fR 8 8]),
  (0x07, [fRB 0 2, fRB 8 8 115 (near 85 125), fRB 16 12 2300 (near 2000 3000)]),
  (0x08, [fRB 0 8 32 (near 1 255), fRB 8 8 4 (near 1 255), fRB 16 8 20]),
  (0x09, [fRB 0 16 0xFFFF .ports, fRB 16 4 8 (.range 1 12 12 12)]),
  (0x0A, [fR 0 16]), (0x0B, [fS 0 1, fS 1 1, fS 2 1, fS 3 1]), (0x0C, [fS 0 16]),
  (0x20, [fR 0 2, fR 2 1, fR 8 6, fR 16 16]), (0x21, [fR 0 8, fR 8 8, fR 16 8, fR 24 8]),
  (0x22, [fR 0 16, fR 16 16]), (0x23, [fR 0 16, fR 16 16])]

/-- The fields of offset `o` in a block's rows; none for a reserved word (R17). -/
def rowsAt : List (Nat × List Field) → Nat → List Field
  | [], _ => []
  | (a, fs) :: t, o => if a = o then fs else rowsAt t o

/-- The fields of register word `a` (Table 5-1; R133, R134). An instruction RAM word is one RW field (R135). -/
def fieldsAt (a : Nat) : List Field :=
  if a < 0x100 then rowsAt glbRows a
  else if a < 0x200 then rowsAt strRows (a - 0x100)
  else if a < 0x300 then rowsAt clkRows (a - 0x200)
  else if a < 0x400 then
    if 0x310 ≤ a ∧ a < 0x320 then [fR 0 8, fR 8 4, fR 16 9, fR 25 7] else rowsAt supRows (a - 0x300)
  else if a < 0x800 then
    if 0x420 ≤ a ∧ a < 0x440 then [fR 0 16, fR 16 16] else rowsAt hstRows (a - 0x400)
  else if a < 0xC00 then rowsAt portRows (a % 64)
  else if a < 0x1000 then []
  else if a < 0x2000 then rowsAt circRows (a % 64)
  else if a < 0x2400 then rowsAt celRows (a - 0x2000)
  else if a < 0x2800 then rowsAt seqRows (a - 0x2400)
  else if a < 0x2C00 then rowsAt ctxRows (a % 16)
  else if a < 0x2C80 then rowsAt sctxRows (a % 16)
  else if a < 0x3000 then []
  else if a < 0x4000 then
    if 0x3009 ≤ a ∧ a < 0x300D then [fRW 0 32]
    else if 0x3010 ≤ a ∧ a < 0x3030 then [fRW 0 32]
    else if 0x3038 ≤ a ∧ a < 0x3040 then [fR 0 32]
    else if 0x3040 ≤ a ∧ a < 0x3048 then [fRW 0 32]
    else rowsAt memRows (a - 0x3000)
  else if a < 0x4800 then rowsAt fabRows (a - 0x4000)
  else if a < 0x5000 then rowsAt timRows (a - 0x4800)
  else if a < 0x6000 then
    if a % 0x800 < 0x400 then rowsAt canRows (a % 0x800) else rowsAt objRows (a % 8)
  else if a < 0xC000 then []
  else if a < 0x10000 then [fRW 0 32]
  else []

/-- The reset value of a word from its fields. -/
def resetOf (fs : List Field) : Word := fs.foldl (fun w f => setF w f.lo f.wd f.reset) 0#32

/-- The mask of the fields that satisfy `p`. -/
def maskOf (p : Field → Bool) (fs : List Field) : Word :=
  fs.foldl (fun w f => if p f then w ||| maskAt f.lo f.wd else w) 0#32

/-- The mask of the fields of access code `c` of word `a`. -/
def accMask (c : Acc) (a : Nat) : Word := maskOf (fun f => f.acc == c) (fieldsAt a)

end Sys2Proof.Machine
end

