-- ==== Sys2Proof/Machine/CanTypes.lean ====
section
/-! DEFINITION. Sys2Proof/Machine/CanTypes.lean: what a CAN channel keeps beside its registers (chapter 13). -/
namespace Sys2Proof.Machine

/-- Channel states (CANx_STAT.STATE, Table 13-8). -/
inductive CanSt where
  | off | integrating | active | passive | recovering | held
  deriving DecidableEq, Repr

/-- Time roles (CANx_STAT.ROLE). -/
inductive CanRole where
  | off | follower | backup | master
  deriving DecidableEq, Repr

/-- Where a frame that the channel offers comes from: the time function, a fabric claim frame, a fabric packet by its
cell, an object. -/
inductive TxSrc where
  | ref
  | claim
  | fab (cell : Nat)
  | obj (i : Nat)
  deriving DecidableEq, Repr

/-- An empty frame. -/
def noFrame : CanFrame := ⟨false, 0, false, false, false, false, 0, []⟩

/-- A message object, its registers apart. -/
structure CanObj where
  /-- a frame is pending; a cancel came after its start of frame -/
  pend : Bool := false
  cancel : Bool := false
  /-- circuit kind: the cell being taken; lost arbitrations since last served (R25) -/
  cell : Option Nat := none
  loss : Nat := 0
  /-- register kind: the stored frame with its timestamp, or the DLC and data of the next request -/
  frame : CanFrame := noFrame
  ts : Nat := 0
  /-- an uncorrectable error disables it until a commit writes the word again (R468) -/
  bad : Bool := false
  deriving DecidableEq, Repr

/-- One CAN channel. -/
structure Can where
  st : CanSt := .off
  tec : Nat := 0
  rec_ : Nat := 0
  role : CanRole := .off
  /-- the frame whose start of frame has begun, and its source -/
  onBus : Option (TxSrc × CanFrame) := none
  /-- a reference message is due; the time its payload carries and whether it holds one; the sync mark seen at the
  start of frame of the frame on the bus -/
  refDue : Bool := false
  mark : Time := 0#80
  markSet : Bool := false
  /-- a message of lower priority was seen: the own message is scheduled for its mark + PERIOD (R473) -/
  refPlan : Bool := false
  boTime : Time := 0#80
  /-- the sample point of the start of frame of the frame on the bus; reference messages received and not yet judged -/
  sof : Time := 0#80
  refIn : List (CanFrame × Time) := []
  /-- the channel has given the ACK bit of the last frame on the bus (R434) -/
  ack : Bool := false
  /-- how many CANx cycles after a data bit's start the frame being sent has its bits checked (R443, R444) -/
  checkAt : Nat := 0
  objs : List (Nat × CanObj) := []
  deriving DecidableEq, Repr

end Sys2Proof.Machine
end

