-- ==== Sys2Proof/Machine/FMap.lean ====
section
/-! DEFINITION. Sys2Proof/Machine/FMap.lean: sparse maps in one canonical form. Registers, shadows, cells, circuits,
ports, contexts, objects and external memories are all held this way: a list of (key, value) pairs, keys strictly
rising, and no pair whose value equals what an unlisted key reads as. -/
namespace Sys2Proof.Machine

/-- A sparse map keyed by a natural number. -/
abbrev FMap (α : Type) := List (Nat × α)

/-- What key `k` reads as: its listed value, else the default `d k`. -/
def fget {α : Type} (d : Nat → α) : FMap α → Nat → α
  | [], k => d k
  | (a, v) :: t, k => if a = k then v else fget d t k

/-- Remove every entry of key `k`. -/
def ferase {α : Type} : FMap α → Nat → FMap α
  | [], _ => []
  | (a, v) :: t, k => if a = k then ferase t k else (a, v) :: ferase t k

/-- Insert `(k, v)` before the first larger key. -/
def fins {α : Type} : FMap α → Nat → α → FMap α
  | [], k, v => [(k, v)]
  | (a, w) :: t, k, v => if k < a then (k, v) :: (a, w) :: t else (a, w) :: fins t k v

/-- Write `v` at key `k`: writing the default removes the entry, so equal maps are equal lists. -/
def fset {α : Type} [DecidableEq α] (d : Nat → α) (m : FMap α) (k : Nat) (v : α) : FMap α :=
  if v = d k then ferase m k else fins (ferase m k) k v

/-- Change the value at key `k`. -/
def fmod {α : Type} [DecidableEq α] (d : Nat → α) (m : FMap α) (k : Nat) (f : α → α) : FMap α :=
  fset d m k (f (fget d m k))

/-- The canonical form: keys strictly rising above `lo`, and no entry equal to the default. -/
def fwfFrom {α : Type} [DecidableEq α] (d : Nat → α) : Nat → FMap α → Bool
  | _, [] => true
  | lo, (a, v) :: t => decide (lo ≤ a) && decide (v ≠ d a) && fwfFrom d (a + 1) t

/-- The canonical form of a whole map. -/
def fwf {α : Type} [DecidableEq α] (d : Nat → α) (m : FMap α) : Bool := fwfFrom d 0 m

end Sys2Proof.Machine
end

