-- ==== Sys2Proof/Machine/FabTypes.lean ====
section
/-! DEFINITION. Sys2Proof/Machine/FabTypes.lean: what the fabric keeps beside its registers: trunks, neighbours, routes,
reorder contexts, reassemblies and the address claim (chapter 14). -/
namespace Sys2Proof.Machine

/-- A path: its trunk (0 CAN A, 1 CAN B, 2–5 UT0–UT3), next hop and metric (R501). -/
structure RPath where
  trunk : Nat
  hop : Nat
  metric : Nat
  deriving DecidableEq, Repr

/-- States of a route entry (R501). -/
inductive RouteSt where
  | empty | valid | hold
  deriving DecidableEq, Repr

/-- A route table entry (R501). In hold-down `best` is the former best path, and `best.metric` the metric it held before
it failed (R505). -/
structure Route where
  st : RouteSt := .empty
  dst : Nat := 0
  tag : Nat := 0
  strap : Bool := false
  best : RPath := ⟨0, 0, 16⟩
  alt : Option RPath := none
  /-- when it was last refreshed, and when hold-down began -/
  fresh : Time := 0#80
  held : Time := 0#80
  deriving DecidableEq, Repr

/-- States of a neighbour (Table 14-11). -/
inductive NbrSt where
  | empty | pending | fresh | plain
  deriving DecidableEq, Repr

/-- A neighbour (R493–R496). -/
structure Nbr where
  st : NbrSt := .empty
  addr : Nat := 0
  trunk : Nat := 0
  uid : BitVec 64 := 0#64
  /-- highest accepted counter H, and which of H − 31 to H were accepted (bit k for H − k) -/
  high : Nat := 0
  seen : Word := 0#32
  /-- the nonce most recently heard in a HELLO that passed step 6 -/
  nonce : Option Word := none
  /-- its HELLO interval in 100 ms, and when its last HELLO passed -/
  interval : Nat := 10
  last : Time := 0#80
  deriving DecidableEq, Repr

/-- Receiver states of a UART trunk (R487, R488). -/
inductive LockSt where
  | hunt | locked
  deriving DecidableEq, Repr

/-- One trunk. -/
structure Trunk where
  up : Bool := false
  lock : LockSt := .hunt
  /-- received bytes: in HUNT from the candidate's first byte on, in LOCKED after the sync that starts the frame -/
  rx : List Byte := []
  /-- the times of sample 0 of those bytes (R544) -/
  rxT : List Time := []
  /-- bytes of the burst still to send; how many bytes remain until the packet being sent is marked as sent -/
  tx : List Byte := []
  sending : Bool := false
  /-- transmit counter and nonce (R492, R494); when the last HELLO for a new nonce was sent -/
  ctr : Nat := 1
  nonce : Word := 0#32
  helloAt : Option Time := none
  /-- a HELLO is owed for a new nonce; destinations changed since the last triggered update -/
  helloDue : Bool := false
  changed : List Nat := []
  deriving DecidableEq, Repr

/-- A reorder context (R511). -/
structure Reorder where
  used : Bool := false
  src : Nat := 0
  scirc : Nat := 0
  dcirc : Nat := 0
  next : Nat := 0
  tomb : Nat := 0
  held : List Pkt := []
  /-- when it was last used -/
  last : Time := 0#80
  deriving DecidableEq, Repr

/-- A CAN reassembly context (R484). -/
structure Reasm where
  chan : Nat
  sender : Nat
  cls : Nat
  count : Nat
  bytes : List Byte
  /-- the sample point of the first frame's start of frame (R544) -/
  t0 : Time
  deriving DecidableEq, Repr

/-- The address claim (R497–R499). -/
structure Claim where
  active : Bool := false
  addr : Nat := 0
  /-- the claimed or owned address is FAB_ADDR.REQ, not zero: strapped -/
  strapped : Bool := false
  /-- claims sent of this claim: 1 to 3 -/
  step : Nat := 0
  /-- the auto attempt a and the consecutive defeats -/
  attempt : Nat := 0
  defeats : Nat := 0
  /-- waits 10 s before the next auto candidate -/
  backoff : Bool := false
  deriving DecidableEq, Repr

/-- Claim frames waiting on a CAN channel (FORM 0): the channel, the address, the OWNER bit, the UID-derived wait. -/
structure ClaimFrame where
  chan : Nat
  addr : Nat
  owner : Bool
  wait : Bool
  deriving DecidableEq, Repr

/-- A packet that has been taken from a trunk and waits to be judged, or a FORM 0 claim frame (DST the claimed address,
FL its CLAIM and OWNER bits, the body its UID and STRAP bit as in a HELLO). -/
structure InPkt where
  pkt : Pkt
  trunk : Nat
  sender : Nat
  form0 : Bool := false
  /-- when its frame was taken -/
  at_ : Time := 0#80
  /-- the replay counter of its frame -/
  ctr : Nat := 0
  deriving DecidableEq, Repr

/-- The fabric. -/
structure Fab where
  /-- packets taken and not yet judged, oldest first -/
  inQ : List InPkt := []
  /-- fabric frames in the channels' fabric buffers, with the time of their start of frame -/
  segQ : List (Nat × CanFrame × Time) := []
  trunks : List Trunk := [{}, {}, {}, {}, {}, {}]
  nbrs : List (Nat × Nbr) := []
  routes : List (Nat × Route) := []
  orders : List (Nat × Reorder) := []
  reasm : List Reasm := []
  claim : Claim := {}
  claimQ : List ClaimFrame := []
  ownTime : Time := 0#80
  bestTime : Time := 0#80
  deriving DecidableEq, Repr

end Sys2Proof.Machine
end

