-- ==== Sys2Proof/Machine/HostTypes.lean ====
section
/-! DEFINITION. Sys2Proof/Machine/HostTypes.lean: what the host port keeps beside its registers (chapter 12), and the
mailbox's capture (R159). -/
namespace Sys2Proof.Machine

/-- A reply before it is sent (R398): OP, TAG, STATUS (Table 12-4), the PULL marks and the data words. A chain status uses
the TAG, the STATUS, SHORT and one data word. -/
structure Reply where
  op : Nat := 0
  tag : Nat := 0
  status : Nat := 0x0B
  stale : Bool := false
  slvfail : Bool := false
  short : Bool := false
  data : List Word := []
  deriving DecidableEq, Repr

/-- A chain command taken at a select release (R424): its 64 bits, whether it came from a short shift, and the status word shifted
out in the frame before (R428). -/
structure ChainCmd where
  bits : BitVec 64
  short : Bool
  before : BitVec 64
  deriving DecidableEq, Repr

/-- The host port. -/
structure HostIf where
  /-- HSEL_N is low; the frame began before the port answers (R430); it is discarded whole, having woken the device (R75); its
  host phase has been judged -/
  selected : Bool := false
  early : Bool := false
  discard : Bool := false
  judged : Bool := false
  /-- the answers A and P, and the reply that becomes A at the select release (R400) -/
  a : Reply := {}
  p : Reply := {}
  next : Option Reply := none
  /-- the command of the last accepted frame has not finished (R401, HST_STAT.APEND) -/
  running : Bool := false
  /-- a frame since the last accepted one was refused or broken (R403) -/
  rej : Bool := false
  /-- the device phase of this frame: header, data words and trailer; empty where the device does not drive -/
  out : List Word := []
  /-- chain mode: the status word loaded at the last select fall and the one before it; the word that an AGAIN has asked to be
  repeated; the status now shifting is NOTREADY; the command word waiting to be executed -/
  shown : BitVec 64 := 0#64
  before : BitVec 64 := 0#64
  again : Option (BitVec 64) := none
  notReady : Bool := false
  cmd : Option ChainCmd := none
  /-- the level HCO drives in chain mode: bit 63 of the shift register (R423) -/
  hco : Bool := false
  /-- outstanding tokens: circuit, token, cell (R416) -/
  tokens : List (Nat × Nat × Nat) := []
  /-- the circuit last served by a PULL within each class -/
  lastPull : List Nat := [63, 63, 63, 63]
  /-- a snapshot has been started since reset (R418) -/
  snapOn : Bool := false
  /-- system reserve cells that stage the snapshot chunk of the reply being completed (R419) -/
  staging : List Nat := []
  /-- the level that HIRQ_N holds in DORMANT: driven low or released (R165) -/
  irqHeld : Bool := false
  frameTime : BitVec 80 := 0#80
  deriving DecidableEq, Repr

/-- The mailbox: a capture runs for the selected item (R159). -/
structure Mailbox where
  capturing : Bool := false
  deriving DecidableEq, Repr

end Sys2Proof.Machine
end

