-- ==== Sys2Proof/Machine/MemTypes.lean ====
section
/-! DEFINITION. Sys2Proof/Machine/MemTypes.lean: what the memory port and the journal's writer keep beside their registers
(chapter 11). -/
namespace Sys2Proof.Machine

/-- What a queue entry of the memory port is for (R369), in the arbiter's order: a journal record's second phase, an XIP fill
of a line address, a journal first phase or a chunk that clears an FRAM unit, an image load chunk, a chain cycle, the host
entry, the start of a flash erase. -/
inductive MemKind where
  | second
  | xip (addr : Nat)
  | first
  | image
  | chain
  | host
  | erase
  deriving DecidableEq, Repr

/-- An operation of the flash itself (R368). -/
inductive FlashOp where
  | program
  | erase
  deriving DecidableEq, Repr

/-- What the boot scan has decided on for one record (R392): void it; commit it or complete its COMMIT. -/
inductive Mend where
  | void | commit
  deriving DecidableEq, Repr

/-- Maintenance work of the journal, done in order: a record to mend at an address; a sector or unit to clear from an address,
with the 64-byte writes done in FRAM; a ring header to write (slot, first byte of unit 0, units); the end of a format. -/
inductive JJob where
  | mend (addr : Nat) (m : Mend)
  | clear (addr done : Nat)
  | header (slot base units : Nat)
  | fmtDone (slot base units : Nat)
  deriving DecidableEq, Repr

/-- The memory port. -/
structure MemPort where
  /-- the entry whose select is asserted -/
  active : Option MemKind := none
  /-- the entry that collided and is retried from its start, and how often in a row (R373) -/
  again : Option MemKind := none
  colls : Nat := 0
  /-- how often each kind has been passed over, in the arbiter's order (R369) -/
  passed : List Nat := [0, 0, 0, 0, 0, 0, 0]
  /-- line addresses whose fill is requested, oldest first -/
  fills : List Nat := []
  /-- a chain cycle is requested; a host entry waits; an image chunk is wanted -/
  chainReq : Bool := false
  hostReq : Bool := false
  imageReq : Bool := false
  /-- the flash is busy programming; the sector being erased, in progress or suspended -/
  progBusy : Bool := false
  erasing : Option Nat := none
  /-- the operation that stayed busy too long and is retried after 1 s (R368) -/
  retry : Option FlashOp := none
  /-- the byte that follows the last one read while MSEL0_N is parked (R370) -/
  parked : Option Nat := none
  /-- the write-enable latches of the flash and the FRAM, as host entries leave them -/
  wel0 : Bool := false
  wel1 : Bool := false
  /-- the other master held a select when the selects were last sensed (R96, R372, R373) -/
  other : Bool := false
  /-- a chain cycle has run since reset; the bits that the last one shifted out, and those that the output registers have latched,
  output bit 0 first (R376, R377) -/
  chainRan : Bool := false
  chainShift : List Bool := []
  chainOut : List Bool := []
  collTime : BitVec 80 := 0#80
  deriving DecidableEq, Repr

/-- The journal writer (R383–R392). -/
structure JWriter where
  jobs : List JJob := []
  /-- the address of a record sealed and not yet committed -/
  sealed : Option Nat := none
  /-- a checkpoint group is being written: members sealed, members committed -/
  ckpt : Option (Nat × Nat) := none
  /-- the head unit holds a complete checkpoint -/
  ckptDone : Bool := false
  /-- the high-water mark of each circuit (R268, R269), none where none has been read or journaled -/
  marks : FMap (Option Nat) := []
  /-- a header was claimed in this slot and waits for its verification (R380) -/
  verify : Option Nat := none
  /-- a format has moved the ring and its checkpoint is not yet complete (R382) -/
  fmtDue : Bool := false
  committed : Nat := 0
  deriving DecidableEq, Repr

end Sys2Proof.Machine
end

