-- ==== Sys2Proof/Machine/TimTypes.lean ====
section
/-! DEFINITION. Sys2Proof/Machine/TimTypes.lean: what the timebase keeps beside its registers (chapter 15). -/
namespace Sys2Proof.Machine

/-- One time reference (R530–R532, R547): keys 1 TPI, 2 CAN A, 3 CAN B, 16 + j neighbour j. -/
structure TRef where
  qual : Bool := false
  /-- its last measurements in ns, latest first, at most 3 -/
  meas : List Int := []
  /-- the time of its last measurement, by the count as it now stands: a step moves it with the count (R529, R533) -/
  last : Option Time := none
  /-- advertised quality code and stratum -/
  adQ : Nat := 0
  adStratum : Nat := 15
  /-- the latest TIME packet's TSEQ and the own capture of its mark (R545) -/
  tseq : Option (Nat × Time) := none
  deriving DecidableEq, Repr

/-- The timebase. -/
structure Tim where
  refs : List (Nat × TRef) := []
  /-- the key of the selected reference, 0 none -/
  sel : Nat := 0
  /-- the loop terms P and I in ppm, and the time of the measurement before (R533) -/
  p : Rat := 0
  i : Rat := 0
  prev : Option Time := none
  /-- measurements of a network reference within this second, in ns -/
  acc : List Int := []
  /-- consecutive outliers, and consecutive measurements within the threshold (R534, R536) -/
  outliers : List Int := []
  good : Nat := 0
  /-- a step is scheduled: its e in ns (R535) -/
  plan : Option Int := none
  /-- seconds written to item 0x002 (R526) -/
  setSec : Option Nat := none
  /-- the last accepted TPI edge; the next pulse is exempt from the interval test (R529) -/
  tpi : Time := 0#80
  tpiFirst : Bool := true
  stepTime : Time := 0#80
  /-- TPO's pulse is on; TPO is running (R540) -/
  tpo : Bool := false
  tpoOn : Bool := false
  /-- per trunk: the next TSEQ, and the own capture of the last TIME packet's mark (R543, R544) -/
  txSeq : List Nat := [0, 0, 0, 0, 0, 0]
  txMark : List (Option Time) := [none, none, none, none, none, none]
  deriving DecidableEq, Repr

end Sys2Proof.Machine
end

