-- ==== Sys2Proof/Machine/State.lean ====
section
/-! DEFINITION. Sys2Proof/Machine/State.lean: everything the specification gives the machine, as plain data, and
State.reset. Register words are held sparsely (applied copy `regs`, shadow copy `shadow`); engine state that is no
register stands in a structure of its own beside them. -/
namespace Sys2Proof.Machine

/-- What the die is: its grade (R3), its unique ID (Table 5-5), its OTP trunk keys (R56, R490) and its OTP image key
(R326). DESIGN CHOICE: a blank ZT-1664 with unique ID 1 (log entry 2). -/
structure Chip where
  grade : Nat := 16
  uid : BitVec 64 := 1#64
  trunkKeys : List (Option (BitVec 128)) := [none, none, none, none]
  imageKey : Option (BitVec 256) := none
  deriving DecidableEq, Repr

/-- Time quality (Table 15-1). -/
inductive Quality where
  | unset | free | holdover | locked
  deriving DecidableEq, Repr

/-- The HOLD domain: what survives a reset (R113, R116, R524, R525, R548, R550). -/
structure Hold where
  /-- the validity marker of R525 -/
  valid : Bool := false
  /-- the run marker of R116 -/
  runMarker : Bool := false
  /-- an outage since the run marker was set (R116) -/
  outage : Bool := false
  /-- the time count and the remainder of its exact increment (R521, R522) -/
  count : Time := 0#80
  rem : Nat := 0
  /-- the count lives in the TIME domain; else in HOLD (R524) -/
  inTime : Bool := false
  quality : Quality := .unset
  stratum : Nat := 15
  holdStart : Time := 0#80
  holdSec : Nat := 0
  /-- a reference was lost and none is selected since: TIM_HOLDSEC counts (R538) -/
  lost : Bool := false
  /-- TIM_HFREQ (R539) -/
  hfreq : Word := 0#32
  /-- CLK_RSTCAUSE.RESETS and SUP_CNT0.BROWN, with the times of the latest brownout resets (R550) -/
  resets : Nat := 0
  brown : Nat := 0
  brownTimes : List Time := []
  wdlast : Nat := 0
  /-- HOLD draws from VBAT (R83) -/
  onVbat : Bool := false
  deriving DecidableEq, Repr

/-- The power states of R122. -/
inductive PowerState where
  | run | quiet | dormant | off
  deriving DecidableEq, Repr

/-- One port group clock (R106–R112). -/
structure Group where
  running : Bool := false
  switching : Bool := false
  /-- every port frozen, the clock stopped for the switch -/
  stopped : Bool := false
  /-- the code in force at the clock, and the code being switched to -/
  code : Nat := 2
  target : Nat := 2
  deriving DecidableEq, Repr

/-- Supply, reset, clocks and power state (chapter 4). -/
structure Power where
  st : PowerState := .run
  /-- the supply monitor sees VDDIO below the brownout threshold -/
  low : Bool := false
  /-- the 1 ms power-on release has come (R115) -/
  released : Bool := false
  /-- RESET_N is low -/
  pinLow : Bool := false
  /-- VBAT was at 1.8 V or above at power-up and is not tied to VDDIO (R84) -/
  batOk : Bool := false
  /-- the cause that asserted the present or last reset (Table 4-5); the supply monitor's is settled between 0 and 1 at
  the power-on release -/
  cause : Nat := 0
  rstArmed : Bool := false
  /-- woken from DORMANT, not yet live (R127) -/
  waking : Bool := false
  slowWake : Bool := false
  /-- the relock sequence runs; ROOT was lost in it (R130) -/
  relock : Bool := false
  rootLost : Bool := false
  groups : List Group := [{}, {}, {}, {}]
  /-- PFI_N is low; the 10 ms count after its rise runs; its low time is being measured -/
  pfiLow : Bool := false
  pfiWait : Bool := false
  /-- VDDIO is below the supply warning threshold; the 10 s of R550 run -/
  vlow : Bool := false
  deriving DecidableEq, Repr

/-- Progress of the start-up sequence (Table 4-6). -/
structure Boot where
  /-- reset released, straps being read: step 1 -/
  started : Bool := false
  /-- provisional levels latched: step 2 -/
  strapped : Bool := false
  /-- the VCO domains are released and the host port answers: step 4 -/
  hostUp : Bool := false
  /-- memories initialised, memory port and system contexts started: step 5 -/
  memUp : Bool := false
  /-- boot scan done, straps resolved, Mantle computed: step 6 -/
  scanned : Bool := false
  /-- image loaded: step 7 -/
  imaged : Bool := false
  /-- the post-strike self-audit has reached its verdict -/
  audited : Bool := false
  /-- Mantle layer applied: step 8 -/
  mantled : Bool := false
  /-- ports live: step 9 -/
  live : Bool := false
  /-- the ROOT start retry of R104 runs; retries counted -/
  retrying : Bool := false
  retries : Nat := 0
  /-- TMODE was high at the release of reset (R76) -/
  factory : Bool := false
  /-- the last reset was a brownout reset -/
  brownout : Bool := false
  deriving DecidableEq, Repr

/-- What is attached outside: the memories on the memory port (R364–R366), their contents, and what they answer.
DESIGN CHOICE: neither memory fitted, an unwritten byte reads 0xFF (log entry 6). -/
structure Ext where
  flashFitted : Bool := false
  framFitted : Bool := false
  flashId : Nat := 0
  framId : Nat := 0
  framAgain : Nat := 0
  /-- the basic flash parameter table, if the flash answers one: 4 KiB erase, erase opcode, 4-byte addressing only, log2
  of density, log2 of page size, erase suspend -/
  sfdp : Option (Bool × BitVec 8 × Bool × Nat × Nat × Bool) := none
  flash : FMap Byte := []
  fram : FMap Byte := []
  deriving DecidableEq, Repr

/-- A last-known-good strap record (Table 11-5, TYPE 0x01 and 0x03): six levels packed as in STR_LEVELS bits 23:0, the
AUX bits, the chain length and the chain bits (bit 0 first, so the most significant bit of the vector). -/
structure Lkg where
  levels : Nat := 0
  aux : Nat := 0
  chainLen : Nat := 0
  chain : BitVec 256 := 0#256
  deriving DecidableEq, Repr

/-- Strap reading, resolution and the Mantle layer (chapter 2). -/
structure Strap where
  /-- slots finished: 0 to 6 in the first pass -/
  slot : Nat := 0
  /-- the second pass: pins still to measure again (R40) -/
  again : List Nat := []
  /-- readings of STRAP_A to STRAP_F in mV, and which read a boundary -/
  mv : List Nat := [0, 0, 0, 0, 0, 0]
  /-- the AUX samples taken at the starts of the first-pass slots (R42) -/
  auxSamples : List (BitVec 8) := []
  /-- the levels of AUX7 to AUX0 as the device last saw them (R42, R44, R208) -/
  auxPins : BitVec 8 := 0#8
  /-- the settled AUX bits, and the pins that were unstable -/
  aux : Nat := 0
  auxUnst : Nat := 0
  lkg : Option Lkg := none
  /-- an on-demand measurement runs (R577) -/
  measuring : Bool := false
  /-- the internal copy of the Mantle layer (R70): RB words by address, and whether it has been computed -/
  mantle : FMap Word := []
  mantleOn : Bool := false
  /-- the circuits whose mantle target depends on the own address (R67) -/
  selfTarget : List Nat := []
  /-- the own address for which those bindings were last computed; 0 before a claim is won -/
  boundOwn : Nat := 0
  /-- the hand-back timer runs (R71) -/
  handbackRun : Bool := false
  /-- profile 12: standing by (R68), and waiting out its first 10 s -/
  standby : Bool := false
  twinWait : Bool := false
  deriving DecidableEq, Repr

/-- A staged commit: the frozen shadow of one instance, and the GLB_COMMIT writes it belongs to (R142, R146). Each
word is an address, the mask of the bits staged, and their values. -/
structure Staged where
  inst : Inst
  writes : List Nat
  words : List (Nat × Word × Word)
  /-- reported slow (R150) -/
  slow : Bool := false
  deriving DecidableEq, Repr

/-- A queued strobe (R144) and the writes merged into it. -/
structure Queued where
  inst : Inst
  writes : List Nat
  deriving DecidableEq, Repr

/-- A commit held during start-up (R119): per instance, the host-written fields and their values at the strobe. -/
structure HeldCommit where
  groups : Nat
  parts : List (Inst × List (Nat × Word × Word))
  deriving DecidableEq, Repr

/-- Shadows, staged commits and queued strobes (chapter 5). -/
structure Commit where
  staged : List Staged := []
  queued : List Queued := []
  held : List HeldCommit := []
  /-- host-written marks: masks by word address (R580) -/
  marks : FMap Word := []
  nextWrite : Nat := 0
  /-- circuit reserves trimmed together by one write (R244): write, circuit, reserve -/
  trimmed : List (Nat × Nat × Nat) := []
  doneTime : Time := 0#80
  liveTime : Time := 0#80
  deriving DecidableEq, Repr

/-- Who writes an open cell, or takes a closed one (R259): nobody, a port receiver, the write cursor of a context, a CAN
receive object, a host PUSH, a fabric delivery; a port transmitter, a CAN object or a host PULL. -/
inductive Holder where
  | none
  | portRx (n : Nat)
  | wcur (x : Nat)
  | canRx (ch i : Nat)
  | push
  | fabric
  | portTx (n : Nat)
  | canTx (ch i : Nat)
  | pull
  deriving DecidableEq, Repr

/-- What a cell of the system reserve is used for (Table 7-6). -/
inductive SysUse where
  | ctl | relay | jnl | other
  deriving DecidableEq, Repr

/-- A cell's owner (Table 7-1). -/
inductive Owner where
  | free
  | circ (c : Nat)
  | sys (u : SysUse)
  deriving DecidableEq, Repr

/-- A cell's state (Table 7-1). -/
inductive CellSt where
  | free | openS | closed | taken
  deriving DecidableEq, Repr

/-- One cell: its header (Table 7-1, Table 7-2), its payload, and its marks in queue RAM and for retirement. -/
structure Cell where
  owner : Owner := .free
  cls : Nat := 0
  st : CellSt := .free
  errChr : Bool := false
  afterLoss : Bool := false
  cont : Bool := false
  tomb : Bool := false
  cause : Nat := 0
  seq : Nat := 0
  origin : Nat := 0
  ts : Nat := 0
  sleeve : Word := 0#32
  payload : List Byte := []
  holder : Holder := .none
  /-- the packet SEQ under which a fabric cell arrived (R515) -/
  pktSeq : Nat := 0
  /-- uncorrectable words of the payload not yet found: word index within the cell -/
  bad : List Nat := []
  /-- correctable errors that have been written back once: word index within the cell (R293) -/
  corrected : List Nat := []
  /-- the poison mark of queue RAM (R290) -/
  poison : Bool := false
  /-- to be retired when freed; retired (R293) -/
  retire : Bool := false
  retired : Bool := false
  /-- being taken and already freed or discarded: its egress frees it once, or abandons it (R241, R262, R264) -/
  freed : Bool := false
  abandon : Bool := false
  deriving DecidableEq, Repr

/-- Circuit states (Table 7-7). -/
inductive CircSt where
  | disabled | run | drain | fault
  deriving DecidableEq, Repr

/-- One circuit (chapter 7), its registers apart. -/
structure Circ where
  st : CircSt := .disabled
  /-- closed cells in the endpoint queue, oldest first -/
  queue : List Nat := []
  /-- closed cells in the context's inbox (R310) -/
  inbox : List Nat := []
  credits : Nat := 0
  txseq : Nat := 0
  tombSeq : Nat := 0
  /-- the stall timer and the FRESTART interval run -/
  stallRun : Bool := false
  frestart : Bool := false
  /-- arbitrations that the waiting head cell has lost at the egress, and that a pending allocation request has lost at the allocator
  (R25, R237) -/
  txLoss : Nat := 0
  allocLoss : Nat := 0
  /-- a refused allocation lost characters: the next cell is AFTERLOSS (R192) -/
  lossPend : Bool := false
  /-- 64-bit counts and times of Table 7-14 -/
  closedCnt : Nat := 0
  doneCnt : Nat := 0
  faultTime : Time := 0#80
  stallTime : Time := 0#80
  deriving DecidableEq, Repr

/-- A received character as HOLD mode keeps it (R187). -/
structure RxChar where
  data : Byte
  mark : Bool
  cls : Nat
  ovr : Bool
  noise : Bool
  early : Bool
  /-- the match result: entry 0–7, or 8 (R225) -/
  entry : Nat
  ts : Time
  /-- its CRC-32C (R189, R276) -/
  check : Word
  deriving DecidableEq, Repr

/-- A character in a transmit holding register (R188, R285): its data, its mark bit, whether it is in last-of-cell form,
and the context whose source verdict it still waits for. -/
structure TxChar where
  data : Byte
  mark : Bool
  last : Bool
  wait : Option Nat
  /-- its CRC-32C (R189, R276) -/
  check : Word
  deriving DecidableEq, Repr

/-- What a transmitter is doing (R199, R217, R218). -/
inductive TxSt where
  | idle | lead | char | brk | lag
  deriving DecidableEq, Repr

/-- What a transmitter leaves idle to send (R217). -/
inductive TxItem where
  | brk | flow | data
  deriving DecidableEq, Repr

/-- One asynchronous port (chapter 6), its registers apart. -/
structure Port where
  /-- the receiver is armed; a character is being received; a start edge waits for the line to return to mark -/
  armed : Bool := false
  rxBusy : Bool := false
  rearm : Bool := false
  /-- frozen by a group clock switch (R107); gloved (R181) -/
  frozen : Bool := false
  gloved : Bool := false
  /-- a received break is on the line (R182) -/
  lineBrk : Bool := false
  rxHold : Option RxChar := none
  txHold : Option TxChar := none
  /-- the receive timeout runs (R196) -/
  timeout : Bool := false
  /-- sample 10 of the last stop bit began the next character, the line having been at space at sample 9 too: that character is
  EARLY (R175) -/
  early : Bool := false
  /-- RTS asserted (R210); the synchronised CTS level asserted (R208) -/
  rts : Bool := false
  cts : Bool := false
  /-- stopped by a received XOFF (R212); an XOFF or XON queued (true for XOFF); the last one queued or sent was XOFF;
  characters received since (R213, R214) -/
  xstop : Bool := false
  flowQ : Option Bool := none
  lastXoff : Bool := false
  sinceXoff : Nat := 0
  /-- XOFF sent and no XON since (Pnn_STAT.XSENT) -/
  xsent : Bool := false
  de : Bool := false
  tx : TxSt := .idle
  /-- what TXD carries of the character, break or mark-after-break in progress: levels (true for mark) with their bit times, in line
  order (R169, R171, R184) -/
  line : List (Bool × Nat) := []
  /-- what the driver-enable lead is for; the character in the shifter is a flow character -/
  item : TxItem := .data
  /-- woken from DORMANT and not armed since: lost characters also count in CLK_WAKESRC.LOST (R128) -/
  wakeArm : Bool := false
  /-- a break is requested (R184) -/
  brkReq : Bool := false
  /-- the cell being taken and the next byte's offset -/
  txOff : Nat := 0
  /-- the frame's circuit by the address table: entry 0–7, 8 none (Pnn_STAT.FRAME), its circuit, and whether the frame
  is being discarded (R221–R225) -/
  frame : Nat := 8
  frameCirc : Option Nat := none
  frameDrop : Bool := false
  /-- the next stored character starts a frame (R222); characters were lost since the last stored one (R179) -/
  frameStart : Bool := true
  ovr : Bool := false
  /-- the circuit whose last cell here closed full, its frame going on (Table 7-2, CONT) -/
  contOf : Option Nat := none
  /-- the transmitter: the cell being taken, the circuit last served within each class, the next cell's first byte -/
  txCell : Option Nat := none
  lastTx : List Nat := [63, 63, 63, 63]
  /-- the times of mailbox items 0x01 and 0x02 -/
  brkTime : Time := 0#80
  timeoutTime : Time := 0#80
  /-- counts of BRK, FE, PE and OVR since the storm bucket was last empty (R556) -/
  stormOf : List Nat := [0, 0, 0, 0]
  /-- has run without a storm since it last left gloving: the CLEAN time counts (R557) -/
  clean : Bool := false
  /-- when the glove period ends, and that it has ended early or late in a loopback repeat (R557, R559, R563) -/
  gloveEnd : Nat := 0
  looping : Bool := false
  deriving DecidableEq, Repr

/-- The read cursor of a context (R281, R585): empty; lost; or on a cell at an offset, with a source verdict open or not. What
it has accumulated is the CRC-32C of the cell's bytes before the offset. -/
inductive RCur where
  | empty
  | lost
  | held (cell off : Nat) (verdict : Bool)
  deriving DecidableEq, Repr

/-- Context states (Table 9-2). -/
inductive CtxSt where
  | idle | run | wait | halted | faulted
  deriving DecidableEq, Repr

/-- A pattern matcher (R350). -/
structure Matcher where
  val : Word := 0#32
  mask : Word := 0#32
  len : Nat := 0
  window : Word := 0#32
  fed : Nat := 0
  deriving DecidableEq, Repr

/-- The CRC engine of a context (R349). DESIGN CHOICE: a reset engine has width 8, polynomial 0 and no reflection (log
entry 13). -/
structure CrcEng where
  width : Nat := 8
  poly : Word := 0#32
  refin : Bool := false
  refout : Bool := false
  acc : Word := 0#32
  deriving DecidableEq, Repr

/-- One context (Table 9-1). The write cursor is the cell whose holder is this context's WCUR. -/
structure Ctx where
  g : FMap Word := []
  pc : BitVec 22 := 0#22
  x : Bool := false
  z : Bool := false
  n : Bool := false
  c : Bool := false
  v : Bool := false
  e : Bool := false
  stack : List (BitVec 23) := []
  st : CtxSt := .idle
  /-- the state a halt left, to which RESUME returns (R307) -/
  back : CtxSt := .run
  /-- the register an executing WAIT delivers its events to (R312) -/
  waitReg : Nat := 0
  rcur : RCur := .empty
  /-- cells closed while a source verdict is open (R281), in closing order -/
  heldCells : List Nat := []
  em : BitVec 16 := 0#16
  ep : BitVec 16 := 0#16
  tm0 : Tmr := {}
  tm1 : Tmr := {}
  crc : CrcEng := {}
  pm0 : Matcher := {}
  pm1 : Matcher := {}
  runCount : Nat := 0
  /-- the latched time (R348), the character latch with its CRC-32C (R276, R352) and the timestamps of PRX.TS by port (R351) -/
  timLatch : Time := 0#80
  chLatch : Option (Byte × Word) := none
  prxTs : FMap Nat := []
  /-- an allocation was refused and the ALLOC event waits for room (Table 9-3) -/
  allocWait : Bool := false
  /-- waits for the fill of this XIP line address (R320) -/
  fill : Option Nat := none
  /-- an LDP that has issued and waits for that fill: its destination and the address it reads (R341, R342) -/
  ldp : Option (Nat × Nat) := none
  /-- a HALT waits for the next instruction boundary (R308); so does a START, with its SIGNAL (R306, R588), or the stop of a CUT
  (R264, R342) -/
  haltReq : Bool := false
  startReq : Option Bool := none
  cutReq : Bool := false
  /-- a blocking PRX or PTX waits for the holding register of this port (R342, R351) -/
  portWait : Option Nat := none
  /-- general registers with an uncorrectable error (R290) -/
  gBad : List Nat := []
  stock : Stock := {}
  /-- instructions issued since reset (Table 9-15) -/
  issued : Nat := 0
  /-- the time of its last context-fault record (R317) -/
  faultRec : Option Time := none
  deriving DecidableEq, Repr

/-- A packet waiting to be sent or being sent. `cell` is the cell it stands in: a circuit's cell for DATA, a cell of
the system reserve otherwise. -/
structure OutPkt where
  pkt : Pkt
  cell : Nat
  /-- the trunk it is queued on (0 CAN A, 1 CAN B, 2–5 UT0–UT3) and its next hop there, or none while no route is valid
  (R584) -/
  trunk : Option Nat := none
  hop : Nat := 0xFFF
  /-- when it was handed over (R508, R584) -/
  since : Time := 0#80
  /-- frames of it already sent, lost arbitrations (R25), and whether it waits for its 10 ms retry (R483) -/
  sent : Nat := 0
  loss : Nat := 0
  retry : Bool := false
  /-- failed attempts of its present frame (R483); a frame of it stays pending in the channel although it has moved
  (R519) -/
  fails : Nat := 0
  deriving DecidableEq, Repr

/-- One entry of the credit table (R253): an origin endpoint and what is owed to it. -/
structure CreditEntry where
  dev : Nat
  circ : Nat
  owner : Nat
  owed : Nat
  seq : Nat
  deriving DecidableEq, Repr

/-- A journal record before it is written (Table 11-4). -/
structure JRec where
  typ : Nat
  group : Nat
  source : Nat
  time : Time
  tq : Nat
  payload : List Byte
  deriving DecidableEq, Repr

/-- Cell-memory accounting beside the cells themselves, and the scrubber (chapters 7 and 8). -/
structure Pool where
  /-- S is below the Tin floor and POOLLOW has been set for it (R581); S is negative and DEFICIT has been set (R245) -/
  lowSet : Bool := false
  deficit : Bool := false
  /-- the scrubber's next word; a full-speed pass runs; words of instruction RAM corrected once -/
  scrubPos : Nat := 0
  fullPass : Bool := false
  iramCorrected : List Nat := []
  /-- stock ROM words with an uncorrectable error (R290) -/
  romBad : List Nat := []
  /-- the circuit last served by the allocator within each class (R237) -/
  allocLast : List Nat := [63, 63, 63, 63]
  /-- instruction RAM words with an uncorrectable error -/
  iramBad : List Nat := []
  degraded : Bool := false
  /-- per circuit: the time of its last sleeve-fail record (R288) -/
  sleeveRec : FMap (Option Time) := []
  egressOk : Nat := 0
  sleeveTime : Time := 0#80
  uncorrTime : Time := 0#80
  deriving DecidableEq, Repr

/-- The supervisor (chapter 16), its registers apart. -/
structure Sup where
  /-- system contexts that have marked progress since the last restart, bit k for Sk, as the last warning saw them (R548);
  the watchdog is armed -/
  progress : Nat := 0
  wdRun : Bool := false
  /-- the VBAT-low crossing is armed again (R551) -/
  vbatArmed : Bool := true
  lamp : Bool := false
  /-- a temperature has been measured since reset: PEAK holds a reading (R552) -/
  tempSeen : Bool := false
  /-- a self-audit runs: 0 none, 1 post-strike, 2 run-time -/
  audit : Nat := 0
  /-- system context faults in the last 60 s: times (R318) -/
  sysFaults : List Time := []
  stormTime : Time := 0#80
  auditTime : Time := 0#80
  deriving DecidableEq, Repr

/-- The journal's engine state (chapter 11), its registers apart. -/
structure Jnl where
  /-- records in staging cells, oldest first, each with its cell (R387) -/
  staged : List (JRec × Nat) := []
  /-- records waiting for a staging cell (R250) -/
  waiting : List JRec := []
  /-- tokens of the event-record bucket (R388) -/
  tokens : Nat := 64
  deriving DecidableEq, Repr

/-- A stop with a fault. The specification gives every command an effect, so no meaning raises one. -/
inductive Fault where
  /-- raised by nothing: kept so that the outcome type has a fault to name; safe -/
  | none
  deriving DecidableEq, Repr

/-- A refusal. -/
inductive Refusal where
  /-- raised by `exec` for a command that has no meaning yet; safe: nothing can be proved of such a command -/
  | notModelled (mnemonic : String)
  deriving DecidableEq, Repr

/-- The machine. -/
structure State where
  /-- the queue of waiting commands, first in, first out -/
  pending : List Instr := []
  chip : Chip := {}
  /-- the counter that free values are drawn with (log entry 4) -/
  fresh : Nat := 0
  hold : Hold := {}
  ext : Ext := {}
  power : Power := {}
  boot : Boot := {}
  strap : Strap := {}
  /-- applied register words, and shadows -/
  regs : FMap Word := []
  shadow : FMap Word := []
  commit : Commit := {}
  cells : FMap Cell := []
  circs : FMap Circ := []
  ports : FMap Port := []
  ctxs : FMap Ctx := []
  /-- packets of this device waiting on trunks or for a route, in queueing order -/
  outQ : List OutPkt := []
  credits : List CreditEntry := []
  /-- Steel control packets waiting for a system cell, with their trunk where they have one (R250) -/
  ctlWait : List (Pkt × Option Nat) := []
  fab : Fab := {}
  canA : Can := {}
  canB : Can := {}
  tim : Tim := {}
  pool : Pool := {}
  sup : Sup := {}
  jnl : Jnl := {}
  mem : MemPort := {}
  jwrite : JWriter := {}
  host : HostIf := {}
  mbx : Mailbox := {}
  seq : Seq := {}
  deriving DecidableEq, Repr

/-- The machine with its supply up and reset asserted, before the power-on release: every register at its reset value, nothing
in memory, no command waiting (R33, R113). The power-on release, the release of reset and the start-up sequence are commands
(log entry 10). -/
def State.reset : State := {}

end Sys2Proof.Machine
end

