-- ==== Sys2Proof/Machine/Ops.lean ====
section
/-! DEFINITION. Sys2Proof/Machine/Ops.lean: the named operations on registers, events, counters, the journal, the fault
catalogue and the time count that every family's meanings share. -/
namespace Sys2Proof.Machine

/-- A meaning's answer. -/
abbrev Res := Host.Outcome State Fault Refusal

/-- The reset value of register word `a` (R33, R113). -/
def resetWord (a : Nat) : Word := resetOf (fieldsAt a)

/-- The applied copy of register word `a`. -/
def State.reg (s : State) (a : Nat) : Word := fget resetWord s.regs a

/-- Set the applied copy of register word `a`. -/
def State.setReg (s : State) (a : Nat) (w : Word) : State := { s with regs := fset resetWord s.regs a w }

/-- The shadow copy of register word `a`. -/
def State.shad (s : State) (a : Nat) : Word := fget resetWord s.shadow a

/-- Set the shadow copy of register word `a`. -/
def State.setShad (s : State) (a : Nat) (w : Word) : State := { s with shadow := fset resetWord s.shadow a w }

/-- A field of an applied register word. -/
def State.fld (s : State) (a lo wd : Nat) : Nat := getF (s.reg a) lo wd

/-- One bit of an applied register word. -/
def State.bit (s : State) (a i : Nat) : Bool := getF (s.reg a) i 1 == 1

/-- Set a field of an applied register word. -/
def State.setFld (s : State) (a lo wd v : Nat) : State := s.setReg a (setF (s.reg a) lo wd v)

/-- Set one bit of an applied register word: raise an event, report a status. -/
def State.setBit (s : State) (a i : Nat) (b : Bool := true) : State := s.setFld a i 1 (b2n b)

/-- Count once in a saturating counter field. -/
def State.count (s : State) (a lo wd : Nat) : State := s.setFld a lo wd (satInc wd (s.fld a lo wd))

/-- Add to a saturating counter field. -/
def State.countBy (s : State) (a lo wd n : Nat) : State :=
  s.setFld a lo wd (min (s.fld a lo wd + n) (2 ^ wd - 1))

/-- Count once in a wrapping 32-bit counter. -/
def State.countWrap (s : State) (a : Nat) : State := s.setReg a (s.reg a + 1#32)

/-- Register addresses of port `n`, circuit `c`, context `x`, channel `ch` and object `i` (R134, Table 9-14). -/
def pAddr (n w : Nat) : Nat := 0x800 + 64 * n + w
def cAddr (c w : Nat) : Nat := 0x1000 + 64 * c + w
def xAddr (x w : Nat) : Nat := 0x2800 + 16 * x + w
def chAddr (ch w : Nat) : Nat := 0x5000 + 0x800 * ch + w
def oAddr (ch i w : Nat) : Nat := 0x5400 + 0x800 * ch + 8 * i + w

/-- The ports that the grade has, as a mask (R1). -/
def presentMask (s : State) : Nat := 2 ^ s.chip.grade - 1

/-- Port `n` is present on this grade (R1). -/
def present (s : State) (n : Nat) : Bool := decide (n < s.chip.grade)

/-- The register interface can be reached: the host port answers (Table 4-6, step 4), it is not absent (R53), and the device does not
rest in DORMANT, where HSIO is ignored (R124). -/
def hostReach (s : State) : Bool := s.boot.hostUp && s.fld 0x105 9 2 != 2 && s.power.st != .dormant

/-- What an access through the register interface does: nothing where the interface cannot be reached. -/
def viaHost (s : State) (f : State → State) : State := if hostReach s then f s else s

/-- A quality's code (Table 15-1). -/
def qCode : Quality → Nat
  | .unset => 0 | .free => 1 | .holdover => 2 | .locked => 3

/-- The quality of a code. -/
def qOf : Nat → Quality
  | 0 => .unset | 1 => .free | 2 => .holdover | _ => .locked

/-- The time count (R521). -/
def State.now (s : State) : Time := s.hold.count

/-- CLK_RSTCAUSE (Table 4-16), known from the release of reset on. -/
def rstCause (s : State) : Word :=
  BitVec.ofNat 32 (s.power.cause + 256 * b2n s.boot.brownout + 512 * b2n s.power.batOk + 65536 * s.hold.resets)

/-- Whole seconds of a time value. -/
def secondsOf (t : Time) : Nat := t.toNat / 2 ^ 32

/-- The cell form of a timestamp: seconds 3:0 and fraction 31:12 (R527). -/
def cellForm (t : Time) : Nat := t.toNat / 2 ^ 12 % 2 ^ 24

/-- The record form of a timestamp: seconds 39:0 and fraction 31:8 as 8 bytes (R527). -/
def recordForm (t : Time) : List Byte := bytesBE 8 (t.toNat / 2 ^ 8)

/-- Whether `b` lies less than `n` seconds after `a`. -/
def withinSeconds (n : Nat) (a b : Time) : Bool := decide (b.toNat < a.toNat + n * 2 ^ 32)

/-! ## Cells and circuits as maps -/

/-- Cell `i`; an unlisted cell is free. -/
def State.cell (s : State) (i : Nat) : Cell := fget (fun _ => {}) s.cells i
/-- Set cell `i`. -/
def State.setCell (s : State) (i : Nat) (c : Cell) : State := { s with cells := fset (fun _ => {}) s.cells i c }
/-- Circuit `c`; an unlisted circuit is as after reset. -/
def State.circ (s : State) (c : Nat) : Circ := fget (fun _ => {}) s.circs c
/-- Set circuit `c`. -/
def State.setCirc (s : State) (c : Nat) (x : Circ) : State := { s with circs := fset (fun _ => {}) s.circs c x }

/-- Port `n`. -/
def State.port (s : State) (n : Nat) : Port := fget (fun _ => {}) s.ports n
/-- Set port `n`. -/
def State.setPort (s : State) (n : Nat) (p : Port) : State := { s with ports := fset (fun _ => {}) s.ports n p }
/-- Context `x`: 0–63 circuit contexts, 64 + k for Sk. -/
def State.ctx (s : State) (x : Nat) : Ctx := fget (fun _ => {}) s.ctxs x
/-- Set context `x`. -/
def State.setCtx (s : State) (x : Nat) (c : Ctx) : State := { s with ctxs := fset (fun _ => {}) s.ctxs x c }

/-- The number of cells that `p` holds of. -/
def countCells (s : State) (p : Cell → Bool) : Nat := (s.cells.filter (fun e => p e.2)).length

/-- Cells of the system reserve held for use `u` (Table 7-6). -/
def sysHeld (s : State) (u : SysUse) : Nat := countCells s (fun c => c.owner == .sys u)

/-- All cells of the system reserve held. -/
def sysUsed (s : State) : Nat :=
  countCells s (fun c => match c.owner with | .sys _ => true | _ => false)

/-- The first free, non-retired cell among 4096, starting from index `i`, looking at `n` more. -/
def firstFree (s : State) : Nat → Nat → Option Nat
  | 0, _ => none
  | n + 1, i =>
    let c := s.cell i
    if c.owner == .free && !c.retired then some i else firstFree s n (i + 1)

/-- A free cell: the one the free value names where it is free, else the first free one (R586). -/
def pickFree (s : State) : Option Nat :=
  let i := Config.cellChoice s.fresh % 4096
  let c := s.cell i
  if c.owner == .free && !c.retired then some i else firstFree s 4096 0

/-! ## The journal -/

/-- The limits of the system reserve (Table 7-6): whether one more cell of use `u` is granted. -/
def sysRoom (s : State) (u : SysUse) : Bool :=
  decide (sysUsed s < 96) &&
  match u with
  | .ctl => true
  | .relay => decide (sysHeld s .relay < 48) && decide (sysUsed s - sysHeld s .ctl < 72)
  | .jnl => decide (sysHeld s .jnl < 16) && decide (sysUsed s - sysHeld s .ctl < 72)
  | .other => decide (sysHeld s .other < 8) && decide (sysUsed s - sysHeld s .ctl < 72)

/-- Allocate a cell of the system reserve for use `u`: the cell taken, or none where a limit of Table 7-6 refuses it,
which is counted in CEL_CNT.SYSREF with CEL_EVT.SYSLIMIT (R249). -/
def allocSys (s : State) (u : SysUse) : Option Nat × State :=
  match sysRoom s u, pickFree s with
  | true, some i =>
    (some i, { (s.setCell i { owner := .sys u, st := .openS, ts := cellForm s.now, corrected := (s.cell i).corrected }) with fresh := s.fresh + 1 })
  | _, _ => (none, (s.count 0x2008 0 16).setBit 0x2006 3)

/-- Journal memory is in use (JNL_STAT.MEM) or not yet looked for. -/
def journalOpen (s : State) : Bool := !s.boot.scanned || (s.fld 0x3100 0 2 != 0 && !s.bit 0x3100 6)

/-- Lose a record: count it in JNL_CNT.LOST and set JNL_EVT.LOST (R387). -/
def loseRecord (s : State) : State := (s.count 0x3107 16 16).setBit 0x3109 0

/-- Put a record into a staging cell (R387); it is lost when all 16 are taken or there is no memory (R380), and waits
when the system reserve refuses the cell for another reason (R250). -/
def stageRecord (s : State) (r : JRec) : State :=
  if !journalOpen s || decide (16 ≤ sysHeld s .jnl) then loseRecord s
  else match allocSys s .jnl with
    | (some i, s') => { s' with jnl := { s'.jnl with staged := s'.jnl.staged ++ [(r, i)] } }
    | (none, s') => { s' with jnl := { s'.jnl with waiting := s'.jnl.waiting ++ [r] } }

/-- SOURCE codes of R570: kind and index. -/
def srcOf (kind idx : Nat) : Nat := kind * 4096 + idx % 4096

/-- Journal a structural record (TYPE below 0x10), which no bucket holds back (R388). -/
def journalStruct (s : State) (typ source : Nat) (payload : List Byte) : State :=
  stageRecord s { typ := typ, group := 0, source := source, time := s.now, tq := qCode s.hold.quality, payload := payload }

/-- Journal an event record (TYPE 0x10 and above): it passes the bucket of R388, and is lost where no token is left.
JNL_LIMIT.PERHOUR 0 turns the bucket off. -/
def journal (s : State) (typ source : Nat) (payload : List Byte) : State :=
  let r : JRec := { typ := typ, group := 0, source := source, time := s.now, tq := qCode s.hold.quality, payload := payload }
  if s.fld 0x3106 0 16 == 0 then stageRecord s r
  else match s.jnl.tokens with
    | 0 => loseRecord s
    | n + 1 => stageRecord { s with jnl := { s.jnl with tokens := n } } r

/-! ## Faults of Table 16-4 -/

/-- The lowest-numbered active code of SUP_STAT.FAULTS, 0 while none is active (R566). -/
def lowestFault (s : State) : Nat := (((List.range 9).find? (fun k => s.bit 0x300 k)).map (· + 1)).getD 0

/-- Show the lowest active code from now on (R566). -/
def showFault (s : State) : State := s.setFld 0x300 12 4 (lowestFault s)

/-- A fault becomes active: its bit of SUP_STAT.FAULTS and SUP_FLATCH is set, and SUP_EVT.FAULT (R568). A fault already
active changes nothing. Where no code is shown, its code is shown at once; else the cycle that runs ends first (R566). -/
def raiseFault (s : State) (code : Nat) : State :=
  if s.bit 0x300 (code - 1) then s
  else
    let s := ((s.setBit 0x300 (code - 1)).setBit 0x301 (code - 1)).setBit 0x302 8
    if s.fld 0x300 12 4 = 0 then showFault s else s

/-- A fault is no longer active. FAULT_N is released while none is (R566). -/
def clearFault (s : State) (code : Nat) : State :=
  let s := s.setBit 0x300 (code - 1) false
  if s.fld 0x300 0 9 = 0 then s.setFld 0x300 12 4 0 else s

/-- Make fault `code` active or not. -/
def putFault (s : State) (code : Nat) (on : Bool) : State := if on then raiseFault s code else clearFault s code

/-- Time quality changes: TIM_EVT.QCHG and a time-quality record with the old and new quality and the source (R537). -/
def setQuality (s : State) (q : Quality) : State :=
  if s.hold.quality = q then s
  else
    let old := s.hold.quality
    let s := { s with hold := { s.hold with quality := q } }
    let s := if qCode q < s.fld 0x4802 16 2 then { s with tim := { s.tim with tpo := false, tpoOn := false } } else s
    journal (s.setBit 0x480D 1) 0x91 0
      [BitVec.ofNat 8 (qCode old), BitVec.ofNat 8 (qCode q), BitVec.ofNat 8 (min s.tim.sel 4)]

/-! ## Running a list of updates -/

/-- Apply `f` for every number below `n`, in rising order. -/
def forEach (n : Nat) (f : State → Nat → State) (s : State) : State := (List.range n).foldl f s

/-- Apply `f` for every element of a list, in order. -/
def forList {α : Type} (l : List α) (f : State → α → State) (s : State) : State := l.foldl f s

end Sys2Proof.Machine
end

