-- ==== Sys2Proof/Machine/Regs.lean ====
section
/-! DEFINITION. Sys2Proof/Machine/Regs.lean: how a write lands in the shadow or the applied copy, clamped (R15, R18,
R156), and how commits are staged, queued and merged (R141–R152). -/
namespace Sys2Proof.Machine

/-- Word `a` belongs to the block of a port that the grade lacks (R6). -/
def absentPort (s : State) (a : Nat) : Bool :=
  decide (0x800 ≤ a) && decide (a < 0xC00) && !present s ((a - 0x800) / 64)

/-- The value a field takes when `v` is written to it (R18, R578), with the mask of present ports. -/
def clampVal (pm : Nat) (c : Clamp) (v : Nat) : Nat :=
  match c with
  | .any => v
  | .range lo hi below above => if v < lo then below else if hi < v then above else v
  | .ports => Nat.land v pm

/-- Write the fields of access code `acc` of a word from `w`, each clamped; whether any was clamped. -/
def writeAcc (pm : Nat) (acc : Acc) (w : Word) : List Field → Word → Word × Bool
  | [], old => (old, false)
  | f :: t, old =>
    if f.acc == acc then
      let v := getF w f.lo f.wd
      let v' := clampVal pm f.clamp v
      let r := writeAcc pm acc w t (setF old f.lo f.wd v')
      (r.1, r.2 || v != v')
    else writeAcc pm acc w t old

/-- Record a clamped write: GLB_LASTCLAMP and GLB_EVT.CLAMP (R156). -/
def noteClamp (s : State) (a : Nat) : State :=
  ((s.setFld 0x12 0 16 a).count 0x12 16 16).setBit 0x0B 0

/-- The mask of the RB fields of word `a` of which at least one bit is in `mask` (R580). -/
def writtenMask (a : Nat) (mask : Word) : Word :=
  maskOf (fun f => f.acc == .rb && (maskAt f.lo f.wd &&& mask) != 0#32) (fieldsAt a)

/-- Mark the RB fields of word `a` that a host write covers as host-written, until step 8 (R119, R580). -/
def markHost (s : State) (a : Nat) (mask : Word) : State :=
  if s.boot.mantled then s
  else { s with commit := { s.commit with
    marks := fset (fun _ => 0#32) s.commit.marks a (fget (fun _ => 0#32) s.commit.marks a ||| writtenMask a mask) } }

/-- A write of word `a` (R156): RB fields into the shadow, RW fields into the applied copy, each clamped; everything else
of the word ignores it (R15, R17). `mask` says which bits the write covers, for the host-written marks. An absent port's
word ignores writes (R6). -/
def writeRW (s : State) (a : Nat) (w mask : Word) : State :=
  if absentPort s a then s
  else
    let fs := fieldsAt a
    let sh := writeAcc (presentMask s) .rb w fs (s.shad a)
    let ap := writeAcc (presentMask s) .rw w fs (s.reg a)
    let s := markHost ((s.setShad a sh.1).setReg a ap.1) a mask
    if sh.2 || ap.2 then noteClamp s a else s

/-! ## Instances (R142, Tables 5-1, 5-3, 5-9) -/

/-- The words of an instance that hold RB fields. -/
def instAddrs : Inst → List Nat
  | .glb => [0x0A]
  | .str => [0x110]
  | .sup => [0x304, 0x307, 0x308, 0x309]
  | .clk => [0x201, 0x202, 0x203]
  | .port n => (List.range 0x11).map (pAddr n)
  | .cel => [0x2002, 0x2010, 0x2019]
  | .circ c => [cAddr c 0, cAddr c 1, cAddr c 2, cAddr c 3]
  | .ctx x => [xAddr x 0]
  | .seq => [0x2402]
  | .mem => [0x3000, 0x3031, 0x3106]
  | .cana => (List.range 6).map (chAddr 0) ++ ((List.range 128).map (fun i => [oAddr 0 i 0, oAddr 0 i 1, oAddr 0 i 2])).flatten
  | .canb => (List.range 6).map (chAddr 1) ++ ((List.range 128).map (fun i => [oAddr 1 i 0, oAddr 1 i 1, oAddr 1 i 2])).flatten
  | .fab => [0x4001, 0x4002, 0x4003, 0x4004, 0x4005, 0x4008, 0x4009, 0x400A, 0x400B]
  | .tim => [0x4801, 0x4802, 0x4803, 0x4804, 0x4805, 0x4806, 0x4807, 0x4808]
  | .hst => [0x401]

/-- The application order of Table 5-3. -/
def instPos : Inst → Nat
  | .glb => 1 | .str => 2 | .sup => 3 | .clk => 4 | .port _ => 5 | .cel => 6 | .circ _ => 7 | .ctx _ => 7 | .seq => 8
  | .mem => 9 | .cana => 10 | .canb => 11 | .fab => 12 | .tim => 13 | .hst => 14

/-- The commit group of Table 5-1. -/
def instGroup : Inst → Nat
  | .glb => 0 | .str => 0 | .sup => 0 | .hst => 0 | .clk => 1 | .tim => 1 | .port _ => 2 | .circ _ => 3 | .cel => 3
  | .ctx _ => 4 | .seq => 4 | .mem => 5 | .fab => 6 | .cana => 7 | .canb => 7

/-- The block bit of Table 5-9. -/
def instBlock : Inst → Nat
  | .glb => 0 | .str => 1 | .clk => 2 | .sup => 3 | .hst => 4 | .port _ => 5 | .cel => 6 | .circ _ => 7 | .ctx _ => 8
  | .seq => 8 | .mem => 9 | .fab => 10 | .tim => 11 | .cana => 12 | .canb => 13

/-- The instances of a commit group on this grade, in application order; an absent port is none (R6). -/
def groupInsts (s : State) : Nat → List Inst
  | 0 => [.glb, .str, .sup, .hst]
  | 1 => [.clk, .tim]
  | 2 => ((List.range 16).filter (present s)).map .port
  | 3 => .cel :: (List.range 64).map .circ
  | 4 => (List.range 64).map .ctx ++ [.seq]
  | 5 => [.mem]
  | 6 => [.fab]
  | _ => [.cana, .canb]

/-- The instances that a GLB_COMMIT value strobes (R141). -/
def strobedInsts (s : State) (groups : Nat) : List Inst :=
  ((List.range 8).filter (fun k => groups.testBit k)).flatMap (groupInsts s)

/-! ## Staging (R142, R144) -/

/-- The words an instance would stage: every word of its shadow, with the mask of its RB bits. -/
def stageWords (s : State) (i : Inst) : List (Nat × Word × Word) :=
  (instAddrs i).map (fun a => (a, accMask .rb a, s.shad a))

/-- Some RB field of the instance differs between shadow and applied copy (R142). -/
def instDiffers (s : State) (i : Inst) : Bool :=
  (instAddrs i).any (fun a => (s.shad a &&& accMask .rb a) != (s.reg a &&& accMask .rb a))

/-- An instance holds a staged commit, a queued strobe. -/
def isStaged (s : State) (i : Inst) : Bool := s.commit.staged.any (fun e => e.inst == i)
def isQueued (s : State) (i : Inst) : Bool := s.commit.queued.any (fun e => e.inst == i)

/-- Strobe one instance for writes `ws` (R142, R144): merge into a queued strobe, counted in MERGED with GLB_EVT.MERGE;
queue behind a staged commit; complete at once where nothing differs; else stage. -/
def strobeInst (ws : List Nat) (s : State) (i : Inst) : State :=
  if isQueued s i then
    let q := s.commit.queued.map (fun e => if e.inst == i then { e with writes := e.writes ++ ws } else e)
    ({ s with commit := { s.commit with queued := q } }.count 0x09 0 16).setBit 0x0B 5
  else if isStaged s i then
    { s with commit := { s.commit with queued := s.commit.queued ++ [{ inst := i, writes := ws }] } }
  else if instDiffers s i then
    { s with commit := { s.commit with staged := s.commit.staged ++ [{ inst := i, writes := ws, words := stageWords s i }] } }
  else s

/-- An instance staged or queued by write `w` remains. -/
def writePending (s : State) (w : Nat) : Bool :=
  s.commit.staged.any (fun e => e.writes.contains w) || s.commit.queued.any (fun e => e.writes.contains w)

/-- When every instance of a write has applied: GLB_EVT.DONE and the time of item 0x0002 (R149). -/
def doneCheck (s : State) (w : Nat) : State :=
  if writePending s w then s
  else { s.setBit 0x0B 3 with commit := { s.commit with doneTime := s.now } }

/-- It is the turn of a staged entry: no instance of an earlier position staged or queued by one of its writes remains
(R146). -/
def inTurn (s : State) (e : Staged) : Bool :=
  !(s.commit.staged.any (fun o => decide (instPos o.inst < instPos e.inst) && o.writes.any e.writes.contains)) &&
  !(s.commit.queued.any (fun o => decide (instPos o.inst < instPos e.inst) && o.writes.any e.writes.contains))

/-- The first staged entry of an instance. -/
def stagedOf (s : State) (i : Inst) : Option Staged := s.commit.staged.find? (fun e => e.inst == i)

/-- Remove the first staged entry of an instance. -/
def dropStaged (i : Inst) : List Staged → List Staged
  | [] => []
  | e :: t => if e.inst == i then t else e :: dropStaged i t

/-- What a GLB_COMMIT write with bits `groups` records during start-up (R119): per strobed instance, the host-written
fields of its shadow with their values. -/
def holdCommit (s : State) (groups : Nat) : State :=
  let part (i : Inst) : Inst × List (Nat × Word × Word) :=
    (i, ((instAddrs i).map (fun a => (a, fget (fun _ => 0#32) s.commit.marks a, s.shad a))).filter (fun t => t.2.1 != 0#32))
  { s with commit := { s.commit with held := s.commit.held ++ [{ groups := groups, parts := (strobedInsts s groups).map part }] } }

/-- The groups of the held commits, as a mask. -/
def heldGroups (s : State) : Nat := s.commit.held.foldl (fun m h => Nat.lor m h.groups) 0

/-- Write staged words into the applied copies. -/
def putWords (s : State) (l : List (Nat × Word × Word)) : State :=
  forList l (fun s t => s.setReg t.1 ((s.reg t.1 &&& ~~~t.2.1) ||| (t.2.2 &&& t.2.1))) s

end Sys2Proof.Machine
end

