-- ==== Sys2Proof/Machine/Crc.lean ====
section
/-! DEFINITION. Sys2Proof/Machine/Crc.lean: the checks of the specification, byte by byte. -/
namespace Sys2Proof.Machine

/-- One bit step of a reflected CRC register. -/
def crcStepR (poly : Word) (c : Word) : Word :=
  if c.getLsbD 0 then (c >>> 1) ^^^ poly else c >>> 1

/-- Eight steps. -/
def crcByteR (poly : Word) (c : Word) (b : Byte) : Word :=
  let c := c ^^^ (b.setWidth 32)
  crcStepR poly (crcStepR poly (crcStepR poly (crcStepR poly
    (crcStepR poly (crcStepR poly (crcStepR poly (crcStepR poly c)))))))

/-- The CRC-32C of Table 8-1 (R273): reflected polynomial 0x82F63B78, initial and final XOR 0xFFFFFFFF. -/
def crc32c (bs : List Byte) : Word := (bs.foldl (crcByteR 0x82F63B78#32) 0xFFFFFFFF#32) ^^^ 0xFFFFFFFF#32

/-- One bit step of a left-shifting CRC of `w` bits, kept in the low bits of a word. -/
def crcStepL (w : Nat) (poly : Word) (c : Word) : Word :=
  let d := (c <<< 1) &&& maskAt 0 w
  if c.getLsbD (w - 1) then d ^^^ poly else d

/-- One byte of a left-shifting CRC of `w` ≥ 8 bits. -/
def crcByteL (w : Nat) (poly : Word) (c : Word) (b : Byte) : Word :=
  let c := c ^^^ ((b.setWidth 32) <<< (w - 8))
  crcStepL w poly (crcStepL w poly (crcStepL w poly (crcStepL w poly
    (crcStepL w poly (crcStepL w poly (crcStepL w poly (crcStepL w poly c)))))))

/-- A left-shifting CRC over bytes. -/
def crcL (w : Nat) (poly init : Word) (bs : List Byte) : Word := bs.foldl (crcByteL w poly) init

/-- A reflected CRC over bytes. -/
def crcR (poly init : Word) (bs : List Byte) : Word := bs.foldl (crcByteR poly) init

end Sys2Proof.Machine
end

