-- ==== Sys2Proof/Machine/Aes.lean ====
section
/-! DEFINITION. Sys2Proof/Machine/Aes.lean: the AES-128-CMAC that trunk frames carry (R491). The block cipher is the AES
of FIPS 197, which NIST SP 800-38B names; a block is a list of 16 bytes, column by column. -/
namespace Sys2Proof.Machine

/-- Doubling in GF(2⁸) with the AES polynomial. -/
def gfDouble (b : Byte) : Byte := if b.getLsbD 7 then (b <<< 1) ^^^ 0x1B#8 else b <<< 1

/-- Multiplication in GF(2⁸), over the bits of the second factor counted down. -/
def gfMulBits (a b : Byte) : Nat → Byte
  | 0 => 0#8
  | n + 1 => gfDouble (gfMulBits a b n) ^^^ (if b.getLsbD (7 - n) then a else 0#8)

/-- Multiplication in GF(2⁸). -/
def gfMul (a b : Byte) : Byte := gfMulBits a b 8

/-- The inverse in GF(2⁸), 0 for 0: the 254th power. -/
def gfInv (a : Byte) : Byte :=
  let a2 := gfMul a a
  let a4 := gfMul a2 a2
  let a8 := gfMul a4 a4
  let a16 := gfMul a8 a8
  let a32 := gfMul a16 a16
  let a64 := gfMul a32 a32
  let a128 := gfMul a64 a64
  gfMul a2 (gfMul a4 (gfMul a8 (gfMul a16 (gfMul a32 (gfMul a64 a128)))))

/-- The AES substitution: inverse, then the affine map. -/
def aesSub (b : Byte) : Byte :=
  let i := gfInv b
  i ^^^ i.rotateLeft 1 ^^^ i.rotateLeft 2 ^^^ i.rotateLeft 3 ^^^ i.rotateLeft 4 ^^^ 0x63#8

/-- Byte `k` of a list, 0 beyond its end. -/
def byteAt (l : List Byte) (k : Nat) : Byte := (l[k]?).getD 0#8

/-- Bytewise exclusive or. -/
def xorBytes (a b : List Byte) : List Byte := List.zipWith (· ^^^ ·) a b

/-- Row shift: row r moves left by r columns. -/
def aesShift (s : List Byte) : List Byte :=
  (List.range 16).map (fun k => byteAt s ((k + 4 * (k % 4)) % 16))

/-- Column mix. -/
def aesMix (s : List Byte) : List Byte :=
  (List.range 16).map (fun k =>
    let c := 4 * (k / 4)
    let r := k % 4
    gfDouble (byteAt s (c + r)) ^^^ (gfDouble (byteAt s (c + (r + 1) % 4)) ^^^ byteAt s (c + (r + 1) % 4)) ^^^
      byteAt s (c + (r + 2) % 4) ^^^ byteAt s (c + (r + 3) % 4))

/-- The next round key of AES-128. -/
def aesNextKey (rc : Byte) (k : List Byte) : List Byte :=
  let t := [aesSub (byteAt k 13) ^^^ rc, aesSub (byteAt k 14), aesSub (byteAt k 15), aesSub (byteAt k 12)]
  let a := xorBytes (k.take 4) t
  let b := xorBytes ((k.drop 4).take 4) a
  let c := xorBytes ((k.drop 8).take 4) b
  a ++ b ++ c ++ xorBytes (k.drop 12) c

/-- The rounds: nine full rounds and a last one without the column mix. -/
def aesRounds : Nat → Byte → List Byte → List Byte → List Byte
  | 0, _, _, s => s
  | n + 1, rc, k, s =>
    let k' := aesNextKey rc k
    let t := aesShift (s.map aesSub)
    aesRounds n (gfDouble rc) k' (xorBytes (if n = 0 then t else aesMix t) k')

/-- AES-128 of one block. -/
def aes128 (key block : List Byte) : List Byte := aesRounds 10 1#8 key (xorBytes block key)

/-- Doubling of a 16-byte block as a 128-bit number, with the constant 0x87 of SP 800-38B. -/
def cmacDouble (l : List Byte) : List Byte :=
  let v := natBE l
  bytesBE 16 (if v < 2 ^ 127 then 2 * v else Nat.xor (2 * v % 2 ^ 128) 0x87)

/-- The CMAC chain over a message, in blocks; `fuel` bounds the number of blocks. -/
def cmacChain (key k1 k2 : List Byte) : Nat → List Byte → List Byte → List Byte
  | 0, x, _ => x
  | n + 1, x, m =>
    if m.length ≤ 16 then
      let last := if m.length = 16 then xorBytes m k1
        else xorBytes (m ++ 0x80#8 :: List.replicate (15 - m.length) 0#8) k2
      aes128 key (xorBytes x last)
    else cmacChain key k1 k2 n (aes128 key (xorBytes x (m.take 16))) (m.drop 16)

/-- AES-128-CMAC (NIST SP 800-38B). -/
def cmac (key : BitVec 128) (m : List Byte) : List Byte :=
  let kb := bytesBE 16 key.toNat
  let k1 := cmacDouble (aes128 kb (List.replicate 16 0#8))
  cmacChain kb k1 (cmacDouble k1) (m.length / 16 + 1) (List.replicate 16 0#8) m

end Sys2Proof.Machine
end

