-- ==== Sys2Proof/Machine/Cells.lean ====
section
/-! DEFINITION. Sys2Proof/Machine/Cells.lean: cells and circuits as every family uses them: counting, allocation, free,
close, retirement, credits owed, context and circuit faults, CUT, epochs, sleeve failures, and the context start. -/
namespace Sys2Proof.Machine

/-! ## Fields of a circuit's registers (Tables 7-9, 7-10) -/

def cEn (s : State) (c : Nat) : Bool := s.bit (cAddr c 0) 0
def cDismodeCut (s : State) (c : Nat) : Bool := s.bit (cAddr c 0) 1
def cClass (s : State) (c : Nat) : Nat := s.fld (cAddr c 0) 4 2
def cStall (s : State) (c : Nat) : Option Nat := durSeconds (s.fld (cAddr c 0) 8 4)
def cStallAct (s : State) (c : Nat) : Nat := s.fld (cAddr c 0) 12 2
def cFrestart (s : State) (c : Nat) : Option Nat := durSeconds (s.fld (cAddr c 0) 16 4)
def cKind (s : State) (c : Nat) : Nat := s.fld (cAddr c 1) 0 2
def cPort (s : State) (c : Nat) : Nat := s.fld (cAddr c 1) 4 4
def cRcirc (s : State) (c : Nat) : Nat := s.fld (cAddr c 1) 8 6
def cRdev (s : State) (c : Nat) : Nat := s.fld (cAddr c 1) 16 12
def cReserve (s : State) (c : Nat) : Nat := s.fld (cAddr c 2) 0 8
def cCeiling (s : State) (c : Nat) : Nat := s.fld (cAddr c 2) 16 12
def cInit (s : State) (c : Nat) : Nat := s.fld (cAddr c 3) 0 8
/-- The own fabric address (FAB_STAT.OWN, R475); 0 while none is owned. -/
def ownAddr (s : State) : Nat := s.fld 0x4000 0 12
/-- The circuit is bound to the device's own address (R251, R507). -/
def boundLocal (s : State) (c : Nat) : Bool := cKind s c == 2 && cRdev s c == ownAddr s && ownAddr s != 0
/-- SEQ_Cnn_ENTRY.TAP (R309). -/
def cTap (s : State) (c : Nat) : Bool := s.bit (xAddr c 0) 24

/-! ## Channels and their message objects -/

/-- Channel `ch`. -/
def State.can (s : State) (ch : Nat) : Can := if ch = 0 then s.canA else s.canB
/-- Set channel `ch`. -/
def State.setCan (s : State) (ch : Nat) (x : Can) : State := if ch = 0 then { s with canA := x } else { s with canB := x }
/-- Change channel `ch`. -/
def modCan (s : State) (ch : Nat) (f : Can → Can) : State := s.setCan ch (f (s.can ch))
/-- Object `i` of channel `ch`. -/
def State.obj (s : State) (ch i : Nat) : CanObj := fget (fun _ => {}) (s.can ch).objs i
/-- Set object `i` of channel `ch`. -/
def State.setObj (s : State) (ch i : Nat) (o : CanObj) : State :=
  modCan s ch (fun x => { x with objs := fset (fun _ => {}) x.objs i o })
/-- The object whose frame is on the bus. -/
def onBusObj (s : State) (ch : Nat) : Option Nat :=
  match (s.can ch).onBus with | some (.obj i, _) => some i | _ => none

/-! ## Counting (R242–R247) -/

/-- Hc: the cells whose owner is circuit `c`, in any state. -/
def heldBy (s : State) (c : Nat) : Nat := countCells s (fun x => x.owner == .circ c)

/-- Retired cells. -/
def retiredCount (s : State) : Nat := countCells s (fun x => x.retired)

/-- F: the free cells of the circuit pool. -/
def poolFree (s : State) : Int :=
  4000 - (retiredCount s : Int) - (countCells s (fun x => match x.owner with | .circ _ => true | _ => false) : Int)

/-- U: the unfilled reserves of all 64 circuits. -/
def unfilled (s : State) : Nat := ((List.range 64).map (fun c => cReserve s c - heldBy s c)).foldl (· + ·) 0

/-- S: the shared free count. -/
def sharedFree (s : State) : Int := poolFree s - (unfilled s : Int)

/-- The floor of a class (Table 7-5). -/
def classFloor (s : State) (cls : Nat) : Nat :=
  match cls with
  | 0 => 0 | 1 => 0 | 2 => s.fld 0x2002 0 12 | _ => s.fld 0x2002 16 12

/-- Outcomes of an allocation decision (Table 7-5). -/
inductive AllocOut where
  | state | ceiling | granted | pool
  deriving DecidableEq, Repr

/-- The allocation decision of Table 7-5 for circuit `c`; `ingress` is false for a context's own allocation. -/
def allocDecide (s : State) (c : Nat) (ingress : Bool) : AllocOut :=
  let st := (s.circ c).st
  if st == .disabled || st == .fault || (st == .drain && ingress) then .state
  else if cCeiling s c ≤ heldBy s c then .ceiling
  else if heldBy s c < cReserve s c ∧ 1 ≤ poolFree s then .granted
  else if 1 + (classFloor s (cClass s c) : Int) ≤ sharedFree s then .granted
  else .pool

/-- Follow S across the Tin floor and below zero: POOLLOW once each fall (R581), DEFICIT once each time S goes negative
(R245). -/
def watchPool (s : State) : State :=
  let sf := sharedFree s
  let low := decide (sf < (s.fld 0x2002 16 12 : Int))
  let neg := decide (sf < 0)
  let s := if low && !s.pool.lowSet then s.setBit 0x2006 2 else s
  let s := if neg && !s.pool.deficit then s.setBit 0x2006 1 else s
  { s with pool := { s.pool with lowSet := low, deficit := neg } }

/-! ## Context events and states -/

/-- Set an event bit in a context's EP (R311). -/
def ctxEvent (s : State) (x bit : Nat) : State :=
  let k := s.ctx x
  s.setCtx x { k with ep := k.ep ||| BitVec.ofNat 16 (2 ^ bit) }

/-- A circuit's cells that wait for the stall timer (R261): in the endpoint queue, the inbox or the read cursor, or
being taken by a port, CAN or host egress; one that its egress is to let go of (R262, R264) waits no more (DESIGN CHOICE, log
entry 62). -/
def waitsForEndpoint (s : State) (c : Nat) : Bool :=
  let k := s.circ c
  !k.queue.isEmpty || !k.inbox.isEmpty ||
  (match (s.ctx c).rcur with | .held _ _ _ => true | _ => false) ||
  decide (0 < countCells s (fun x => x.owner == .circ c && x.st == .taken && x.holder != .fabric && !x.abandon))

/-- Start the stall timer when a cell waits and it is not running; stop it when none waits or it is off (R261). -/
def stallWatch (s : State) (c : Nat) : State :=
  let on := waitsForEndpoint s c && (cStall s c).isSome && (s.circ c).st != .disabled
  s.setCirc c { s.circ c with stallRun := on }

/-! ## RTS, XOFF and XON (R209, R210, R213) -/

/-- Slot k − 2 of a UART trunk: its register. -/
def utAddr (k : Nat) : Nat := 0x4006 + k
/-- The port of UART trunk `k`. -/
def utPort (s : State) (k : Nat) : Nat := s.fld (utAddr k) 4 4
/-- The UART trunk that port `n` carries, if any (R207, R486). -/
def portTrunk (s : State) (n : Nat) : Option Nat :=
  [2, 3, 4, 5].find? (fun k => s.bit (utAddr k) 0 && utPort s k == n)

/-- Circuit `c` is fed from port `n`'s receiver: its feed circuit, or named by an enabled match entry (R209). A port that carries a
UART trunk feeds none (R207). -/
def isFed (s : State) (n c : Nat) : Bool :=
  (portTrunk s n).isNone &&
  ((s.bit (pAddr n 3) 15 && s.fld (pAddr n 3) 8 6 == c) ||
   (List.range 8).any (fun e => s.bit (pAddr n (9 + e)) 31 && s.fld (pAddr n (9 + e)) 16 6 == c))

/-- The queue level L of port `n`: the most cells held by any enabled circuit fed from it (R209, R242). -/
def queueLevel (s : State) (n : Nat) : Nat :=
  (List.range 64).foldl (fun m c => if cEn s c && isFed s n c then max m (heldBy s c) else m) 0

/-- Hardware flow control with CTL in the RTS role: RTS follows the thresholds (R210, R211). -/
def drivesRts (s : State) (n : Nat) : Bool := s.fld (pAddr n 4) 0 2 == 1 && s.fld (pAddr n 0) 2 2 == 1

/-- Evaluate both conditions of R210: RTS is deasserted where L is OFF or more, asserted where it is ON or less, and keeps its state
between. -/
def rtsWatch (s : State) (n : Nat) : State :=
  if !drivesRts s n then s
  else if s.fld (pAddr n 4) 4 12 ≤ queueLevel s n then s.setPort n { s.port n with rts := false }
  else if queueLevel s n ≤ s.fld (pAddr n 4) 16 12 then s.setPort n { s.port n with rts := true } else s

/-- An allocation has made L reach OFF (R210, R213): RTS is deasserted; in SW mode XOFF is queued where the last flow character queued
or sent was not XOFF, and an XON that still waits after a sent XOFF is withdrawn. -/
def flowOff (s : State) (n : Nat) : State :=
  let p := s.port n
  if queueLevel s n < s.fld (pAddr n 4) 4 12 then s
  else if drivesRts s n then s.setPort n { p with rts := false }
  else if s.fld (pAddr n 4) 0 2 != 2 then s
  else if p.flowQ == some false && p.xsent then s.setPort n { p with flowQ := none, lastXoff := true }
  else if p.lastXoff then s
  else s.setPort n { p with flowQ := some true, lastXoff := true }

/-- A free has made L fall (R210, R213, R214): at ON or less RTS is asserted; in SW mode an XOFF that still waits where none is in force
is withdrawn, else XON is queued after an XOFF. Below OFF the count of R214 begins anew. -/
def flowOn (s : State) (n : Nat) : State :=
  let s := if queueLevel s n < s.fld (pAddr n 4) 4 12 then s.setPort n { s.port n with sinceXoff := 0 } else s
  let p := s.port n
  if s.fld (pAddr n 4) 16 12 < queueLevel s n then s
  else if drivesRts s n then s.setPort n { p with rts := true }
  else if s.fld (pAddr n 4) 0 2 != 2 || !p.lastXoff then s
  else if p.flowQ == some true && !p.xsent then s.setPort n { p with flowQ := none, lastXoff := false }
  else s.setPort n { p with flowQ := some false, lastXoff := false }

/-- Evaluate the flow thresholds of every port that feeds circuit `c`. -/
def flowWatch (s : State) (c : Nat) (alloc : Bool) : State :=
  forEach 16 (fun s n => if present s n && isFed s n c then (if alloc then flowOff s n else flowOn s n) else s) s

/-! ## Allocation (R235–R243) -/

/-- Allocate a cell of circuit `c` for a requester: the cell, or none with the refusal counted (Table 7-5, R236).
A port receiver's first cell after a loss is marked AFTERLOSS (R192). -/
def allocCirc (s : State) (c : Nat) (ingress : Bool) (origin : Nat) (h : Holder) : Option Nat × State :=
  match allocDecide s c ingress, pickFree s with
  | .granted, some i =>
    let k := s.circ c
    let loss := k.lossPend && (match h with | .portRx _ => true | _ => false)
    let s := s.setCell i { owner := .circ c, st := .openS, cls := cClass s c, origin := origin, holder := h,
                           ts := cellForm s.now, afterLoss := loss, corrected := (s.cell i).corrected }
    let s := s.setCirc c { k with lossPend := k.lossPend && !loss }
    let s := { s with fresh := s.fresh + 1 }
    let s := s.countWrap (cAddr c 0x10)
    let s := s.setFld (cAddr c 0x0B) 0 12 (max (s.fld (cAddr c 0x0B) 0 12) (heldBy s c))
    (some i, watchPool (flowWatch s c true))
  | .state, _ => (none, (s.count (cAddr c 0x13) 16 16).setBit (cAddr c 0x0D) 5)
  | .ceiling, _ => (none, (s.count (cAddr c 0x11) 0 16).setBit (cAddr c 0x0D) 5)
  | _, _ => (none, (s.count (cAddr c 0x11) 16 16).setBit (cAddr c 0x0D) 5)

/-! ## Steel control packets (R250, R253, R480) -/

/-- Put a control packet into a system reserve cell and the queue, on trunk `t` where it has one. -/
def queueCtl (s : State) (p : Pkt) (t : Option Nat) : Option State :=
  match allocSys s .ctl with
  | (some i, s') =>
    let s' := s'.setCell i { s'.cell i with tomb := p.typ == 4 }
    some { s' with outQ := s'.outQ ++ [{ pkt := p, cell := i, trunk := t, since := s'.now }] }
  | (none, _) => none

/-- Queue a Steel control packet in a system reserve cell; it waits where the reserve refuses the cell (R250). -/
def sendPkt (s : State) (p : Pkt) (t : Option Nat) : State :=
  match queueCtl s p t with
  | some s' => s'
  | none => { (allocSys s .ctl).2 with ctlWait := s.ctlWait ++ [(p, t)] }

/-- The system context of circuit `c`'s core is FAULTED: the circuit's fabric work waits for it (R318). -/
def sysDown (s : State) (c : Nat) : Bool := (s.ctx (64 + c / 8)).st == .faulted

/-- A routed Steel control packet to `dst`:`dcirc` from circuit `scirc` (R480); it waits for the circuit's system context (R318). -/
def sendCtl (s : State) (typ dst dcirc scirc : Nat) (body : List Byte) : State :=
  let p : Pkt := { cls := 0, typ := typ, fl := 0, dst := dst, src := ownAddr s, dcirc := dcirc, scirc := scirc, hops := 1,
                   seq := 0, ts := 0, sleeve := 0#32, body := body }
  if sysDown s scirc then { s with ctlWait := s.ctlWait ++ [(p, none)] } else sendPkt s p none

/-- Add credits to a circuit, saturating at INIT; the excess is counted in OVER (R254). A rise from 0 sets the CREDIT
event (Table 9-3). -/
def addCredits (s : State) (c n : Nat) : State :=
  let k := s.circ c
  let t := k.credits + n
  let s := s.setCirc c { k with credits := min t (cInit s c) }
  let s := s.countBy (cAddr c 0x14) 16 16 (t - cInit s c)
  if k.credits == 0 && decide (0 < min t (cInit s c)) then ctxEvent s c 5 else s

/-- Whether sequence number `a` is before `b`, modulo 65 536 (R254, R512). -/
def seqBefore (a b : Nat) : Bool := decide ((a + 65536 - b) % 65536 ≥ 32768)

/-- Send the credits of an entry as one CREDIT packet: GRANT and REFUSED, and the latest SEQ covered (R253, R516). -/
def sendCredit (s : State) (e : CreditEntry) (grant refused : Nat) : State :=
  sendCtl s 1 e.dev e.circ e.owner ([BitVec.ofNat 8 (grant * 16 + refused), 0#8] ++ bytesBE 2 e.seq)

/-- Return a credit locally: to the origin circuit on this device, unless its number is before that circuit's
tombstone (R254, R507). -/
def creditLocal (s : State) (c seq : Nat) : State :=
  if seqBefore seq (s.circ c).tombSeq then s else addCredits s c 1

/-- Owe one credit to the origin endpoint of a freed fabric cell of circuit `owner` (R253): one table entry per origin endpoint. Where
several circuits owe it, the packet names the one that freed last (DESIGN CHOICE, log entry 62). -/
def oweCredit (s : State) (owner origin seq : Nat) : State :=
  let dev := origin / 64 % 4096
  let rc := origin % 64
  if dev == ownAddr s then creditLocal s rc seq
  else match s.credits.find? (fun e => e.dev == dev && e.circ == rc) with
    | some e =>
      let e' := { e with owed := e.owed + 1, seq := seq, owner := owner }
      let rest := s.credits.filter (fun x => !(x.dev == dev && x.circ == rc))
      if 4 ≤ e'.owed then sendCredit { s with credits := rest } e' e'.owed 0
      else { s with credits := rest ++ [e'] }
    | none =>
      let e : CreditEntry := { dev := dev, circ := rc, owner := owner, owed := 1, seq := seq }
      if 128 ≤ s.credits.length then sendCredit s e 1 0 else { s with credits := s.credits ++ [e] }

/-- Owe a credit marked refused, sent at once (R253); a local origin gets it back directly (R507). -/
def oweRefused (s : State) (owner dev rc seq : Nat) : State :=
  if dev == ownAddr s then creditLocal s rc seq
  else sendCredit s { dev := dev, circ := rc, owner := owner, owed := 1, seq := seq } 0 1

/-! ## Serving what waits for the system reserve (R250) -/

/-- The first waiting Steel control packet whose system context is not FAULTED (R318), and the others. -/
def ctlNext (s : State) : Option ((Pkt × Option Nat) × List (Pkt × Option Nat)) :=
  let ready (e : Pkt × Option Nat) : Bool := e.2.isSome || !sysDown s e.1.scirc
  (s.ctlWait.find? ready).map (fun e => (e, s.ctlWait.takeWhile (fun x => !ready x) ++ (s.ctlWait.dropWhile (fun x => !ready x)).drop 1))

/-- After a system cell is freed: a waiting Steel control packet takes it, then a waiting journal record, a structural one first
(Table 11-16). -/
def serveSysWait (s : State) : State :=
  match ctlNext s with
  | some ((p, k), t) => (queueCtl { s with ctlWait := t } p k).getD s
  | none =>
    let l := s.jnl.waiting.filter (fun r => decide (r.typ < 0x10)) ++ s.jnl.waiting.filter (fun r => decide (0x10 ≤ r.typ))
    match l with
    | [] => s
    | r :: t => if sysRoom s .jnl then stageRecord { s with jnl := { s.jnl with waiting := t } } r else s

/-! ## Free (R239–R241) -/

/-- A cell leaves the pool: counted in CEL_RETIRED with CEL_EVT.RETIRE; the 64th raises memory-degraded once (R247,
R293, R295). -/
def noteRetired (s : State) : State :=
  let s := s.setFld 0x2004 0 12 (retiredCount s)
  let s := watchPool (s.setBit 0x2006 4)
  if 64 ≤ retiredCount s ∧ s.pool.degraded = false then
    let s := { s with pool := { s.pool with degraded := true } }
    let s := raiseFault (s.setBit 0x201C 5) 5
    journal s 0x47 (srcOf 7 0) (bytesBE 2 (retiredCount s))
  else s

/-- Discard a last-of-cell character that waits for a verdict of context `x` (R285, R353): its source failed, or has gone
without a verdict (DESIGN CHOICE, log entry 14). -/
def dropHeldChar (s : State) (x : Nat) : State :=
  forEach 16 (fun s n => match (s.port n).txHold with
    | some h => if h.wait == some x then ctxEvent (s.setPort n { s.port n with txHold := none }) x 1 else s
    | none => s) s

/-- Remove a cell from its circuit's queue, inbox and held lists; a read cursor on it becomes lost (R585); its PULL token is
stale from now on (R265, R416). A context that is halted or faulted has an empty cursor, not a lost one (R585). -/
def dropRefs (s : State) (c i : Nat) : State :=
  let k := s.circ c
  let s := s.setCirc c { k with queue := k.queue.filter (· != i), inbox := k.inbox.filter (· != i),
                                txLoss := if k.queue.head? == some i then 0 else k.txLoss }
  let s := { s with host := { s.host with tokens := s.host.tokens.filter (fun e => e.2.2 != i) } }
  let x := s.ctx c
  let mine := match x.rcur with | .held j _ _ => j == i | _ => false
  let st := { x.stock with parts := x.stock.parts.filter (· != i), cells := x.stock.cells.filter (· != i),
                           lost := x.stock.lost || x.stock.cells.contains i || x.stock.parts.contains i }
  let stopped := x.st == .halted || x.st == .faulted
  let s := s.setCtx c { x with rcur := if mine then (if stopped then .empty else .lost) else x.rcur, heldCells := x.heldCells.filter (· != i), stock := st }
  if mine then dropHeldChar s c else s

/-- A context whose allocation was refused would now be granted: its ALLOC event (Table 9-3). -/
def allocEvents (s : State) : State :=
  forEach 64 (fun s x =>
    if (s.ctx x).allocWait && allocDecide s x false == .granted
    then ctxEvent (s.setCtx x { s.ctx x with allocWait := false }) x 9 else s) s

/-- A staged commit sets EN of circuit `c` to 1 (R263). -/
def stagedEnable (s : State) (c : Nat) : Bool :=
  s.commit.staged.any (fun e => e.inst == .circ c && e.words.any (fun t => t.1 == cAddr c 0 && t.2.2.getLsbD 0))

/-- A context stops for good: IDLE, with nothing of what it had begun (R264, R307). -/
def stopCtx (s : State) (x : Nat) : State :=
  s.setCtx x { s.ctx x with st := .idle, rcur := .empty, heldCells := [], fill := none, ldp := none, haltReq := false, startReq := none,
                            cutReq := false, portWait := none, stock := {} }

/-- A context stops at its next instruction boundary: now, or, where it waits for a fill, when that has completed (R264, R342). -/
def stopAtBoundary (s : State) (x : Nat) : State :=
  let k := s.ctx x
  if k.st == .run && k.fill.isSome then
    s.setCtx x { k with rcur := .empty, heldCells := [], haltReq := false, startReq := none, portWait := none, stock := {}, cutReq := true }
  else stopCtx s x

/-- A draining circuit that holds nothing becomes DISABLED, its context IDLE, and DRAINED is set (R263). -/
def drainEnd (s : State) (c : Nat) : State :=
  if (s.circ c).st == .drain && heldBy s c == 0 then
    let s := s.setCirc c { s.circ c with st := .disabled, stallRun := false }
    (stopAtBoundary s c).setBit (cAddr c 0x0D) 1
  else s

/-- The end of a drain (R263). Where a staged commit enables the circuit again, that commit's application ends the drain instead. -/
def drainCheck (s : State) (c : Nat) : State := if stagedEnable s c then s else drainEnd s c

/-- Free a cell for good: it leaves its owner, retires if it must and stays retired (R293), owes its credit (R253), and everything
that waits for it is looked at. An open cell of a circuit is discarded with CAUSE 7 (Table 7-2). -/
def releaseCell (s : State) (i : Nat) : State :=
  let x := s.cell i
  let cause := match x.owner with | .circ _ => if x.st == .openS then 7 else 0 | _ => 0
  let s := s.setCell i { retired := x.retire || x.retired, corrected := x.corrected, cause := cause }
  let s := if x.retire && !x.retired then noteRetired s else s
  match x.owner with
  | .free => s
  | .sys _ => serveSysWait s
  | .circ c =>
    let s := dropRefs s c i
    let s := if x.origin / 2 ^ 22 == 1 then oweCredit s c (x.origin) x.pktSeq else s
    allocEvents (drainCheck (stallWatch (watchPool (flowWatch s c false)) c) c)

/-- A free of one of the owner's own cells by its state (R241): a cell being taken is marked, and its egress frees it
once; any other is freed now. -/
def freeOwn (s : State) (i : Nat) : State :=
  let x := s.cell i
  if x.st == .taken then s.setCell i { x with freed := true } else releaseCell s i

/-! ## Faults of contexts and circuits (R266, R317, R318) -/

/-- Free every open cell of circuit `c`; how many there were. -/
def freeOpen (s : State) (c : Nat) : Nat × State :=
  let l := (s.cells.filter (fun e => e.2.owner == .circ c && e.2.st == .openS)).map (·.1)
  (l.length, forList l releaseCell s)

/-- Circuit `c` meets a cause of FAULT (R266). -/
def faultCirc (s : State) (c : Nat) : State :=
  match (s.circ c).st with
  | .disabled => s
  | .fault => s.setBit (cAddr c 0x0D) 3
  | _ =>
    let s := s.setCirc c { s.circ c with st := .fault, faultTime := s.now, frestart := (cFrestart s c).isSome }
    let r := freeOpen s c
    let s := r.2.countBy (cAddr c 0x13) 16 16 r.1
    s.setBit (cAddr c 0x0D) 3

/-- The program address of a context: X and PC (Table 9-1). -/
def progAddr (k : Ctx) : Nat := (if k.x then 0x400000 else 0) + k.pc.toNat

/-- The stock programs of Table 9-8. -/
inductive StockProg where
  | pipe | modbus | nine | nmea | dnp3
  deriving DecidableEq, Repr

/-- The stock program that a program address enters, if any (Table 9-8). -/
def stockAt (a : Nat) : Option StockProg :=
  if a = 0x4000 then some .pipe
  else if a = 0x4100 then some .modbus
  else if a = 0x4200 then some .nine
  else if a = 0x4300 then some .nmea
  else if a = 0x4400 then some .dnp3
  else none

/-- A system context that runs: what it holds from one read to the next is not given (R579; log entry 16). -/
def sysLive (s : State) (x : Nat) : Bool := decide (64 ≤ x) && ((s.ctx x).st == .run || (s.ctx x).st == .wait)

/-- A context stands at an instruction boundary: it waits for no fill (R342, Table 5-2). -/
def atInstr (s : State) (x : Nat) : Bool := (s.ctx x).fill.isNone

/-- The program address as a reader sees it. Where a stock program stands within the ROM is not given: a free value within
the circuit programs' ROM (log entry 15). -/
def seenAddr (s : State) (x : Nat) : Nat :=
  let a := progAddr (s.ctx x)
  if sysLive s x then 0x4800 + (Config.sysPc x s.fresh s.now).val
  else if (stockAt a).isSome then 0x4000 + (Config.stockPc x s.fresh s.now).val else a

/-- A read cursor that is lost becomes empty when its context halts, faults or starts (R585). -/
def clearLost (k : Ctx) : Ctx := match k.rcur with | .lost => { k with rcur := .empty } | _ => k

/-- A circuit context faults with `code` (R317): FCODE, FPC, FCNT, SEQ_EVT.CFAULT, at most one context-fault record per
second, and its circuit enters FAULT. On a DISABLED circuit nothing changes (R266). -/
def ctxFaultC (s : State) (x code : Nat) : State :=
  if (s.circ x).st == .disabled then s
  else
    let k := s.ctx x
    let s := s.setFld (xAddr x 2) 8 4 code
    let pc := seenAddr s x
    let s := s.setFld (xAddr x 6) 0 23 pc
    let s := (s.count (xAddr x 6) 24 8).setBit 0x2408 2
    let recent := match k.faultRec with | some t => withinSeconds 1 t s.now | none => false
    let stamp := if recent then k.faultRec else some s.now
    let s := s.setCtx x { clearLost k with st := .faulted, fill := none, ldp := none, haltReq := false, startReq := none, portWait := none,
                                           faultRec := stamp }
    let s := if recent then s
      else journal s 0x50 (srcOf 3 x) (BitVec.ofNat 8 code :: bytesBE 3 pc)
    faultCirc s x

/-- A fault of a system context, and whatever counts as one (R318, R568): SEQ_EVT.SFAULT, a system-context-fault record,
the count in SUP_CNT1, and on the third within 60 s the system-program fault with its record. -/
def sysFault (s : State) (k code pc : Nat) : State :=
  let s := (s.setBit 0x2408 3).count 0x323 16 16
  let s := journal s 0x51 (srcOf 3 (64 + k)) (BitVec.ofNat 8 code :: bytesBE 3 pc)
  let l := (s.sup.sysFaults ++ [s.now]).filter (fun t => withinSeconds 60 t s.now)
  let s := { s with sup := { s.sup with sysFaults := l } }
  if 3 ≤ l.length then journal (raiseFault s 6) 0x52 (srcOf 3 (64 + k)) [BitVec.ofNat 8 l.length] else s

/-- A context faults with `code`: a circuit context by `ctxFaultC`, a system context by R318; the latter stands still where it was, its
address, events, registers and total being free values drawn once (R579, log entry 16). -/
def ctxFault (s : State) (x code : Nat) : State :=
  if x < 64 then ctxFaultC s x code
  else
    let k := s.ctx x
    let pc := seenAddr s x
    let s := s.setFld (xAddr x 2) 8 4 code
    let s := s.setFld (xAddr x 6) 0 23 pc
    let s := s.count (xAddr x 6) 24 8
    let ev := Config.sysEvents x s.fresh s.now
    let g := (List.range 16).foldl (fun g r => fset (fun _ => 0#32) g r (Config.sysReg x r s.fresh s.now)) []
    let s := s.setCtx x { clearLost k with st := .faulted, fill := none, haltReq := false, x := decide (0x400000 ≤ pc), pc := BitVec.ofNat 22 pc,
                                           ep := ev.setWidth 16, em := (ev >>> 16).setWidth 16, g := g,
                                           issued := (Config.romTotal x s.fresh s.now).toNat }
    sysFault { s with fresh := s.fresh + 1 } (x - 64) code pc

/-! ## Memory errors (R291) -/

/-- Count an error of memory `m` at word `a` (R291): the counter, the event, CEL_ECCLAST, and the record of an uncorrectable
one. -/
def noteEcc (s : State) (m a : Nat) (un : Bool) : State :=
  let s := s.count (0x2015 + m) (if un then 16 else 0) 16
  let s := s.setBit 0x201C (if un then 2 else 1)
  let s := ((s.setFld 0x2018 0 2 m).setBit 0x2018 2 un).setFld 0x2018 4 17 a
  if un then
    journal { s with pool := { s.pool with uncorrTime := s.now } } 0x45 (srcOf 7 m) (bytesBE 4 a)
  else s

/-- A traffic read of word `w` of cell `i` shows an uncorrectable error (R291, R293): it is counted and reported as any other. -/
def readEcc (s : State) (i w : Nat) : State := noteEcc s 0 (32 * i + w) true

/-! ## Sleeve failures (R286–R289) -/

/-- Count, report and journal one sleeve failure, and fault the circuit charged where FAULTEN is 1 (R288, R289). -/
def sleeveFail (s : State) (point c cell : Nat) (uncorr : Bool) (stored computed : Word) : State :=
  let s := match point with
    | 0 => s.count 0x2011 0 16 | 1 => s.count 0x2011 16 16 | 2 => s.count 0x2012 0 16
    | 3 => s.count 0x2012 16 16 | 4 => s.count 0x2013 0 16 | _ => s.count 0x2013 16 16
  let s := s.setBit 0x201C 0
  let s := (((s.setFld 0x2014 0 3 point).setFld 0x2014 8 6 c).setFld 0x2014 16 12 cell).setBit 0x2014 31
  let recent := match fget (fun _ => none) s.pool.sleeveRec c with
    | some t => withinSeconds 1 t s.now | none => false
  let s := { s with pool := { s.pool with sleeveTime := s.now } }
  let s := if recent then s
    else
      let s := { s with pool := { s.pool with sleeveRec := fset (fun _ => none) s.pool.sleeveRec c (some s.now) } }
      journal s 0x44 (srcOf 2 c) ([BitVec.ofNat 8 point, BitVec.ofNat 8 (b2n uncorr)] ++ bytesBE 2 cell ++
        bytesBE 4 stored.toNat ++ bytesBE 4 (if uncorr then 0 else computed.toNat))
  if s.bit 0x2010 0 then ctxFault s c 10 else s

/-- A cell as an egress or a delivery judges it: it fails on an uncorrectable word or a poison mark, else on a sleeve
that does not match its payload (R283, R286). -/
def sleeveBad (x : Cell) : Bool := x.poison || !x.bad.isEmpty || crc32c x.payload != x.sleeve

/-- Mark a cell with an uncorrectable error for retirement (R293). -/
def markRetire (s : State) (i : Nat) : State := s.setCell i { s.cell i with retire := true }

/-- The memory word, within its cell, that payload byte `off` lies in (R231, R582). -/
def wordOfByte (off : Nat) : Nat := (16 + off) / 8

/-- Write one payload byte at the end of an open cell (R582): a first byte of a word writes the whole word, so an earlier
error in it is gone; a later byte is refused where the word has an uncorrectable error. -/
def appendByte (s : State) (i : Nat) (b : Byte) : Option State :=
  let x := s.cell i
  let off := x.payload.length
  let w := wordOfByte off
  if off % 8 != 0 && x.bad.contains w then none
  else
    let bad := if off % 8 == 0 then x.bad.filter (fun v => v != w) else x.bad
    some (s.setCell i { x with payload := x.payload ++ [b], bad := bad })

/-- Append bytes to an open cell; where a merge meets an uncorrectable error (R582), how many were written and the state they leave. -/
def writeBytes (s : State) (i : Nat) : List Byte → Nat → Bool × Nat × State
  | [], n => (true, n, s)
  | b :: t, n => match appendByte s i b with
    | some s' => writeBytes s' i t (n + 1)
    | none => (false, n, s)

/-- A merge has met an uncorrectable error at the end of open cell `i` (R582): the read is reported, and the cell will retire. -/
def mergeFail (s : State) (i : Nat) : State := markRetire (readEcc s i (wordOfByte (s.cell i).payload.length)) i

/-- Discard an open cell after an uncorrectable error at its writing (R582): counted in INGRESS. -/
def discardIngress (s : State) (c i : Nat) : State := releaseCell (mergeFail (sleeveFail s 0 c i true 0#32 0#32) i) i

/-! ## Sequence numbers and epochs (R267–R270) -/

/-- Set a circuit's TXSEQ; passing a multiple of 512 journals it as the new high-water mark (R269). -/
def setTxseq (s : State) (c adv : Nat) : State :=
  let k := s.circ c
  let t := k.txseq + adv
  let s := s.setCirc c { k with txseq := t % 65536 }
  if t / 512 != k.txseq / 512 then
    let s := { s with jwrite := { s.jwrite with marks := fset (fun _ => none) s.jwrite.marks c (some (t % 65536)) } }
    journalStruct s 0x04 (srcOf 2 c) (BitVec.ofNat 8 c :: bytesBE 2 (t % 65536))
  else s

/-- Send a tombstone notice where the circuit is bound to a fabric endpoint of another device (R264, R270, R507). -/
def sendTomb (s : State) (c : Nat) : State :=
  if cKind s c == 2 && !boundLocal s c then sendCtl s 4 (cRdev s c) (cRcirc s c) c (bytesBE 2 (s.circ c).tombSeq) else s

/-- An epoch starts (R270): TXSEQ advances by 1024 except at start-up, TOMB is copied, CREDITS is INIT, and a tombstone
notice is sent. -/
def startEpoch (s : State) (c : Nat) (atStart : Bool) : State :=
  let s := if atStart then s else setTxseq s c 1024
  let k := s.circ c
  let s := s.setCirc c { k with tombSeq := k.txseq, credits := cInit s c }
  sendTomb (if k.credits == 0 && decide (0 < cInit s c) then ctxEvent s c 5 else s) c

/-! ## Close (R236, R267, R309) -/

/-- Put a closed cell where TAP and its maker send it: cells closed through WCUR go to the endpoint queue, others to the
inbox where TAP is 1 (R309). The INBOX event is set where the inbox was empty. -/
def enqueueCell (s : State) (c i : Nat) (viaWcur : Bool) : State :=
  let k := s.circ c
  let s := if cTap s c && !viaWcur then
      let s' := s.setCirc c { k with inbox := k.inbox ++ [i] }
      if k.inbox.isEmpty then ctxEvent s' c 4 else s'
    else s.setCirc c { k with queue := k.queue ++ [i] }
  stallWatch s c

/-- Close an open cell of circuit `c` (R236, R267): a cell of LENGTH 0 is freed instead (R234). -/
def closeCellAs (s : State) (i c cause : Nat) (sleeve : Word) : Bool × State :=
  let x := s.cell i
  if x.payload.isEmpty then (false, releaseCell s i)
  else
    let k := s.circ c
    let s := s.setCell i { x with st := .closed, cause := cause, seq := k.txseq, sleeve := sleeve, cls := cClass s c,
                                  holder := .none }
    let s := s.setCirc c { k with closedCnt := k.closedCnt + 1 }
    (true, setTxseq s c 1)

/-- Close an open cell with the sleeve over its payload, and put it where it goes. -/
def closeCell (s : State) (i c cause : Nat) : State :=
  match closeCellAs s i c cause (crc32c (s.cell i).payload) with
  | (true, s') => enqueueCell s' c i false
  | (false, s') => s'

/-! ## Starting a context (R305, R306) -/

/-- What a start or START does with the cells of the cursors: the source returns to the head of the inbox; the open cell
and the cells held for its verdict are freed and counted in Cnn_DISC.OTHER. -/
def returnCursors (s : State) (x : Nat) : State :=
  let k := s.ctx x
  let s := match k.rcur with
    | .held i _ _ => s.setCirc x { s.circ x with inbox := i :: (s.circ x).inbox }
    | _ => s
  let opens := (s.cells.filter (fun e => e.2.holder == .wcur x)).map (·.1)
  let l := opens ++ k.heldCells ++ k.stock.parts
  let s := s.setCtx x { k with rcur := .empty, heldCells := [], stock := {} }
  let s := dropHeldChar (forList l releaseCell s) x
  s.countBy (cAddr x 0x13) 16 16 l.length

/-- Set PC and X from a program address of 23 bits. -/
def setProg (k : Ctx) (a : Nat) : Ctx := { k with x := decide (0x400000 ≤ a % 0x800000), pc := BitVec.ofNat 22 a }

/-- A context start (R305): registers, flags, stack, masks, timers, engines and cursors cleared, PC and X from ENTRY,
G15 the circuit number; the state is RUN. Where what its cursors let go of was the last of a draining circuit, that is DISABLED and
starts nothing (R257, R263). -/
def startCtx (s : State) (x : Nat) : State :=
  let s := returnCursors s x
  if (s.circ x).st == .disabled then s
  else
  let k := s.ctx x
  let k' : Ctx := { st := .run, g := fset (fun _ => 0#32) [] 15 (BitVec.ofNat 32 x), issued := k.issued,
                    faultRec := k.faultRec, chLatch := k.chLatch }
  s.setCtx x (setProg k' (s.fld (xAddr x 0) 0 23))

/-! ## CUT (R264) -/

/-- Take a cell from its circuit for good: an egress that is sending it lets go of it at its next decision point (R262, R264); one that
nothing sends is freed. A cell that a CAN object holds, its frame not on the bus, is let go of at once: the idle bus is a decision point
(R457; DESIGN CHOICE, log entry 65). -/
def letGo (s : State) (i : Nat) : State :=
  let x := s.cell i
  if x.st != .taken then releaseCell s i
  else match x.holder with
    | .portTx _ => s.setCell i { x with abandon := true }
    | .canTx ch o =>
      if onBusObj s ch = some o then s.setCell i { x with abandon := true }
      else releaseCell (s.setObj ch o { s.obj ch o with pend := false, cancel := false, cell := none, loss := 0 }) i
    | _ => releaseCell s i

/-- Free every cell of circuit `c` for a CUT, or mark a cell being taken as abandoned; packets of its cells send no
further frame; a cell under a PULL token goes at once. How many cells it held. -/
def dropAll (s : State) (c : Nat) : Nat × State :=
  let mine := s.cells.filter (fun e => e.2.owner == .circ c)
  let s := { s with outQ := s.outQ.filter (fun o => !(o.pkt.typ == 0 && (s.cell o.cell).owner == .circ c)) }
  (mine.length, forList (mine.map (·.1)) letGo s)

/-- The steps of a CUT (R264) on a circuit that is not DISABLED. A context that waits for a fill stops when that has completed
(R342). -/
def cutCirc (s : State) (c : Nat) : State :=
  let s := s.setShad (cAddr c 0) (setF (s.shad (cAddr c 0)) 0 1 0)
  let s := s.setFld (cAddr c 0) 0 1 0
  let s := s.setCirc c { s.circ c with st := .disabled, stallRun := false, frestart := false }
  let r := dropAll s c
  let s := r.2.countBy (cAddr c 0x13) 16 16 r.1
  let s := setTxseq s c 1024
  let s := s.setCirc c { s.circ c with tombSeq := (s.circ c).txseq, queue := [], inbox := [], txLoss := 0 }
  let s := journal s 0x43 (srcOf 2 c) (bytesBE 2 (s.circ c).tombSeq ++ bytesBE 2 r.1)
  let s := sendTomb s c
  let s := s.setBit (cAddr c 0x0D) 2
  stopAtBoundary (dropHeldChar s c) c

/-! ## Entering RUN and leaving FAULT (R263, R266, R270) -/

/-- Circuit `c` enters RUN by enabling: its context starts once ports are live (R305, R335), at its instruction boundary, and an epoch
starts. -/
def enterRun (s : State) (c : Nat) : State :=
  let s := s.setCirc c { s.circ c with st := .run, frestart := false }
  let s := if !s.boot.live then s
    else if (s.ctx c).fill.isSome then s.setCtx c { s.ctx c with startReq := some false }
    else startCtx s c
  stallWatch (startEpoch s c false) c

/-- Circuit `c` enters DRAIN (R263): the STATE event, or DISABLED at once where it holds nothing. -/
def enterDrain (s : State) (c : Nat) : State :=
  let s := s.setCirc c { s.circ c with st := .drain, frestart := false }
  drainCheck (ctxEvent s c 13) c

/-- Circuit `c` leaves FAULT (R266): to RUN where EN is 1, with a context start and an epoch; else to DRAIN with a context
start where it still holds cells, or to DISABLED. -/
def leaveFault (s : State) (c : Nat) : State :=
  if (s.circ c).st != .fault then s
  else if cEn s c then enterRun s c
  else if 0 < heldBy s c then
    let s := s.setCirc c { s.circ c with st := .drain, frestart := false }
    ctxEvent (startCtx s c) c 13
  else
    let s := s.setCirc c { s.circ c with st := .disabled, frestart := false, stallRun := false }
    stopCtx s c

/-! ## Issuing (R303, R316, R351) -/

/-- Count an issued instruction: the run count, which a WAIT clears (R316), the context's total and its core's (R303). -/
def noteIssue (s : State) (x : Nat) (wait : Bool) : State :=
  let k := s.ctx x
  let s := s.setCtx x { k with runCount := if wait then 0 else k.runCount + 1, issued := k.issued + 1 }
  let core := x / 8 % 8
  { s with seq := { s.seq with issued := listSet s.seq.issued core ((s.seq.issued[core]?).getD 0 + 1) } }

/-- The run limit is exceeded by the instruction being issued (R316). -/
def overLimit (s : State) (x : Nat) : Bool :=
  s.fld 0x2402 0 8 != 0 && decide (s.fld 0x2402 0 8 * 1024 < (s.ctx x).runCount + 1)

/-- Move a context's program address on, modulo 2²³ (R339; log entry 19), unless the instruction stopped the context. -/
def advance (s : State) (x a : Nat) : State :=
  if (s.ctx x).st == .run || (s.ctx x).st == .wait then s.setCtx x (setProg (s.ctx x) (a % 2 ^ 23)) else s

/-- A commit has disabled port `n` or set it to CELL mode: every context that waits for its holding registers ends the instruction with E
set and no other effect (R351). -/
def endPortWaits (s : State) (n : Nat) : State :=
  forEach 64 (fun s x =>
    if (s.ctx x).portWait != some n then s
    else
      let s := s.setCtx x { s.ctx x with portWait := none }
      if overLimit s x then ctxFaultC (noteIssue s x false) x 9
      else
        let s := noteIssue s x false
        advance (s.setCtx x { s.ctx x with e := true }) x (progAddr (s.ctx x) + 1)) s

/-! ## A free by name (Table 7-4) -/

/-- The owner code of Table 7-1. -/
def ownerCode : Owner → Nat
  | .free => 0xFF | .circ c => c | .sys _ => 0x40

/-- A free of cell `i` requested by circuit `c`'s side (Table 7-4). -/
def freeByCirc (s : State) (c i : Nat) : State :=
  let x := s.cell i
  if x.owner = .circ c then freeOwn s i
  else if x.owner = .free then (s.count (cAddr c 0x12) 0 16).setBit (cAddr c 0x0D) 4
  else
    let s := s.count (cAddr c 0x12) 16 16
    let s := ((((s.setFld 0x2005 0 12 i).setFld 0x2005 16 6 c).setFld 0x2005 22 1 0).setFld 0x2005 24 8 (ownerCode x.owner))
    let s := s.setBit 0x2006 0
    let s := journal s 0x40 (srcOf 2 c) (bytesBE 2 i ++ [BitVec.ofNat 8 (ownerCode x.owner)])
    ctxFaultC s c 7

/-- A free of cell `i` requested by system context Sk or a hardware unit for the system reserve (R241). The refusal is a fault
of the context as R318 treats one (R568; DEDUCED, log entry 35). -/
def freeBySys (s : State) (k i : Nat) : State :=
  let x := s.cell i
  match x.owner with
  | .sys _ => freeOwn s i
  | .free => s
  | .circ _ =>
    let s := ((((s.setFld 0x2005 0 12 i).setFld 0x2005 16 6 k).setFld 0x2005 22 1 1).setFld 0x2005 24 8 (ownerCode x.owner))
    let s := s.setBit 0x2006 0
    let s := journal s 0x41 (srcOf 3 (64 + k)) (bytesBE 2 i ++ [BitVec.ofNat 8 (ownerCode x.owner)])
    ctxFault s (64 + k) 7

/-- An endpoint completes a cell (R238, R261): it is freed, counted, and the stall timer starts again. -/
def completeCell (s : State) (i : Nat) : State :=
  match (s.cell i).owner with
  | .circ c =>
    let s := s.setCirc c { s.circ c with doneCnt := (s.circ c).doneCnt + 1 }
    releaseCell s i
  | _ => releaseCell s i

end Sys2Proof.Machine
end

