-- ==== Sys2Proof/Machine/Refs.lean ====
section
/-! DEFINITION. Sys2Proof/Machine/Refs.lean: the time references: their access, selection, stratum and the quality they give (R532,
R536–R538, R546, R547), and the neighbours that offer them. -/
namespace Sys2Proof.Machine

/-! ## Access -/

/-- Neighbour `j`. -/
def State.nbr (s : State) (j : Nat) : Nbr := fget (fun _ => {}) s.fab.nbrs j
/-- Set neighbour `j`. -/
def State.setNbr (s : State) (j : Nat) (n : Nbr) : State :=
  { s with fab := { s.fab with nbrs := fset (fun _ => {}) s.fab.nbrs j n } }

/-- Reference `k`. -/
def State.tref (s : State) (k : Nat) : TRef := fget (fun _ => {}) s.tim.refs k
/-- Set reference `k`. -/
def State.setTref (s : State) (k : Nat) (r : TRef) : State :=
  { s with tim := { s.tim with refs := fset (fun _ => {}) s.tim.refs k r } }
/-- Change the timebase. -/
def modTim (s : State) (f : Tim → Tim) : State := { s with tim := f s.tim }

/-! ## Selection and stratum -/

/-- The stratum the device has without a fabric reference (R546). One that is LOCKED would be in HOLDOVER then, and keep the stratum of its
last source, so that it takes no time from a neighbour that has its time from this device (Table 15-9; DEDUCED, log entry 75). -/
def baseStratum (s : State) : Nat :=
  if s.hold.quality == .unset then 15
  else if (s.tref 1).qual && s.bit 0x4801 0 then 0
  else if s.hold.quality == .free then 13
  else s.hold.stratum

/-- Neighbour `j` is an eligible, qualified fabric reference (R547). -/
def eligible (s : State) (j : Nat) : Bool :=
  let r := s.tref (16 + j)
  s.bit 0x4801 3 && r.qual && r.adQ != 0 && decide (r.adStratum < baseStratum s) && (s.nbr j).st != .empty

/-- Among eligible neighbours the higher quality, then the lower stratum, then the lower address (R547). -/
def bestNbr (s : State) : Option Nat :=
  ((List.range 128).filter (eligible s)).foldl (fun b j => match b with
    | none => some j
    | some m =>
      let x := s.tref (16 + j)
      let y := s.tref (16 + m)
      if y.adQ < x.adQ ∨ (x.adQ = y.adQ ∧ (x.adStratum < y.adStratum ∨
          (x.adStratum = y.adStratum ∧ (s.nbr j).addr < (s.nbr m).addr))) then some j else some m) none

/-- A CAN reference that may be selected (R532). -/
def canRefOk (s : State) (ch : Nat) : Bool :=
  let r := s.tref (2 + ch)
  r.qual && r.adQ != 0 && ((s.can ch).role == .follower || (s.can ch).role == .backup)

/-- The first qualified reference (R532). -/
def wantRef (s : State) : Nat :=
  if s.bit 0x4801 0 && (s.tref 1).qual then 1
  else if canRefOk s 0 then 2
  else if canRefOk s 1 then 3
  else match bestNbr s with | some j => 16 + j | none => 0

/-- TIM_STAT.SRC of a reference. -/
def srcCode (k : Nat) : Nat := if 16 ≤ k then 4 else k

/-- Keep the stratum in step with the selection and quality (R546). -/
def putStratum (s : State) : State :=
  let st := if s.hold.quality == .unset then 15
    else if s.tim.sel == 1 then 0
    else if 16 ≤ s.tim.sel then min 15 ((s.tref s.tim.sel).adStratum + 1)
    else if s.tim.sel == 0 && s.hold.quality == .holdover then s.hold.stratum
    else 13
  { s with hold := { s.hold with stratum := st } }

/-- The quality that a reference can give at most (R536): LOCKED under TPI, the advertised quality under a network. -/
def capQuality (s : State) (k : Nat) : Quality :=
  if k = 1 then .locked else if k = 0 then .free else qOf (max 1 (s.tref k).adQ)

/-- Apply F = I + P to TIM_FREQ, in 2⁻¹⁶ ppm (R522, R533). -/
def putFreq (s : State) : State := s.setReg 0x4809 (BitVec.ofInt 32 ((s.tim.i + s.tim.p) * 65536).floor)

/-- No reference is selected any more (R537, R538): LOCKED falls to HOLDOVER, P is 0, TIM_HOLDSEC starts. -/
def refGone (s : State) : State :=
  let s := putFreq (modTim s (fun t => { t with p := 0, prev := none, acc := [], outliers := [], good := 0 }))
  let s := { s with hold := { s.hold with holdStart := s.now, holdSec := 0, lost := true } }
  if s.hold.quality == .locked then setQuality s .holdover else s

/-- A lower advertised quality of the selected reference lowers LOCKED, to FREE at the lowest (R536, Table 15-3). -/
def capLocked (s : State) : State :=
  let cap := capQuality s s.tim.sel
  if s.tim.sel ≠ 0 ∧ s.hold.quality == .locked ∧ qCode cap < 3 then setQuality s cap else s

/-- Select the first qualified reference (R532): a change sets TIM_EVT.SRC and keeps F; the loop's interval runs from the reference's last
measurement. LOCKED follows the advertised quality of the reference it had, then of the one it has. -/
def reselect (s : State) : State :=
  let s := capLocked s
  let k := wantRef s
  let s :=
    if k = s.tim.sel then s
    else
      let s := (modTim s (fun t => { t with sel := k, prev := (s.tref k).last, acc := [], outliers := [], good := 0 })).setBit 0x480D 3
      if k = 0 then refGone s else { s with hold := { s.hold with lost := false } }
  putStratum (capLocked s)

end Sys2Proof.Machine
end

