-- ==== Sys2Proof/Machine/FabCore.lean ====
section
/-! DEFINITION. Sys2Proof/Machine/FabCore.lean: the fabric's shared operations: trunks up and down, the route table,
neighbours, packets as bytes, the control packets a device builds, and the twin rule (chapter 14, R68). -/
namespace Sys2Proof.Machine

/-! ## Access -/

/-- Trunk `k`. -/
def State.trunk (s : State) (k : Nat) : Trunk := (s.fab.trunks[k]?).getD {}
/-- Set trunk `k`. -/
def State.setTrunk (s : State) (k : Nat) (t : Trunk) : State := { s with fab := { s.fab with trunks := listSet s.fab.trunks k t } }
/-- Route entry `i`. -/
def State.route (s : State) (i : Nat) : Route := fget (fun _ => {}) s.fab.routes i
/-- Set route entry `i`. -/
def State.setRoute (s : State) (i : Nat) (r : Route) : State :=
  { s with fab := { s.fab with routes := fset (fun _ => {}) s.fab.routes i r } }
/-- UART trunk `k` runs with AUTH at REQUIRE (R490). -/
def utAuth (s : State) (k : Nat) : Bool := decide (2 ≤ k) && s.bit (utAddr k) 8
/-- The OTP key slot of UART trunk `k`. -/
def utKey (s : State) (k : Nat) : Nat := s.fld (utAddr k) 12 2
/-- A CAN channel can carry a trunk (R485). -/
def canTrunkOk (s : State) (ch : Nat) : Bool :=
  s.bit 0x4003 ch && s.fld (chAddr ch 0) 0 2 == 1 && ((s.can ch).st == .active || (s.can ch).st == .passive) && !s.power.relock
/-- A UART slot can carry a trunk (R489). -/
def utTrunkOk (s : State) (k : Nat) : Bool :=
  let n := utPort s k
  s.bit (utAddr k) 0 && present s n && s.bit (pAddr n 0) 0 && !(s.port n).gloved && !s.power.relock && s.boot.live
/-- Trunk `k` meets its conditions to be up. -/
def trunkOk (s : State) (k : Nat) : Bool := if k < 2 then canTrunkOk s k else utTrunkOk s k

/-- The other end of profile 12's pair: the own address XOR 1, once an address is owned (R66, R68). -/
def twinAddr (s : State) : Option Nat := if ownAddr s = 0 then none else some (Nat.xor (ownAddr s) 1)
/-- Profile 12 is in force (R68). -/
def twinRule (s : State) : Bool := s.strap.mantleOn && s.fld 0x105 0 4 == 12

/-! ## Routes -/

/-- The index of the entry for `dst`, empty entries apart. -/
def routeIdx (s : State) (dst : Nat) : Option Nat :=
  (s.fab.routes.find? (fun e => e.2.st != .empty && e.2.dst == dst)).map (·.1)
/-- The valid best path to `dst` (R501). -/
def bestPath (s : State) (dst : Nat) : Option RPath :=
  match routeIdx s dst with
  | some i => if (s.route i).st == .valid then some (s.route i).best else none
  | none => none

/-- A destination's entry has changed: it is owed a triggered update on every trunk (R502). -/
def noteChanged (s : State) (dst : Nat) : State :=
  { s with fab := { s.fab with trunks := s.fab.trunks.map (fun t =>
      if t.changed.contains dst then t else { t with changed := t.changed ++ [dst] }) } }

/-- Give every queued packet without a trunk its path, once its destination has a valid route and the own address is
owned (R584); and every routed packet that waits on a trunk that is down, where its destination's route is the one that
has just changed (R518). -/
def assignPaths (s : State) (changed : Option Nat) : State :=
  let fix (o : OutPkt) : OutPkt :=
    let stuck := match o.trunk with
      | none => true
      | some k => !(s.trunk k).up && o.pkt.dst != 0xFFF && changed == some o.pkt.dst
    if stuck && ownAddr s != 0 then
      match bestPath s o.pkt.dst with
      | some p =>
        let q := if o.pkt.src == 0 then { o.pkt with src := ownAddr s } else o.pkt
        { o with pkt := q, trunk := some p.trunk, hop := p.hop, sent := 0, fails := 0, retry := false }
      | none => o
    else o
  { s with outQ := s.outQ.map fix }

/-- The twin stands by again: every port finishes the cell it is sending, and the egress cells that remain are discarded
and counted in Cnn_DISC.OTHER (R68). -/
def twinStandby (s : State) : State :=
  let s := { s with strap := { s.strap with standby := true } }
  forEach 64 (fun s c =>
    if cKind s c == 1 then
      let q := (s.circ c).queue.filter (fun i => (s.cell i).st != .taken)
      (forList q releaseCell s).countBy (cAddr c 0x13) 16 16 q.length
    else s) s

/-- Follow the twin's route (R68): a valid route puts the device into standby; hold-down makes it active. -/
def twinWatch (s : State) : State :=
  if !twinRule s then s
  else match (twinAddr s).bind (routeIdx s) with
    | some i =>
      (match (s.route i).st with
       | .valid => if s.strap.standby && !s.strap.twinWait then s
                   else twinStandby { s with strap := { s.strap with twinWait := false } }
       | .hold => { s with strap := { s.strap with standby := false, twinWait := false } }
       | .empty => s)
    | none => s

/-- Store a changed entry: a change of best metric, best trunk or state is noted for the triggered update (R502), and a
new best path sets FAB_EVT.ROUTE and its time. -/
def putRoute (s : State) (i : Nat) (r : Route) : State :=
  let old := s.route i
  let s := s.setRoute i r
  let pathNew := r.st == .valid && (old.best.trunk != r.best.trunk || old.best.hop != r.best.hop || old.best.metric != r.best.metric
    || old.st != .valid || old.dst != r.dst)
  let s := if pathNew then { s.setBit 0x4010 4 with fab := { s.fab with bestTime := s.now } } else s
  let s := if pathNew || old.st != r.st then noteChanged s (if r.st == .empty then old.dst else r.dst) else s
  twinWatch s

/-- A best path becomes unreachable (R504): a valid alternate takes over at once; else the entry enters hold-down. -/
def failBest (s : State) (i : Nat) : State :=
  let r := s.route i
  if r.st != .valid then s
  else match r.alt with
    | some p => putRoute s i { r with best := p, alt := none }
    | none => (putRoute s i { r with st := .hold, held := s.now }).setBit 0x4010 5

/-- Every path over a failed neighbour or trunk is gone: alternates first, then best paths by R504. -/
def failPaths (s : State) (gone : RPath → Bool) : State :=
  let idx := s.fab.routes.map (·.1)
  forList idx (fun s i =>
    let r := s.route i
    let r := match r.alt with | some p => if gone p then { r with alt := none } else r | none => r
    let s := s.setRoute i r
    if r.st == .valid && gone r.best then failBest s i else s) s

/-- A neighbour is lost (R496): NBRDOWN, a neighbour-lost record, and the paths through it. -/
def loseNbr (s : State) (j : Nat) : State :=
  let n := s.nbr j
  if n.st == .empty then s
  else
    let s := (s.setNbr j {}).setBit 0x4010 3
    let s := journal s 0x82 (srcOf 5 n.trunk) (bytesBE 2 n.addr ++ bytesBE 8 n.uid.toNat)
    let s := if s.tim.sel = 16 + j then reselect s else s
    failPaths s (fun p => p.trunk == n.trunk && p.hop == n.addr)

/-- The index of a neighbour by trunk and address. -/
def nbrIdx (s : State) (k addr : Nat) : Option Nat :=
  (s.fab.nbrs.find? (fun e => e.2.st != .empty && e.2.trunk == k && e.2.addr == addr)).map (·.1)

/-! ## Packets as bytes (Tables 14-1 and 14-3) -/

/-- The header of a packet. -/
def pktHead (p : Pkt) : List Byte :=
  BitVec.ofNat 8 (p.cls * 64 + p.typ * 8 + p.fl) :: (bytesBE 3 (p.dst * 4096 + p.src) ++
    bytesBE 2 (p.dcirc * 1024 + p.scirc * 16 + p.hops) ++ [BitVec.ofNat 8 p.body.length] ++
    (if p.typ = 0 then bytesBE 2 p.seq ++ bytesBE 3 p.ts ++ bytesBE 4 p.sleeve.toNat else [0#8]))
/-- A packet's bytes (R478). -/
def pktBytes (p : Pkt) : List Byte := pktHead p ++ p.body
/-- The length that a header gives, once its first seven bytes are there (R484). -/
def pktLen (b : List Byte) : Option Nat :=
  match b[0]?, b[6]? with
  | some h, some l => some (if h.toNat / 8 % 8 = 0 then 16 + l.toNat else 8 + l.toNat)
  | _, _ => none
/-- Read a packet of exactly the header's length. -/
def pktOf (b : List Byte) : Option Pkt :=
  match pktLen b with
  | some n =>
    if b.length = n then
      let h := (byteAt b 0).toNat
      let a := natBE ((b.drop 1).take 3)
      let c := natBE ((b.drop 4).take 2)
      let data := h / 8 % 8 == 0
      some { cls := h / 64, typ := h / 8 % 8, fl := h % 8, dst := a / 4096, src := a % 4096, dcirc := c / 1024,
             scirc := c / 16 % 64, hops := c % 16, seq := if data then natBE ((b.drop 7).take 2) else 0,
             ts := if data then natBE ((b.drop 9).take 3) else 0,
             sleeve := if data then BitVec.ofNat 32 (natBE ((b.drop 12).take 4)) else 0#32,
             body := b.drop (if data then 16 else 8) }
    else none
  | none => none

/-! ## Packets that a device builds for one hop -/

/-- A one-hop packet on trunk `k` (R480), in a system reserve cell of Steel control use. -/
def sendHop (s : State) (k typ fl src : Nat) (body : List Byte) : State :=
  sendPkt s { cls := 0, typ := typ, fl := fl, dst := 0xFFF, src := src, dcirc := 0, scirc := 0, hops := 1, seq := 0, ts := 0,
              sleeve := 0#32, body := body } (some k)

/-- The address in force comes from FAB_ADDR.REQ (FAB_STAT.STRAPPED). -/
def ownStrapped (s : State) : Bool := s.bit 0x4000 14

/-- The HELLO interval of trunk `k` as body bytes 8 (ISEC) and 9 carry it (Table 14-3). -/
def helloInterval (s : State) (k : Nat) : Nat := if k < 2 then s.fld 0x4004 0 8 else s.fld (utAddr k) 16 8

/-- A HELLO's body (Table 14-3): UID, flags, interval, nonce and the echoes of the trunk's neighbours (R494). -/
def helloBody (s : State) (k : Nat) (strapped : Bool) : List Byte :=
  let auth := utAuth s k
  let echo := (s.fab.nbrs.filterMap (fun e => match e.2.nonce with
    | some w => if e.2.st != .empty && e.2.trunk == k && auth then some (bytesBE 2 e.2.addr ++ bytesBE 4 w.toNat) else none
    | none => none)).take 16
  bytesBE 8 s.chip.uid.toNat ++
  [BitVec.ofNat 8 (b2n strapped * 128 + b2n auth * 64 + b2n (decide (2 ≤ k)) * 32), BitVec.ofNat 8 (helloInterval s k)] ++
  bytesBE 4 (if auth then (s.trunk k).nonce.toNat else 0) ++ [BitVec.ofNat 8 echo.length] ++ echo.flatten

/-- Send a HELLO on trunk `k` (R496): only while it is up and an address is owned, and never in DORMANT (R520). -/
def sendHello (s : State) (k : Nat) : State :=
  if (s.trunk k).up && ownAddr s != 0 && s.power.st != .dormant then sendHop s k 6 0 (ownAddr s) (helloBody s k (ownStrapped s)) else s

/-- A ROUTE entry's word (Table 14-3). -/
def routeWord (dst metric : Nat) (strap : Bool) (tag : Nat) : List Byte :=
  bytesBE 4 (dst * 2 ^ 20 + metric * 2 ^ 16 + b2n strap * 2 ^ 15 + tag % 2 ^ 15)

/-- The own entry, and the table's entries that split horizon lets out on trunk `k` (R502). An entry in hold-down
advertises metric 16, which its 4 bits carry as unreachable by R503: 15 gives 16 at the receiver. -/
def routeEntries (s : State) (k : Nat) (only : Nat → Bool) : List (List Byte) :=
  (s.fab.routes.filter (fun e => e.2.st != .empty && only e.2.dst && !(e.2.best.trunk == k))).map (fun e =>
    routeWord e.2.dst (if e.2.st == .hold then 15 else min 15 e.2.best.metric) e.2.strap e.2.tag)

/-- Cut a list into parts of 59 (R502). -/
def parts59 {α : Type} : Nat → List α → List (List α)
  | 0, _ => []
  | n + 1, l => if l.isEmpty then [] else l.take 59 :: parts59 n (l.drop 59)

/-- A full route update on trunk `k` (R502). -/
def sendFullUpdate (s : State) (k : Nat) : State :=
  if (s.trunk k).up && ownAddr s != 0 then
    let own := routeWord (ownAddr s) 0 (ownStrapped s) (s.chip.uid.toNat % 2 ^ 15)
    let ps := parts59 8 (own :: routeEntries s k (fun _ => true))
    let s := s.setTrunk k { s.trunk k with changed := [] }
    (forList (List.zip (List.range ps.length) ps) (fun s e =>
      sendHop s k 5 0 (ownAddr s) ([BitVec.ofNat 8 e.1, BitVec.ofNat 8 ps.length, 0#8, 0#8] ++ e.2.flatten)) s)
  else s

/-- A triggered update of the changed entries on trunk `k` (R502). An entry emptied since is left out. -/
def sendTriggered (s : State) (k : Nat) : State :=
  let t := s.trunk k
  if t.up && ownAddr s != 0 && !t.changed.isEmpty then
    let es := routeEntries s k (fun d => t.changed.contains d)
    let s := s.setTrunk k { t with changed := [] }
    forList (parts59 8 es) (fun s p => sendHop s k 5 0 (ownAddr s) ([0#8, 0#8, 0#8, 0#8] ++ p.flatten)) s
  else s

/-! ## Trunks up and down (R485, R489, R496, R518, R519) -/

/-- The causes of a trunk-down record, in the order that record 0x83 names them; 4 a configuration change. -/
inductive DownCause where
  | busoff | glove | restart | relock | config
  deriving DecidableEq, Repr
def downCode : DownCause → Nat
  | .busoff => 0 | .glove => 1 | .restart => 2 | .relock => 3 | .config => 4

/-- A trunk goes down (R518): its neighbours are lost, TRKDOWN and a trunk-down record; packets of classes Steel to
FAILCLS move to the alternate path and start again, others wait for the trunk; a UART trunk's frame in progress is lost. -/
def trunkDown (s : State) (k : Nat) (c : DownCause) : State :=
  let s := s.setTrunk k { s.trunk k with up := false, lock := .hunt, rx := [], rxT := [], tx := [], sending := false, helloDue := false }
  let s := journal (s.setBit 0x4010 6) 0x83 (srcOf 5 k) [BitVec.ofNat 8 (downCode c)]
  let js := (s.fab.nbrs.filter (fun e => e.2.st != .empty && e.2.trunk == k)).map (·.1)
  let s := forList js loseNbr s
  let s := failPaths s (fun p => p.trunk == k)
  let cut (o : OutPkt) : OutPkt := if o.trunk == some k && decide (2 ≤ k) then { o with sent := 0 } else o
  let fix (o : OutPkt) : OutPkt :=
    if o.trunk == some k && o.pkt.dst != 0xFFF && decide (o.pkt.cls ≤ s.fld 0x4003 8 2) then
      match bestPath s o.pkt.dst with
      | some p => { o with trunk := some p.trunk, hop := p.hop, sent := 0, fails := 0, retry := false }
      | none => cut o
    else cut o
  { s with outQ := s.outQ.map fix }

/-- A trunk comes up (R496, R519): TRKUP and a HELLO at once; on an authenticated trunk counters run on. -/
def trunkUp (s : State) (k : Nat) : State :=
  let s := s.setTrunk k { s.trunk k with up := true, lock := .hunt, rx := [], rxT := [], tx := [], sending := false }
  sendHello (s.setBit 0x4010 7) k

/-- Compare every trunk with its conditions and take it up or down. -/
def trunkWatch (s : State) (c : DownCause) : State :=
  forEach 6 (fun s k =>
    let ok := trunkOk s k
    if ok && !(s.trunk k).up then trunkUp s k
    else if !ok && (s.trunk k).up then trunkDown s k c else s) s

/-! ## Sent packets -/

/-- A packet's last frame is sent (R508): it is counted, its cell is freed. -/
def pktSent (s : State) (cell : Nat) : State :=
  let s := { s with outQ := s.outQ.filter (fun o => o.cell != cell) }
  releaseCell (s.countWrap 0x4018) cell

/-- The queue position order of R508 and R25: the class, raised one step for every 64 arbitrations lost. -/
def agedClass (cls loss : Nat) : Nat := cls - loss / 64

/-- A packet may leave: while the own address is 0x000 the fabric sends nothing but claims (R476). -/
def mayLeave (s : State) (o : OutPkt) : Bool := ownAddr s != 0 || (o.pkt.typ == 6 && o.pkt.fl % 2 == 1)

/-- The order of a waiting packet on its trunk: a defence is a UART trunk's next frame (R498), then the class with aging (R508). -/
def outRank (o : OutPkt) : Nat := if o.pkt.typ = 6 ∧ o.pkt.fl = 3 then 0 else 1 + agedClass o.pkt.cls o.loss

/-- The packet that trunk `k` sends next among those `ok` admits: highest class with aging, oldest first (R508). -/
def nextPkt (s : State) (k : Nat) (ok : OutPkt → Bool) : Option OutPkt :=
  let l := s.outQ.filter (fun o => o.trunk == some k && !o.retry && mayLeave s o && ok o)
  l.foldl (fun b o => match b with
    | none => some o
    | some p => if outRank o < outRank p then some o else some p) none

/-- Change the queued packet that stands in `cell`. -/
def modOut (s : State) (cell : Nat) (f : OutPkt → OutPkt) : State :=
  { s with outQ := s.outQ.map (fun o => if o.cell == cell then f o else o) }

/-! ## UART trunk frames (Table 14-5) -/

/-- H0 to H4 of a frame. -/
def utHead (s : State) (k : Nat) (len hop : Nat) : List Byte :=
  let auth := utAuth s k
  BitVec.ofNat 8 (b2n auth * 128 + (if auth then utKey s k else 0) * 32 + 2 + len / 256 % 2) :: BitVec.ofNat 8 len ::
    bytesBE 3 (hop * 4096 + ownAddr s)

/-- The IEEE CRC-32 of Table 14-5. -/
def crc32 (b : List Byte) : Word := crcR 0xEDB88320#32 0xFFFFFFFF#32 b ^^^ 0xFFFFFFFF#32
/-- The CRC-8 of Table 14-5. -/
def crc8 (b : List Byte) : Byte := (crcL 8 0x07#32 0#32 b).setWidth 8

/-- The key in an OTP slot (R490). -/
def trunkKey (s : State) (slot : Nat) : Option (BitVec 128) := ((s.chip.trunkKeys[slot]?).getD none)

/-- A frame from H0 to its CRC (Table 14-5, R491): the CRC is most significant byte first (R12). -/
def utFrame (s : State) (k hop : Nat) (p : Pkt) (ctr : Nat) : List Byte :=
  let b := pktBytes p
  let h := utHead s k b.length hop
  let h := h ++ [crc8 h]
  let body := h ++ b
  let tail := match utAuth s k, trunkKey s (utKey s k) with
    | true, some key => bytesBE 4 ctr ++ (cmac key (body ++ bytesBE 4 ctr)).take 4
    | _, _ => []
  let all := body ++ tail
  all ++ bytesBE 4 (crc32 all).toNat

/-- The nonce of trunk `k` (R494): over the UID, CLK_RSTCAUSE, the time count, the SUPV cycles of the ROOT start, which the
specification does not fix, and the trunk index. -/
def newNonce (s : State) (k : Nat) : Word :=
  crc32c (bytesBE 8 s.chip.uid.toNat ++ bytesBE 4 (rstCause s).toNat ++ bytesBE 10 s.now.toNat ++
    bytesBE 4 (Config.rootStartCycles s.fresh).toNat ++ [BitVec.ofNat 8 k])

/-- Advance a trunk's transmit counter (R492): at 0xFFFF_0000 a new nonce is taken and the counter restarts at 1. -/
def stepCtr (s : State) (k : Nat) : State :=
  let t := s.trunk k
  if t.ctr + 1 = 0xFFFF0000 then { (s.setTrunk k { t with ctr := 1, nonce := newNonce s k }) with fresh := s.fresh + 1 }
  else s.setTrunk k { t with ctr := t.ctr + 1 }

/-- A queued packet whose cell shows an uncorrectable error when it is read ends at the sender (R583): for a circuit's
cell a point 4 failure charged to its owner, for a relayed packet a relay drop (R296). The cell is freed and retired. -/
def dropBad (s : State) (o : OutPkt) : State :=
  let x := s.cell o.cell
  let s := { s with outQ := s.outQ.filter (fun p => p.cell != o.cell) }
  let s := markRetire s o.cell
  match x.owner with
  | .circ c => releaseCell (sleeveFail s 4 c o.cell true x.sleeve 0#32) o.cell
  | _ => releaseCell (if o.pkt.hops ≤ 1 then s else s.count 0x401A 0 16) o.cell

/-- The cell of a queued packet shows an uncorrectable error. -/
def badPkt (s : State) (o : OutPkt) : Bool := let x := s.cell o.cell; x.poison || !x.bad.isEmpty

/-- The next packet of trunk `k`, once those with an uncorrectable error are dropped; `n` bounds how many. -/
def takePkt (k : Nat) (ok : OutPkt → Bool) : Nat → State → Option OutPkt × State
  | 0, s => (none, s)
  | n + 1, s => match nextPkt s k ok with
    | none => (none, s)
    | some o => if badPkt s o then takePkt k ok n (dropBad s o) else (some o, s)

/-- Packet `c` has been chosen on trunk `k`: every other packet that waited there has lost once more (R25, R508). -/
def passOver (s : State) (k c : Nat) : State :=
  { s with outQ := s.outQ.map (fun o => if o.trunk == some k && !o.retry && o.cell != c then { o with loss := o.loss + 1 } else o) }

/-- Load the next packet of UART trunk `k` into its byte stream; `first` puts the opening sync before it (R486). -/
def loadBurst (s : State) (k : Nat) (first : Bool) : State :=
  match takePkt k (fun _ => true) (s.outQ.length + 1) s with
  | (none, s) => s
  | (some o, s) =>
    let t := s.trunk k
    let f := utFrame s k o.hop o.pkt t.ctr
    let s := s.setTrunk k { t with tx := (if first then [0xE2#8, 0x5D#8] else []) ++ f ++ [0xE2#8, 0x5D#8], sending := true }
    let s := modOut (passOver s k o.cell) o.cell (fun x => { x with sent := 1, loss := 0 })
    if utAuth s k then stepCtr s k else s

/-- The packet whose frame UART trunk `k` is sending. -/
def sendingPkt (s : State) (k : Nat) : Option OutPkt := s.outQ.find? (fun o => o.trunk == some k && decide (0 < o.sent))

/-- A packet whose frame UART trunk `k` is sending shows an uncorrectable error: no further byte of it is sent (R583). -/
def endBad (s : State) (k : Nat) : State :=
  match sendingPkt s k with
  | some o => if (s.trunk k).sending && badPkt s o then dropBad (s.setTrunk k { s.trunk k with tx := [], sending := false }) o else s
  | none => s

/-- The next byte of UART trunk `k` is the H0 byte of a TIME packet's frame: its start bit is the packet's mark (R544). -/
def atTimeMark (s : State) (k : Nat) : Bool :=
  match sendingPkt s k with
  | some o => o.pkt.typ == 7 && (s.trunk k).sending &&
      (s.trunk k).tx.length == (pktBytes o.pkt).length + (if utAuth s k then 22 else 14) - 2
  | none => false

/-- Take the next byte of UART trunk `k`'s burst. The packet is sent when its last CRC byte is taken (R508); when the
trailing sync has gone, a waiting packet follows directly (R486). -/
def trunkByte (s : State) (k : Nat) : Option Byte × State :=
  let s := endBad s k
  let s := if (s.trunk k).tx.isEmpty then loadBurst s k true else s
  let t := s.trunk k
  match t.tx with
  | [] => (none, s)
  | b :: rest =>
    let s := if atTimeMark s k then { s with tim := { s.tim with txMark := listSet s.tim.txMark k (some s.now) } } else s
    let s := s.setTrunk k { t with tx := rest }
    let s := if rest.length = 2 ∧ t.sending then
        let s := s.setTrunk k { s.trunk k with sending := false }
        match sendingPkt s k with | some o => pktSent s o.cell | none => s
      else s
    (some b, if rest.isEmpty then loadBurst s k false else s)

/-- UART trunk `k` has a byte or a packet ready. -/
def trunkReady (s : State) (k : Nat) : Bool :=
  (s.trunk k).up && (!(s.trunk k).tx.isEmpty || (nextPkt s k (fun _ => true)).isSome)

end Sys2Proof.Machine
end

