-- ==== Sys2Proof/Machine/Fabric.lean ====
section
/-! DEFINITION. Sys2Proof/Machine/Fabric.lean: the fabric's commands: frames taken, packets judged, delivered, relayed,
claims, neighbours, routes and timers (chapter 14). -/
namespace Sys2Proof.Machine

/-! ## Packets taken -/

/-- A packet is taken (Table 14-6 step 9, R484): it is counted and waits to be judged. -/
def takeIn (s : State) (p : InPkt) : State :=
  { s.countWrap 0x4019 with fab := { s.fab with inQ := s.fab.inQ ++ [p] } }

/-- The first waiting packet that `p` admits. -/
def firstIn (s : State) (p : InPkt → Bool) : Option InPkt := s.fab.inQ.find? p

/-- Remove the first element that `p` admits. -/
def eraseFirst {α : Type} (p : α → Bool) : List α → List α
  | [] => []
  | a :: t => if p a then t else a :: eraseFirst p t

/-- Run `f` on the first waiting packet that `p` admits, taking it off the queue; nothing happens where none waits. -/
def onPkt (s : State) (p : InPkt → Bool) (f : State → InPkt → State) : State :=
  match firstIn s p with
  | none => s
  | some q => f { s with fab := { s.fab with inQ := eraseFirst p s.fab.inQ } } q

/-- A packet addressed to this device (R476, R477). -/
def forMe (s : State) (q : InPkt) : Bool := !q.form0 && q.pkt.dst == ownAddr s && ownAddr s != 0

/-! ## CAN segments (R481–R484) -/

/-- The data length that a DLC gives on an FD frame; at most 8 on a classical frame. -/
def dlcLen (fdf : Bool) (dlc : Nat) : Nat :=
  if dlc ≤ 8 then dlc
  else if fdf then
    (match dlc with | 9 => 12 | 10 => 16 | 11 => 20 | 12 => 24 | 13 => 32 | 14 => 48 | _ => 64)
  else 8

/-- The smallest DLC whose data length is at least `n`. -/
def dlcFor (n : Nat) : Nat :=
  if n ≤ 8 then n else if n ≤ 12 then 9 else if n ≤ 16 then 10 else if n ≤ 20 then 11 else if n ≤ 24 then 12
  else if n ≤ 32 then 13 else if n ≤ 48 then 14 else 15

/-- A frame of the fabric range (R481). -/
def inFabricRange (s : State) (f : CanFrame) : Bool := f.xtd && f.id / 2 ^ 27 % 4 == s.fld 0x4003 4 2

/-- Count a segment error (R484). -/
def segErr (s : State) : State := s.count 0x4021 0 16

/-- The reassembly contexts without the one of (channel, sender, class). -/
def dropReasm (l : List Reasm) (ch sender cls : Nat) : List Reasm :=
  l.filter (fun r => !(r.chan == ch && r.sender == sender && r.cls == cls))

/-- Add a frame's bytes to a partial packet: `last` and the bytes so far decide whether it goes on, completes or fails
(R484). The bytes of a received packet stand in no cell while it is reassembled, waits to be judged or is held in a reorder window: R20
and R259 speak of a cell there, Table 7-6 has no such use, and no count of cells is given for them (DESIGN CHOICE, log entry 68). -/
def segAdd (s : State) (r : Reasm) (last : Bool) (data : List Byte) (fdf : Bool) : State :=
  let others := dropReasm s.fab.reasm r.chan r.sender r.cls
  let all := r.bytes ++ data
  let keep : State := { s with fab := { s.fab with reasm := others ++ [{ r with bytes := all }] } }
  let drop : State := segErr { s with fab := { s.fab with reasm := others } }
  match pktLen all with
  | none => keep
  | some n =>
    if !last then (if n < all.length then drop else keep)
    else
      let need := n - r.bytes.length
      if all.length < n then keep
      else if dlcLen fdf (dlcFor (1 + need)) < 1 + data.length then drop
      else match pktOf (all.take n) with
        | some p => takeIn { s with fab := { s.fab with reasm := others } }
            { pkt := p, trunk := r.chan, sender := r.sender, at_ := r.t0 }
        | none => drop

/-- FABRIC_SEGMENT_RECEIVE (R482, R484): one fabric frame from channel `ch`'s buffer. A FORM 0 frame is a claim. -/
def execFabricSegmentReceive (ch : ChanId) (s : State) : Res :=
  match s.fab.segQ.find? (fun e => e.1 == ch.val) with
  | none => .next s
  | some (_, f, at_) =>
    let s := { s with fab := { s.fab with segQ := eraseFirst (fun e => e.1 == ch.val) s.fab.segQ } }
    let hop := f.id / 4096 % 4096
    let snd := f.id % 4096
    let cls := f.id / 2 ^ 24 % 4
    if f.id / 2 ^ 26 % 2 = 0 then
      let p : Pkt := { cls := 0, typ := 6, fl := 1 + 2 * (1 - f.id / 2 ^ 10 % 2), dst := 0xFFF, src := hop, dcirc := 0, scirc := 0,
                       hops := 1, seq := 0, ts := 0, sleeve := 0#32,
                       body := f.data ++ [BitVec.ofNat 8 ((1 - f.id / 2 ^ 11 % 2) * 128)] }
      .next { s with fab := { s.fab with inQ := s.fab.inQ ++ [{ pkt := p, trunk := ch.val, sender := 0, form0 := true, at_ := at_ }] } }
    else if hop ≠ ownAddr s ∧ hop ≠ 0xFFF then .next s
    else match f.data with
      | [] => .next (segErr s)
      | b :: data =>
        let first := b.getLsbD 7
        let last := b.getLsbD 6
        let cnt := b.toNat % 64
        let mine := s.fab.reasm.find? (fun r => r.chan == ch.val && r.sender == snd && r.cls == cls)
        if first then
          if mine.isNone && decide (32 ≤ (s.fab.reasm.filter (fun r => r.chan == ch.val)).length) then .next (segErr s)
          else .next (segAdd { s with fab := { s.fab with reasm := dropReasm s.fab.reasm ch.val snd cls } }
                  { chan := ch.val, sender := snd, cls := cls, count := cnt, bytes := [], t0 := at_ } last data f.fdf)
        else match mine with
          | none => .next (segErr s)
          | some r =>
            if cnt = r.count then .next s
            else if cnt = r.count + 1 then .next (segAdd s { r with count := cnt } last data f.fdf)
            else .next (segErr { s with fab := { s.fab with reasm := dropReasm s.fab.reasm ch.val snd cls } })

/-- REASSEMBLY_TIMEOUT (R484): a partial packet that received no frame for 100 ms is discarded, a segment error. -/
def execReassemblyTimeout (ch : ChanId) (sender : BitVec 12) (cls : BitVec 2) (s : State) : Res :=
  let l := dropReasm s.fab.reasm ch.val sender.toNat cls.toNat
  if l.length = s.fab.reasm.length then .next s else .next (segErr { s with fab := { s.fab with reasm := l } })

/-- FABRIC_FRAME_RETRY (R483): 10 ms after a packet failed on a trunk it is sent again from its first frame, over the
route in force now; where none is valid it waits for one. -/
def execFabricFrameRetry (cell : CellId) (s : State) : Res :=
  let again (o : OutPkt) : OutPkt :=
    if o.cell == cell.val && o.retry then
      if o.pkt.dst == 0xFFF then { o with retry := false, sent := 0, fails := 0 }
      else match bestPath s o.pkt.dst with
        | some p => { o with retry := false, sent := 0, fails := 0, trunk := some p.trunk, hop := p.hop }
        | none => { o with retry := false, sent := 0, fails := 0, trunk := none }
    else o
  .next { s with outQ := s.outQ.map again }

/-! ## UART trunk receivers (R486–R488) -/

/-- A header checks: H5 and H0 bits 4:1; its AUTH bit and LEN. -/
def utHeader (b : List Byte) : Option (Bool × Nat) :=
  if crc8 (b.take 5) = byteAt b 5 ∧ (byteAt b 0).toNat / 2 % 16 = 1 then
    some ((byteAt b 0).getLsbD 7, (byteAt b 0).toNat % 2 * 256 + (byteAt b 1).toNat)
  else none

/-- Bytes from H0 to the CRC for a packet of `len` bytes. -/
def utBody (auth : Bool) (len : Nat) : Nat := 6 + len + (if auth then 8 else 0) + 4

/-- What the HUNT search finds in a buffer: nothing yet (what remains of it), a lock (the frame after its sync), each with
the candidates rejected on the way (R487). -/
def huntScan : Nat → List Byte → Nat → Bool × List Byte × Nat
  | 0, b, n => (false, b, n)
  | f + 1, b, n =>
    match b with
    | [] => (false, [], n)
    | [x] => if x = 0xE2#8 then (false, [x], n) else (false, [], n)
    | x :: y :: rest =>
      if x = 0xE2#8 ∧ y = 0x5D#8 then
        if rest.length < 6 then (false, b, n)
        else match utHeader rest with
          | none => huntScan f (y :: rest) (n + 1)
          | some (auth, len) =>
            if len < 8 ∨ 256 < len then huntScan f (y :: rest) (n + 1)
            else
              let m := utBody auth len
              if rest.length < m + 2 then (false, b, n)
              else if byteAt rest m = 0xE2#8 ∧ byteAt rest (m + 1) = 0x5D#8 then (true, rest, n)
              else huntScan f (y :: rest) (n + 1)
      else huntScan f (y :: rest) n

/-- Search trunk `k`'s bytes in HUNT. -/
def hunt (s : State) (k : Nat) : State :=
  let t := s.trunk k
  let r := huntScan (t.rx.length + 1) t.rx 0
  let s := s.setTrunk k { t with lock := if r.1 then .locked else .hunt, rx := r.2.1, rxT := t.rxT.drop (t.rx.length - r.2.1.length) }
  s.countBy 0x401E 16 16 r.2.2

/-- A byte arrives on UART trunk `k`. -/
def trunkRx (s : State) (k : Nat) (b : Byte) (t0 : Time) : State :=
  let t := s.trunk k
  if !t.up then s
  else
    let s := s.setTrunk k { t with rx := t.rx ++ [b], rxT := t.rxT ++ [t0] }
    if t.lock == .hunt then hunt s k else s

/-- The receive timeout on UART trunk `k` (R488): back to HUNT; a frame cut short is counted. -/
def trunkTimeout (s : State) (k : Nat) : State :=
  let t := s.trunk k
  let cut := match t.lock with
    | .locked => !t.rx.isEmpty
    | .hunt => decide (2 ≤ t.rx.length)
  let s := if cut then s.count 0x4022 16 16 else s
  let s := if t.lock == .locked then s.setBit 0x4010 9 else s
  s.setTrunk k { t with lock := .hunt, rx := [], rxT := [] }

/-- Whether counter `c` passes a neighbour's replay window (R493). -/
def replayOk (n : Nbr) (c : Nat) : Bool :=
  decide (n.high < c) || (decide (n.high < c + 32) && !n.seen.getLsbD (n.high - c))
/-- Record an accepted counter. -/
def replayTake (n : Nbr) (c : Nat) : Nbr :=
  if n.high < c then { n with high := c, seen := (if c - n.high < 32 then n.seen <<< (c - n.high) else 0#32) ||| 1#32 }
  else { n with seen := n.seen ||| (1#32 <<< (n.high - c)) }

/-- The nonce of a HELLO body, and whether it echoes `addr` with nonce `w` (Table 14-3). -/
def helloNonce (b : List Byte) : Word := BitVec.ofNat 32 (natBE ((b.drop 10).take 4))
def helloEchoes (b : List Byte) (addr : Nat) (w : Word) : Bool :=
  (List.range (byteAt b 14).toNat).any (fun j =>
    let e := b.drop (15 + 6 * j)
    decide (6 ≤ e.length) && natBE (e.take 2) % 4096 == addr && natBE ((e.drop 2).take 4) == w.toNat)

/-- A HELLO that restarts a neighbour's session (R493, R495): it echoes the current nonce and carries one not held. -/
def restarts (s : State) (k : Nat) (n : Option Nbr) (p : Pkt) : Bool :=
  p.typ == 6 && helloEchoes p.body (ownAddr s) (s.trunk k).nonce &&
  (match n with | some x => x.nonce != some (helloNonce p.body) | none => true)

/-- Steps 5 to 9 of Table 14-6 on a frame of trunk `k` whose CRC and next hop pass. `h` is H0 to H5 with the packet. -/
def judgeAuth (s : State) (k : Nat) (auth : Bool) (key sender : Nat) (h : List Byte) (tail : List Byte) (p : Pkt) (at_ : Time) : State :=
  let take := takeIn s { pkt := p, trunk := k, sender := sender, at_ := at_, ctr := natBE (tail.take 4) }
  if auth != utAuth s k || (auth && key != utKey s k) then s.count 0x4020 16 16
  else if !auth then take
  else
    let good := match trunkKey s key with
      | some w => (cmac w (h ++ tail.take 4)).take 4 == tail.drop 4
      | none => false
    if !good then (s.count 0x401F 0 16).setBit 0x4010 8
    else
      let c := natBE (tail.take 4)
      let j := nbrIdx s k sender
      let n := j.map s.nbr
      let again := restarts s k n p
      if !again && (match n with | some x => !replayOk x c | none => false) then s.count 0x401F 16 16
      else
        let s := match j with | some i => if again then s else s.setNbr i (replayTake (s.nbr i) c) | none => s
        let fresh := match n with | some x => x.st == .fresh | none => false
        if p.typ != 6 && !fresh then s.count 0x4020 0 16
        else takeIn s { pkt := p, trunk := k, sender := sender, at_ := at_, ctr := c }

/-- TRUNK_FRAME_JUDGE (R488, Table 14-6): the frame at the head of trunk `k`'s bytes, once its trailing sync is there. -/
def execTrunkFrameJudge (t : Fin 4) (s : State) : Res :=
  let k := t.val + 2
  let x := s.trunk k
  let lost := hunt ((((s.setTrunk k { x with lock := .hunt }).count 0x401E 16 16)).setBit 0x4010 9) k
  if x.lock != .locked || decide (x.rx.length < 6) then .next s
  else match utHeader x.rx with
    | none => .next lost
    | some (auth, len) =>
      let m := utBody auth len
      if x.rx.length < m + 2 then .next s
      else if !(byteAt x.rx m == 0xE2#8 && byteAt x.rx (m + 1) == 0x5D#8) then .next lost
      else
        let s := s.setTrunk k { x with rx := x.rx.drop (m + 2), rxT := x.rxT.drop (m + 2) }
        let body := x.rx.take (m - 4)
        if natBE ((x.rx.drop (m - 4)).take 4) ≠ (crc32 body).toNat then .next (s.count 0x401E 0 16)
        else
          let a := natBE ((x.rx.drop 2).take 3)
          if a / 4096 ≠ ownAddr s ∧ a / 4096 ≠ 0xFFF then .next s
          else match pktOf ((body.drop 6).take len) with
            | none => .next s
            | some p => .next (judgeAuth s k auth ((byteAt x.rx 0).toNat / 32 % 4) (a % 4096) (body.take (6 + len))
                (body.drop (6 + len)) p ((x.rxT[0]?).getD 0#80))

/-! ## Delivery (R507, R510) -/

/-- The ORIGIN of a cell from the fabric (Table 7-3). -/
def originOf (src scirc : Nat) : Nat := 2 ^ 22 + src % 4096 * 64 + scirc % 64

/-- Deliver a DATA packet into a cell of DCIRC (R510); whether it was delivered. `bad` is the circuit and cell in which local
delivery met an uncorrectable error (R583). A refused delivery owes a refused credit (R253); so does a point 2 failure, whose cell owes
no other (Table 8-3). -/
def deliver (s : State) (p : Pkt) (bad : Option (Nat × Nat)) : State :=
  match allocCirc s p.dcirc true (originOf p.src p.scirc) .fabric with
  | (none, s) => oweRefused s p.dcirc p.src p.scirc p.seq
  | (some i, s) =>
    let x := s.cell i
    let sum := crc32c p.body
    if bad.isSome || sum != p.sleeve then
      let s := releaseCell (s.setCell i { x with origin := 0 }) i
      let s := match bad with
        | some (c, j) => sleeveFail s 2 c j true p.sleeve 0#32
        | none => sleeveFail s 2 p.dcirc i false p.sleeve sum
      oweRefused s p.dcirc p.src p.scirc p.seq
    else
      let s := s.setCell i { x with payload := p.body, ts := p.ts, errChr := p.fl / 4 % 2 == 1, afterLoss := p.fl / 2 % 2 == 1,
                                    cont := p.fl % 2 == 1, pktSeq := p.seq }
      match closeCellAs s i p.dcirc 6 p.sleeve with
      | (true, s) => enqueueCell s p.dcirc i false
      | (false, s) => s

/-! ## Reorder contexts (R511–R515) -/

/-- Reorder context `r`. -/
def State.order (s : State) (r : Nat) : Reorder := fget (fun _ => {}) s.fab.orders r
/-- Set reorder context `r`. -/
def State.setOrder (s : State) (r : Nat) (x : Reorder) : State :=
  { s with fab := { s.fab with orders := fset (fun _ => {}) s.fab.orders r x } }

/-- The context of a pair. -/
def orderIdx (s : State) (src scirc dcirc : Nat) : Option Nat :=
  (s.fab.orders.find? (fun e => e.2.used && e.2.src == src && e.2.scirc == scirc && e.2.dcirc == dcirc)).map (·.1)

/-- A context for a pair that has none: a free one, else the least recently used without held packets (R511). -/
def newOrder (s : State) : Option Nat :=
  match (List.range 128).find? (fun r => !(s.order r).used) with
  | some r => some r
  | none => (((List.range 128).filter (fun r => (s.order r).held.isEmpty)).foldl (fun b r => match b with
      | none => some r
      | some m => if (s.order r).last.toNat < (s.order m).last.toNat then some r else some m) none)

/-- Release held packets from E on, as long as they follow in order. -/
def drainHeld (r : Nat) : Nat → State → State
  | 0, s => s
  | n + 1, s =>
    let x := s.order r
    match x.held.find? (fun p => p.seq == x.next) with
    | none => s
    | some p =>
      let s := s.setOrder r { x with next := (x.next + 1) % 65536, held := x.held.filter (fun q => q.seq != p.seq) }
      drainHeld r n (deliver s p none)

/-- How far number `b` lies after `a`, modulo 65 536. -/
def seqDist (a b : Nat) : Nat := (b + 65536 - a) % 65536

/-- Move E forward to `e`: held packets below it are released in order, and the numbers skipped are counted in GAPSKIP;
then what follows in order is released (R512, R513). -/
def skipTo (s : State) (r e : Nat) : State :=
  let x := s.order r
  let span := seqDist x.next e
  let below := x.held.filter (fun p => decide (seqDist x.next p.seq < span))
  let sorted := ((List.range 16).map (fun d => x.held.filter (fun p => seqDist x.next p.seq == d))).flatten.filter
    (fun p => decide (seqDist x.next p.seq < span))
  let s := s.setOrder r { x with next := e, held := x.held.filter (fun p => !decide (seqDist x.next p.seq < span)) }
  let s := s.countBy 0x401C 16 16 (span - below.length)
  drainHeld r 17 (forList sorted (fun s p => deliver s p none) s)

/-- Judge a DATA packet against context `r` (R512). -/
def judgeData (s : State) (r : Nat) (p : Pkt) : State :=
  let s := s.setOrder r { s.order r with last := s.now }
  let s := let d := seqDist (s.order r).next p.seq
           if 16 ≤ d ∧ d < 32768 then skipTo s r ((p.seq + 65536 - 15) % 65536) else s
  let x := s.order r
  let d := seqDist x.next p.seq
  if d = 0 then
    let s := s.setOrder r { x with next := (x.next + 1) % 65536 }
    drainHeld r 17 (deliver s p none)
  else if d ≤ 15 then
    if x.held.any (fun q => q.seq == p.seq) then s.count 0x401C 0 16 else s.setOrder r { x with held := x.held ++ [p] }
  else if seqBefore p.seq x.tomb then s.count 0x401D 0 16
  else s.count 0x401C 0 16

/-- DATA_RECEIVE (R477, R511, R512); a packet for a circuit whose system context is FAULTED waits (R318). -/
def execDataReceive (s : State) : Res :=
  .next (onPkt s (fun q => q.pkt.typ == 0 && !sysDown s q.pkt.dcirc && (forMe s q || q.pkt.dst == 0 || q.pkt.dst == 0xFFF)) (fun s q =>
    let p := q.pkt
    if p.dst == 0 || p.dst == 0xFFF then s.count 0x401B 0 16
    else match orderIdx s p.src p.scirc p.dcirc with
      | some r => judgeData s r p
      | none => match newOrder s with
        | some r => judgeData (s.setOrder r { used := true, src := p.src, scirc := p.scirc, dcirc := p.dcirc, next := p.seq,
                                              last := s.now }) r p
        | none => oweRefused (s.count 0x401D 16 16) p.dcirc p.src p.scirc p.seq))

/-- REORDER_GAP_EXPIRY (R513): E skips past a gap that has stood for REORDER, to the first packet held. -/
def execReorderGapExpiry (r : Fin 128) (s : State) : Res :=
  let x := s.order r.val
  if x.used && !x.held.isEmpty && !sysDown s x.dcirc then
    let d := x.held.foldl (fun m p => min m (seqDist x.next p.seq)) 65536
    .next (skipTo s r.val ((x.next + d) % 65536))
  else .next s

/-- REORDER_CONTEXT_IDLE (R511): a context without held packets that has been idle for 60 s is free. -/
def execReorderContextIdle (r : Fin 128) (s : State) : Res :=
  if (s.order r.val).held.isEmpty then .next (s.setOrder r.val {}) else .next s

/-! ## Relay (R476, R480, R509) -/

/-- PACKET_RELAY: a packet for another device goes on; one-hop packets and reserved types are never forwarded. -/
def execPacketRelay (s : State) : Res :=
  .next (onPkt s (fun q => !q.form0 && q.pkt.dst != 0xFFF && q.pkt.dst != 0 && q.pkt.dst != ownAddr s) (fun s q =>
    let p := q.pkt
    if ownAddr s == 0 then s
    else if 15 ≤ p.hops then s.count 0x401A 16 16
    else if 4 < p.typ then s
    else match bestPath s p.dst with
      | none => s.count 0x401B 0 16
      | some b => match allocSys s .relay with
        | (none, s) => s.count 0x401A 0 16
        | (some i, s) => { s with outQ := s.outQ ++ [{ pkt := { p with hops := p.hops + 1 }, cell := i, trunk := some b.trunk,
                                                       hop := b.hop, since := s.now }] }))

/-! ## Control packets (R514–R517) -/

/-- A control packet of type `t` for this device, whose circuit's system context is not FAULTED (R318). -/
def ctlFor (s : State) (t : Nat) (q : InPkt) : Bool := forMe s q && q.pkt.typ == t && !sysDown s q.pkt.dcirc

/-- CREDIT_RECEIVE (R254, R516). -/
def execCreditReceive (s : State) : Res :=
  .next (onPkt s (ctlFor s 1) (fun s q =>
    let g := (byteAt q.pkt.body 0).toNat
    let c := q.pkt.dcirc
    if seqBefore (natBE ((q.pkt.body.drop 2).take 2)) (s.circ c).tombSeq then s
    else (addCredits s c (g / 16 + g % 16)).countBy 0x4022 0 16 (g % 16)))

/-- Delivered cells of a pair not yet freed whose packet number is not before `tomb` (R515). -/
def heldFor (s : State) (src scirc dcirc tomb : Nat) : Nat :=
  countCells s (fun x => x.owner == .circ dcirc && x.origin == originOf src scirc && !seqBefore x.pktSeq tomb)

/-- PROBE_RECEIVE (R255, R515, R517). -/
def execProbeReceive (s : State) : Res :=
  .next (onPkt s (ctlFor s 2) (fun s q =>
    let p := q.pkt
    let t := natBE (p.body.take 2)
    let s := match orderIdx s p.src p.scirc p.dcirc with
      | some r => s.setOrder r { s.order r with tomb := t, last := s.now }
      | none => s
    let n := match orderIdx s p.src p.scirc p.dcirc with | some _ => heldFor s p.src p.scirc p.dcirc t | none => 0
    sendCtl s 3 p.src p.scirc p.dcirc (bytesBE 2 n ++ bytesBE 2 t)))

/-- PROBEREPLY_RECEIVE (R255, R517): CREDITS is INIT minus the cells held; a reply to an earlier TOMB is ignored. -/
def execProbereplyReceive (s : State) : Res :=
  .next (onPkt s (ctlFor s 3) (fun s q =>
    let c := q.pkt.dcirc
    let k := s.circ c
    if natBE ((q.pkt.body.drop 2).take 2) ≠ k.tombSeq then s
    else
      let n := cInit s c - natBE (q.pkt.body.take 2)
      let up := decide (k.credits < n)
      let s := s.setCirc c { k with credits := n }
      let s := if up then s.setBit (cAddr c 0x0D) 6 else s
      if k.credits == 0 && up then ctxEvent s c 5 else s))

/-- TOMB_RECEIVE (R514). One that finds no context counts in ORDFULL (R511). -/
def execTombReceive (s : State) : Res :=
  .next (onPkt s (ctlFor s 4) (fun s q =>
    let p := q.pkt
    let t := natBE (p.body.take 2)
    match (match orderIdx s p.src p.scirc p.dcirc with | some r => some r | none => newOrder s) with
    | none => s.count 0x401D 16 16
    | some r =>
      let x := s.order r
      let held := if x.used && x.src == p.src && x.scirc == p.scirc && x.dcirc == p.dcirc then
          x.held.filter (fun y => !seqBefore y.seq t) else []
      drainHeld r 17 (s.setOrder r { used := true, src := p.src, scirc := p.scirc, dcirc := p.dcirc, next := t, tomb := t,
                                     held := held, last := s.now })))

/-! ## Address claim (R497–R500) -/

/-- The auto candidate of attempt `a` (R499). -/
def autoAddr (s : State) (a : Nat) : Nat :=
  let lo := s.fld 0x4002 0 12
  let hi := s.fld 0x4002 16 12
  lo + (crc32c (bytesBE 8 s.chip.uid.toNat ++ [BitVec.ofNat 8 a])).toNat % (hi - lo + 1)

/-- Put a claim or defence on every trunk that is up (R497, R498). -/
def sendClaims (s : State) (addr : Nat) (owner strapped : Bool) : State :=
  forEach 6 (fun s k =>
    if !(s.trunk k).up then s
    else if k < 2 then { s with fab := { s.fab with claimQ := s.fab.claimQ ++ [{ chan := k, addr := addr, owner := owner, wait := false }] } }
    else sendHop s k 6 (if owner then 3 else 1) addr (helloBody s k strapped)) s

/-- Begin a claim of `addr` (R497): OWN reads 0, ASTATE claiming, the first claims go out. -/
def startClaim (s : State) (addr : Nat) (strapped : Bool) (attempt defeats : Nat) : State :=
  let s := ((s.setFld 0x4000 0 12 0).setFld 0x4000 12 2 1).setBit 0x4000 14 strapped
  let c : Claim := { active := true, addr := addr, strapped := strapped, step := 1, attempt := attempt, defeats := defeats }
  let s := { s with fab := { s.fab with claimQ := [], claim := c } }
  sendClaims s addr false strapped

/-- Claim the auto candidate of attempt `a`; after every 16 consecutive defeats wait 10 s first (R499). -/
def claimAuto (s : State) (a defeats : Nat) : State :=
  if defeats % 16 = 0 ∧ 0 < defeats then
    let s := ((s.setFld 0x4000 0 12 0).setFld 0x4000 12 2 0).setBit 0x4000 14 false
    { s with fab := { s.fab with claim := { attempt := a, defeats := defeats, backoff := true } } }
  else startClaim s (autoAddr s a) false a defeats

/-- Claim FAB_ADDR.REQ, or the first auto candidate where it is 0x000 (R497). A claim of REQ ends an earlier conflict. -/
def claimReq (s : State) : State :=
  let s := clearFault (s.setBit 0x4000 15 false) 7
  let req := s.fld 0x4001 0 12
  if req = 0 then claimAuto s 0 0 else startClaim s req true 0 0

/-- Precedence between two devices that want one address (R498): whether the other one, `(strapped, owner, uid)`, goes
first. -/
def goesFirst (strap owner : Bool) (uid : Nat) (mStrap mOwner : Bool) (mUid : Nat) : Bool :=
  if strap != mStrap then strap else if owner != mOwner then owner else decide (uid < mUid)

/-- The device is defeated (R498). -/
def defeated (s : State) (addr : Nat) (strapped : Bool) (uid : Nat) : State :=
  let c := s.fab.claim
  if strapped then
    let s := (s.setBit 0x4000 15).setBit 0x4010 1
    let s := raiseFault (journal s 0x81 (srcOf 0 0) (bytesBE 2 addr ++ bytesBE 8 uid)) 7
    claimAuto s 0 (c.defeats + 1)
  else claimAuto s (c.attempt + 1) (c.defeats + 1)

/-- Another device, with its precedence, names the claimed or owned address (R498, R500). `mUid` is the own UID, or the own
tag where a ROUTE entry gives only a tag. -/
def meetRival (s : State) (addr : Nat) (strap owner : Bool) (uid mUid : Nat) (defend : Bool) : State :=
  if uid = mUid then s
  else if addr = ownAddr s ∧ addr ≠ 0 then
    if goesFirst strap owner uid (ownStrapped s) true mUid then defeated s addr (ownStrapped s) uid
    else if defend then sendClaims s addr true (ownStrapped s) else s
  else if s.fab.claim.active ∧ addr = s.fab.claim.addr then
    if goesFirst strap owner uid s.fab.claim.strapped false mUid then defeated s addr s.fab.claim.strapped uid else s
  else s

/-- CLAIM_RECEIVE (R498): a claim or defence, as a FORM 0 frame or as a HELLO with CLAIM set. -/
def execClaimReceive (s : State) : Res :=
  .next (onPkt s (fun q => q.pkt.typ == 6 && q.pkt.fl % 2 == 1) (fun s q =>
    meetRival s q.pkt.src ((byteAt q.pkt.body 8).getLsbD 7) (q.pkt.fl / 2 % 2 == 1) (natBE (q.pkt.body.take 8))
      s.chip.uid.toNat true))

/-- Circuit `c` is left with no endpoint and disabled: cells that it holds by then drain (R263); out of FAULT it goes at once, with a
context start (R266, R305). -/
def unbind (s : State) (c : Nat) : State :=
  let s := (s.setFld (cAddr c 1) 0 2 0).setShad (cAddr c 1) (setF (s.shad (cAddr c 1)) 0 2 0)
  let s := (s.setFld (cAddr c 0) 0 1 0).setShad (cAddr c 0) (setF (s.shad (cAddr c 0)) 0 1 0)
  match (s.circ c).st with
  | .disabled => s
  | .run => enterDrain s c
  | .drain => drainCheck s c
  | .fault => leaveFault s c

/-- The Mantle-layer value of word `a` as the internal copy holds it (R70). -/
def mantleWord (s : State) (a : Nat) : Word := fget resetWord s.strap.mantle a

/-- The remote device that the layer gives circuit `c` of `selfTarget` where the own address is `own` (R66): the copy's, or the own
address XOR 1 where the copy leaves the peer open because no address was known. -/
def mantleDev (s : State) (own c : Nat) : Nat :=
  let d := getF (mantleWord s (cAddr c 1)) 16 12
  if d = 0 ∧ own ≠ 0 then Nat.xor own 1 else d

/-- The layer leaves circuit `c` without an endpoint: its target is the device itself (R67), or a peer address that is no device's. -/
def mantleGone (s : State) (own c : Nat) : Bool :=
  let d := mantleDev s own c
  own != 0 && (d == own || d == 0 || d == 0xFFF)

/-- The layer's value of word `a` for the own address as it stands (R66, R67, R72): the copy's, with the bindings resolved that depend
on that address (DEDUCED, log entry 29). The copy itself stays as it is (R70). -/
def layerWord (s : State) (a : Nat) : Word :=
  let w := mantleWord s a
  let c := (a - 0x1000) / 64
  let own := ownAddr s
  if a < 0x1000 ∨ 64 ≤ c ∨ own = 0 ∨ s.strap.selfTarget.contains c = false ∨ getF (mantleWord s (cAddr c 1)) 0 2 ≠ 2 then w
  else if mantleGone s own c then
    if a = cAddr c 1 then setF w 0 2 0 else if a = cAddr c 0 then setF w 0 1 0 else w
  else if a = cAddr c 1 then setF w 16 12 (mantleDev s own c)
  else if a = cAddr c 3 ∧ mantleDev s own c = 1 then setF w 0 8 2 else w

/-- Circuit `c` is still bound as the layer last bound it: KIND, the remote circuit and the remote device are the layer's for the
address with which they were computed. A binding that the host has changed is the host's (R33). -/
def atMantle (s : State) (c : Nat) : Bool :=
  let w := mantleWord s (cAddr c 1)
  s.strap.selfTarget.contains c && getF w 0 2 == 2 && cKind s c == 2 && cRcirc s c == getF w 8 6 &&
  cRdev s c == mantleDev s s.strap.boundOwn c

/-- Set a field of a word in the applied copy, and in the shadow where that holds the same value. -/
def setBoth (s : State) (a lo wd v : Nat) : State :=
  let s := if getF (s.shad a) lo wd = s.fld a lo wd then s.setShad a (setF (s.shad a) lo wd v) else s
  s.setFld a lo wd v

/-- The own address is known (R66, R67): a circuit that is still bound as the layer bound it is clamped to no endpoint where its target
is the device itself, with a record; one bound to the peer of an address that was not yet known takes that peer (DEDUCED, log
entry 29). -/
def selfBind (s : State) : State :=
  let own := ownAddr s
  if !s.strap.mantleOn || own == 0 then s
  else
    let t := forEach 64 (fun s c =>
      let dev := mantleDev s own c
      if !atMantle s c then s
      else if mantleGone s own c then (if dev = own then journal (unbind s c) 0x1A (srcOf 2 c) [] else unbind s c)
      else if cRdev s c = dev then s
      else
        let s := setBoth s (cAddr c 1) 16 12 dev
        if dev = 1 then setBoth s (cAddr c 3) 0 8 2 else s) s
    { t with strap := { t.strap with boundOwn := own } }

/-- CLAIM_TIMER (R497): the next 100 ms step of a claim; at 300 ms undefeated it is won. The own address is never an entry of the route
table, so one for it goes (R501). -/
def execClaimTimer (s : State) : Res :=
  let c := s.fab.claim
  if !c.active then .next s
  else if c.step < 3 then
    .next (sendClaims { s with fab := { s.fab with claim := { c with step := c.step + 1 } } } c.addr false c.strapped)
  else
    let s := (s.setFld 0x4000 0 12 c.addr).setFld 0x4000 12 2 2
    let s := { s with fab := { s.fab with ownTime := s.now, claim := { strapped := c.strapped, attempt := c.attempt } } }
    let s := journal (s.setBit 0x4010 0) 0x80 (srcOf 0 0) (bytesBE 2 c.addr ++ [BitVec.ofNat 8 (b2n c.strapped)])
    let s := match routeIdx s c.addr with | some i => putRoute s i { st := .empty, dst := 0 } | none => s
    let s := forEach 6 sendHello s
    .next (twinWatch (selfBind (assignPaths s none)))

/-- CLAIM_COLLISION_RETRY (R498): after its UID-derived delay a collided claim frame is sent again. -/
def execClaimCollisionRetry (ch : ChanId) (s : State) : Res :=
  .next { s with fab := { s.fab with claimQ := s.fab.claimQ.map (fun f => if f.chan == ch.val then { f with wait := false } else f) } }

/-- AUTO_CLAIM_BACKOFF (R499): the 10 s after 16 consecutive defeats have passed. -/
def execAutoClaimBackoff (s : State) : Res :=
  let c := s.fab.claim
  if c.backoff then .next (startClaim s (autoAddr s c.attempt) false c.attempt c.defeats) else .next s

/-- RECLAIM (R497). -/
def execReclaim (s : State) : Res := .next (viaHost s (fun s => claimReq s))

/-! ## HELLO and neighbours (R494–R496) -/

/-- Room for a neighbour on trunk `k`: 128 in all, 16 per UART trunk. -/
def nbrRoom (s : State) (k : Nat) : Option Nat :=
  let onK := (s.fab.nbrs.filter (fun e => e.2.st != .empty && e.2.trunk == k)).length
  if 2 ≤ k ∧ 16 ≤ onK then none else (List.range 128).find? (fun j => (s.nbr j).st == .empty)

/-- A HELLO's interval in 100 ms (Table 14-3). -/
def helloUnits (b : List Byte) : Nat := (byteAt b 9).toNat * (if (byteAt b 8).getLsbD 5 then 10 else 1)

/-- HELLO_RECEIVE (R494–R496, R500). -/
def execHelloReceive (s : State) : Res :=
  .next (onPkt s (fun q => !q.form0 && q.pkt.typ == 6 && q.pkt.fl % 2 == 0) (fun s q =>
    let b := q.pkt.body
    let k := q.trunk
    let uid := natBE (b.take 8)
    let s := meetRival s q.pkt.src ((byteAt b 8).getLsbD 7) true uid s.chip.uid.toNat true
    match (match nbrIdx s k q.pkt.src with | some j => some j | none => nbrRoom s k) with
    | none => s.count 0x4023 0 16
    | some j =>
      let n := s.nbr j
      let auth := utAuth s k
      let w := helloNonce b
      let echo := helloEchoes b (ownAddr s) (s.trunk k).nonce
      let st : NbrSt := if !auth then .plain else if echo then .fresh
        else if n.st == .fresh && n.nonce == some w then .fresh else .pending
      let again := auth && echo && n.nonce != some w
      let heard := auth && n.nonce != some w
      let non := if auth then some w else none
      let new := auth && n.st == .empty
      let hi := if again || new then q.ctr else n.high
      let seen := if again then 0#32 else if new then 1#32 else n.seen
      let n' : Nbr := ⟨st, q.pkt.src, k, BitVec.ofNat 64 uid, hi, seen, non, helloUnits b, s.now⟩
      let s := s.setNbr j n'
      let s := if n.st == .empty then { s with tim := { s.tim with refs := fset (fun _ => {}) s.tim.refs (16 + j) {} } } else s
      let s := if heard then s.setTrunk k { s.trunk k with helloDue := true } else s
      if (st == .plain && n.st == .empty) || (st == .fresh && n.st != .fresh) then sendFullUpdate (s.setBit 0x4010 2) k else s))

/-- HELLO_SEND (R495, R496): the interval of trunk `k` expires, or the HELLO owed for a new nonce is sent; of those at most one goes
each second, and one that comes sooner stays owed. -/
def execHelloSend (k : TrunkId) (s : State) : Res :=
  let t := s.trunk k.val
  let soon := match t.helloAt with | some a => withinSeconds 1 a s.now | none => false
  let owed := t.helloDue && !soon
  .next (sendHello (s.setTrunk k.val { t with helloDue := t.helloDue && soon, helloAt := if owed then some s.now else t.helloAt }) k.val)

/-- NEIGHBOUR_LOST (R496). -/
def execNeighbourLost (j : Fin 128) (s : State) : Res :=
  let dsts := s.fab.routes.map (fun e => e.2.dst)
  .next (forList dsts (fun s d => assignPaths s (some d)) (loseNbr s j.val))

/-! ## Routes (R502–R506) -/

/-- The trunk order of R503: CAN A, CAN B, UT0 to UT3, then the lower next hop. -/
def preferred (a b : RPath) : Bool := decide (a.trunk < b.trunk) || (a.trunk == b.trunk && decide (a.hop < b.hop))

/-- Rules 1 to 5 of R503 and R505 on entry `i`, for a candidate path. -/
def offer (s : State) (i : Nat) (dst tag : Nat) (strap : Bool) (p : RPath) : State :=
  let r := s.route i
  let up : Route := { r with tag := tag, strap := strap, fresh := s.now }
  match r.st with
  | .empty => if p.metric < 16 then putRoute s i { st := .valid, dst := dst, tag := tag, strap := strap, best := p, fresh := s.now } else s
  | .hold =>
    if (p.trunk == r.best.trunk && p.hop == r.best.hop && decide (p.metric < 16)) || decide (p.metric < r.best.metric)
    then putRoute s i { up with st := .valid, best := p, alt := none } else s
  | .valid =>
    let sameHop (x : RPath) := x.trunk == p.trunk && x.hop == p.hop
    if sameHop r.best then
      if p.metric < 16 then putRoute s i { up with best := p } else failBest s i
    else if p.metric < r.best.metric then
      putRoute s i { up with best := p, alt := if r.best.trunk != p.trunk then some r.best
                                         else r.alt.filter (fun a => a.trunk != p.trunk) }
    else if p.metric = r.best.metric ∧ preferred p r.best then
      putRoute s i { up with best := p, alt := if r.best.trunk != p.trunk then some r.best
                                         else r.alt.filter (fun a => a.trunk != p.trunk) }
    else if p.trunk ≠ r.best.trunk then
      (match r.alt with
       | none => if p.metric < 16 then s.setRoute i { r with alt := some p } else s
       | some a =>
         if sameHop a then s.setRoute i { r with alt := if p.metric < 16 then some p else none }
         else if p.metric < a.metric then s.setRoute i { r with alt := some p } else s)
    else s

/-- A place for a new destination: an empty entry, else the valid entry of highest metric above the candidate's (R506). -/
def routeRoom (s : State) (metric : Nat) : Option Nat :=
  match (List.range 256).find? (fun i => (s.route i).st == .empty) with
  | some i => some i
  | none => ((List.range 256).filter (fun i => (s.route i).st == .valid && decide (metric < (s.route i).best.metric))).foldl
      (fun b i => match b with
        | none => some i
        | some m => if (s.route m).best.metric < (s.route i).best.metric then some i else some m) none

/-- One entry of a ROUTE packet (R500, R503, R506). -/
def routeEntry (s : State) (k sender : Nat) (b : List Byte) : State :=
  let v := natBE b
  let dst := v / 2 ^ 20
  let m := v / 2 ^ 16 % 16
  let strap := v / 2 ^ 15 % 2 == 1
  let tag := v % 2 ^ 15
  let p : RPath := ⟨k, sender, if 15 ≤ m then 16 else m + 1⟩
  if dst == ownAddr s && dst != 0 then meetRival s dst strap true tag (s.chip.uid.toNat % 2 ^ 15) true
  else if dst == 0 || dst == 0xFFF then s
  else match routeIdx s dst with
    | some i => assignPaths (offer s i dst tag strap p) (some dst)
    | none =>
      if 16 ≤ p.metric then s
      else match routeRoom s p.metric with
        | some i => assignPaths (offer (s.setRoute i {}) i dst tag strap p) (some dst)
        | none => (s.count 0x4021 16 16).setBit 0x4010 10

/-- The entries of a ROUTE body after its four leading bytes. -/
def chunk4 : Nat → List Byte → List (List Byte)
  | 0, _ => []
  | n + 1, b => if b.length < 4 then [] else b.take 4 :: chunk4 n (b.drop 4)

/-- ROUTE_RECEIVE (R503). -/
def execRouteReceive (s : State) : Res :=
  .next (onPkt s (fun q => !q.form0 && q.pkt.typ == 5) (fun s q =>
    forList (chunk4 59 (q.pkt.body.drop 4)) (fun s b => routeEntry s q.trunk q.sender b) s))

/-- ROUTEUPD (R502): a full update now. -/
def doRouteupd (s : State) : State := forEach 6 sendFullUpdate s
def execRouteupd (s : State) : Res := .next (viaHost s (fun s => doRouteupd s))
/-- ROUTE_UPDATE_PERIOD (R502). -/
def execRouteUpdatePeriod (s : State) : Res := .next (forEach 6 sendFullUpdate s)
/-- TRIGGERED_UPDATE (R502). -/
def execTriggeredUpdate (k : TrunkId) (s : State) : Res := .next (sendTriggered s k.val)
/-- FAB_CLRCNT: FAB_ERR0 to FAB_ERR9. -/
def doFabClrcnt (s : State) : State := forEach 10 (fun s i => s.setReg (0x401A + i) 0#32) s
def execFabClrcnt (s : State) : Res := .next (viaHost s (fun s => doFabClrcnt s))

/-- HOLDDOWN_EXPIRY (R505): an entry still in hold-down is emptied. -/
def execHolddownExpiry (i : Fin 256) (s : State) : Res :=
  let r := s.route i.val
  if r.st == .hold then .next (putRoute s i.val { st := .empty, dst := 0 }) else .next s
/-- ROUTE_AGE_OUT (R504, R505): an entry not refreshed for 3 × RTPER. -/
def execRouteAgeOut (i : Fin 256) (s : State) : Res :=
  if (s.route i.val).st == .valid then .next (assignPaths (failBest s i.val) (some (s.route i.val).dst)) else .next s

/-! ## Hand-over and life (R507, R508, R584) -/

/-- PACKET_LIFE_EXPIRY (R508, R584): the packet in `cell` is discarded and its cell freed: a control packet that found no
route counts in NOROUTE, any other in LIFEDROP. -/
def execPacketLifeExpiry (cell : CellId) (s : State) : Res :=
  match s.outQ.find? (fun o => o.cell == cell.val) with
  | none => .next s
  | some o =>
    let s := { s with outQ := s.outQ.filter (fun p => p.cell != cell.val) }
    let s := if o.pkt.typ != 0 && o.trunk.isNone then s.count 0x401B 0 16 else s.count 0x401B 16 16
    .next (releaseCell s cell.val)

/-- The packet that carries a closed cell of circuit `c` (R479, R480). -/
def dataPkt (s : State) (c i : Nat) : Pkt :=
  let x := s.cell i
  { cls := x.cls, typ := 0, fl := b2n x.errChr * 4 + b2n x.afterLoss * 2 + b2n x.cont, dst := cRdev s c, src := ownAddr s,
    dcirc := cRcirc s c, scirc := c, hops := 1, seq := x.seq, ts := x.ts, sleeve := x.sleeve, body := x.payload }

/-- CELL_HANDOVER (R251, R318, R507): the head cell of circuit `c`'s queue, with credit and a valid route, is handed to the fabric;
one bound to the own address is delivered locally at once. -/
def execCellHandover (c : CircId) (s : State) : Res :=
  let c := c.val
  let k := s.circ c
  match k.queue with
  | [] => .next s
  | i :: t =>
    let path := bestPath s (cRdev s c)
    if cKind s c != 2 || k.st == .disabled || k.credits == 0 || ownAddr s == 0 || sysDown s c || !(boundLocal s c || path.isSome) then .next s
    else
      let p := dataPkt s c i
      let x := s.cell i
      let s := s.setCirc c { k with queue := t, credits := k.credits - 1, doneCnt := k.doneCnt + 1 }
      if boundLocal s c then
        let bad := x.poison || !x.bad.isEmpty
        let s := deliver s p (if bad then some (c, i) else none)
        .next (stallWatch (releaseCell (if bad then markRetire s i else s) i) c)
      else
        let s := s.setCell i { x with st := .taken, holder := .fabric }
        let (tr, h) := match path with | some b => (some b.trunk, b.hop) | none => (none, 0)
        .next (stallWatch { s with outQ := s.outQ ++ [{ pkt := p, cell := i, trunk := tr, hop := h, since := s.now }] } c)

end Sys2Proof.Machine
end

