-- ==== Sys2Proof/Machine/Ports.lean ====
section
/-! DEFINITION. Sys2Proof/Machine/Ports.lean: the asynchronous ports: receivers, transmitters, storms and gloving
(chapter 6, R555–R559). -/
namespace Sys2Proof.Machine

/-! ## Fields of a port's registers (Tables 6-3 to 6-6) -/

def pEn (s : State) (n : Nat) : Bool := s.bit (pAddr n 0) 0
def pCell (s : State) (n : Nat) : Bool := s.bit (pAddr n 0) 1
def pRole (s : State) (n : Nat) : Nat := s.fld (pAddr n 0) 2 2
def pEcho (s : State) (n : Nat) : Bool := s.bit (pAddr n 0) 6
def pErrDrop (s : State) (n : Nat) : Bool := s.bit (pAddr n 0) 7
def pNine (s : State) (n : Nat) : Bool := s.bit (pAddr n 2) 5
def pParity (s : State) (n : Nat) : Nat := s.fld (pAddr n 2) 2 2
def pDataBits (s : State) (n : Nat) : Nat := if pNine s n then 8 else 5 + s.fld (pAddr n 2) 0 2
def pFlow (s : State) (n : Nat) : Nat := s.fld (pAddr n 4) 0 2
def pAddrMode (s : State) (n : Nat) : Nat := s.fld (pAddr n 8) 0 2
/-- The feed circuit (R186). -/
def pFeed (s : State) (n : Nat) : Option Nat := if s.bit (pAddr n 3) 15 then some (s.fld (pAddr n 3) 8 6) else none
/-- Change port `n`. -/
def modPort (s : State) (n : Nat) (f : Port → Port) : State := s.setPort n (f (s.port n))
/-- The group of port `n`: four ports each. -/
def pGroup (n : Nat) : Nat := n / 4

/-- A port that is present and enabled while ports are live: not before step 9, nor in DORMANT (R124). -/
def pLive (s : State) (n : Nat) : Bool := present s n && pEn s n && s.boot.live && s.power.st != .dormant
/-- Port `n` has a CTS input: P00 to P07, but P07 not while AUX7 serves as HCO (R208). -/
def hasCts (s : State) (n : Nat) : Bool := decide (n < 8) && !(n == 7 && s.fld 0x105 9 2 == 1)
/-- The receiver ignores RXD: CTL is asserted as driver enable and ECHO is 0 (R219). -/
def rxMuted (s : State) (n : Nat) : Bool := pRole s n == 2 && (s.port n).de && !pEcho s n
/-- The receiver stops where it is: it must arm anew by R176. A received break ends unreported (DESIGN CHOICE, log entry 59). -/
def disarm (p : Port) : Port := { p with armed := false, rxBusy := false, rearm := false, early := false, lineBrk := false }

/-- An event for the feed circuit's context (Table 9-3); a port that carries a UART trunk has no feed circuit (R207). -/
def feedEvent (s : State) (n bit : Nat) : State :=
  if (portTrunk s n).isSome then s else match pFeed s n with | some c => ctxEvent s c bit | none => s

/-! ## Open receive cells (R191–R195) -/

/-- The open receive cell of circuit `c` from port `n`. -/
def openRx (s : State) (n c : Nat) : Option Nat :=
  (s.cells.find? (fun e => e.2.st == .openS && e.2.holder == .portRx n && e.2.owner == .circ c)).map (·.1)

/-- Close a receive cell. A profile 12 device that stands by discards and counts the cells its receivers produce (R68). -/
def closeRx (s : State) (i c cause : Nat) : State :=
  if twinRule s && s.strap.standby then (releaseCell s i).count (cAddr c 0x13) 16 16 else closeCell s i c cause

/-- Close every open receive cell of port `n` (R194). -/
def closeAllRx (s : State) (n cause : Nat) : State :=
  let l := s.cells.filter (fun e => e.2.st == .openS && e.2.holder == .portRx n)
  let s := forList l (fun s e => match e.2.owner with | .circ c => closeRx s e.1 c cause | _ => s) s
  modPort s n (fun p => { p with contOf := none })

/-! ## Storms and gloving (R181, R555–R558) -/

/-- The address of SUP_PGLnn. -/
def pglAddr (n : Nat) : Nat := 0x310 + n

/-- Begin gloving port `n` for `secs` seconds (R181, R556). -/
def gloveFor (s : State) (n secs : Nat) : State :=
  let s := modPort s n (fun p => { disarm p with gloved := true })
  let till := s.now.toNat + secs * 2 ^ 32
  let s := modPort s n (fun p => { p with clean := false, gloveEnd := till, looping := false })
  let s := s.setBit 0x30A n
  let s := raiseFault s 9
  trunkWatch (closeAllRx s n 5) .glove

/-- A port storms (R556). -/
def storm (s : State) (n : Nat) : State :=
  let lv := s.fld (pglAddr n) 8 4
  let f := (s.port n).stormOf
  let g (k : Nat) : Nat := min 65535 ((f[k]?).getD 0)
  let s := journal s 0x30 (srcOf 1 n) (BitVec.ofNat 8 lv :: (bytesBE 2 (g 0) ++ bytesBE 2 (g 1) ++ bytesBE 2 (g 2) ++ bytesBE 2 (g 3)))
  let s := (s.setFld (pglAddr n) 0 8 0).count (pglAddr n) 25 7
  let s := modPort s n (fun p => { p with stormOf := [0, 0, 0, 0] })
  let s := { (s.count 0x323 0 16).setBit 0x302 5 with sup := { s.sup with stormTime := s.now } }
  if s.bit 0x309 n then gloveFor (s.setFld (pglAddr n) 8 4 (min 8 (lv + 1))) n (2 ^ lv) else s

/-- One BRK, FE, PE or OVR event (`kind` 0 to 3) of port `n` fills its bucket (R555). -/
def stormEvent (s : State) (n kind : Nat) : State :=
  if !(present s n && pEn s n) then s
  else
    let s := s.count (pglAddr n) 0 8
    let s := modPort s n (fun p => { p with stormOf := listSet p.stormOf kind ((p.stormOf[kind]?).getD 0 + 1) })
    if s.fld 0x308 0 8 ≤ s.fld (pglAddr n) 0 8 ∧ (s.port n).gloved = false then storm s n else s

/-- A character is lost for want of room (R179). -/
def overrun (s : State) (n : Nat) : State :=
  let s := (s.count (pAddr n 0x1B) 16 16).setBit (pAddr n 0x13) 2
  stormEvent (modPort s n (fun p => { p with ovr := true })) n 3

/-! ## What the receiver decides (R169–R176, R178) -/

/-- The majority of samples 7, 8 and 9 (R173): true for mark. -/
def majority (x : Sample3) : Bool := x == 3#3 || x == 5#3 || x == 6#3 || x == 7#3

/-- The character has a parity or address mark bit (R169). -/
def pHasPar (s : State) (n : Nat) : Bool := pNine s n || pParity s n != 0

/-- Bit `k` of a character, in line order from the start bit. -/
def rxBit (r : RxBits) (k : Nat) : Bool := majority ((r.samples[k]?).getD 7#3)
/-- The place of the parity or mark bit, and of the first stop bit. -/
def rxParAt (s : State) (n : Nat) : Nat := 1 + pDataBits s n
def rxStopAt (s : State) (n : Nat) : Nat := 1 + pDataBits s n + b2n (pHasPar s n)

/-- The data bits, right-aligned (R171). -/
def rxData (s : State) (n : Nat) (r : RxBits) : Byte :=
  BitVec.ofNat 8 (wordOfBits ((List.range (pDataBits s n)).map (fun k => rxBit r (1 + k))))
/-- The parity or mark bit, and the stop bit, as decided. -/
def rxPar (s : State) (n : Nat) (r : RxBits) : Bool := pHasPar s n && rxBit r (rxParAt s n)
def rxStop (s : State) (n : Nat) (r : RxBits) : Bool := rxBit r (rxStopAt s n)
/-- Some bit's three samples did not all agree (R174). -/
def rxNoise (s : State) (n : Nat) (r : RxBits) : Bool :=
  (List.range (rxStopAt s n + 1)).any (fun k => let x := (r.samples[k]?).getD 7#3; x != 0#3 && x != 7#3)
/-- Sample 10 of a good stop bit is sample 0 of the next start bit although the line was at space at sample 9 as well (R175). -/
def rxRuns (s : State) (n : Nat) (r : RxBits) : Bool :=
  rxStop s n r && !((r.samples[rxStopAt s n]?).getD 7#3).getLsbD 0 && !r.next

/-- The error class of R178: 0 none, 1 PE, 2 FE, 3 BRK. -/
def charClass (s : State) (n : Nat) (r : RxBits) : Nat :=
  let b := rxData s n r
  let par := pParity s n
  let ones := ((List.range 8).filter (fun i => b.getLsbD i)).length + b2n (rxPar s n r)
  if b == 0#8 && !rxPar s n r && !rxStop s n r then 3
  else if !rxStop s n r then 2
  else if !pNine s n && ((par == 1 && ones % 2 == 1) || (par == 2 && ones % 2 == 0)) then 1
  else 0

/-- What a character brings beside its data: its flags, its check as computed at the stop-bit decision (R276), its timestamp. -/
structure RxIn where
  noise : Bool
  early : Bool
  check : Word
  t0 : Time
  deriving DecidableEq, Repr

/-! ## Storing a received character -/

/-- Write a character into circuit `c`'s open receive cell (R191, R192). The byte is folded into the sleeve and then held against the
character check that came with it; it is written only where both have passed (R277), and a failure is one of point 0 (Table 8-3).
`entry` is the match entry, 8 for none. -/
def storeCell (s : State) (n c entry : Nat) (b : Byte) (check : Word) (err : Bool) (t0 : Time) : State :=
  let got := match openRx s n c with
    | some i => (some i, s)
    | none =>
      match allocCirc s c true (entry * 16 + n) (.portRx n) with
      | (some i, s') => (some i, s'.setCell i { s'.cell i with ts := cellForm t0, cont := (s'.port n).contOf == some c })
      | (none, s') => (none, s')
  match got with
  | (none, s) => overrun (s.setCirc c { s.circ c with lossPend := true }) n
  | (some i, s) =>
    let s := modPort s n (fun p => { p with ovr := false, contOf := none })
    match appendByte s i b with
    | none => releaseCell (mergeFail (sleeveFail s 0 c i true 0#32 0#32) i) i
    | some t =>
      if crc32c [b] != check then releaseCell (sleeveFail s 0 c i false check (crc32c [b])) i
      else
      let s := t
      let x := s.cell i
      let s := s.setCell i { x with errChr := x.errChr || err }
      if (s.cell i).payload.length = 240 then modPort (closeRx s i c 0) n (fun p => { p with contOf := some c }) else s

/-- Put a character into the receive holding register with its check (R187, R189, R193). -/
def storeHold (s : State) (n : Nat) (c : RxIn) (b : Byte) (mark : Bool) (cls : Nat) : State :=
  match pFeed s n with
  | none => s
  | some f =>
    let p := s.port n
    if p.rxHold.isSome then overrun s n
    else
      let h : RxChar := ⟨b, mark, cls, p.ovr, c.noise, c.early, p.frame, c.t0, c.check⟩
      ctxEvent (s.setPort n { p with rxHold := some h, ovr := false }) f 0

/-- The first enabled entry that matches address `a`, with its circuit (R221). -/
def matchEntry (s : State) (n a : Nat) : Option (Nat × Nat) :=
  ((List.range 8).find? (fun e =>
    let w := pAddr n (9 + e)
    s.bit w 31 && Nat.land (Nat.xor a (s.fld w 0 8)) (s.fld w 8 8) == 0)).map (fun e => (e, s.fld (pAddr n (9 + e)) 16 6))

/-- A frame with no match, or whose circuit is disabled, is discarded and counted once (R224). -/
def noMatch (s : State) (n : Nat) : State :=
  let s := (s.count (pAddr n 0x1E) 0 16).setBit (pAddr n 0x13) 6
  modPort s n (fun p => { p with frame := 8, frameCirc := none, frameDrop := true, frameStart := false })

/-- A frame starts in CELL mode (R222, R223): the previous frame's cell closes, the entry is looked up. -/
def startFrame (s : State) (n : Nat) (b : Byte) (cls : Nat) : State :=
  let s := closeAllRx s n 3
  if cls ≠ 0 then noMatch s n
  else match matchEntry s n b.toNat with
    | some (e, c) =>
      if (s.circ c).st == .disabled then noMatch s n
      else modPort s n (fun p => { p with frame := e, frameCirc := some c, frameDrop := false, frameStart := false })
    | none => noMatch s n

/-- The frame state in HOLD mode, where address detection sorts nothing (R225). -/
def holdFrame (s : State) (n : Nat) (b : Byte) (cls : Nat) : State :=
  modPort s n (fun p => match (if cls = 0 then matchEntry s n b.toNat else none) with
    | some (e, c) => { p with frame := e, frameCirc := some c, frameStart := false }
    | none => { p with frame := 8, frameCirc := none, frameStart := false })

/-- The character begins a frame where address detection sorts characters (R222). -/
def startsFrame (s : State) (n : Nat) (mark : Bool) (cls : Nat) : Bool :=
  let am := pAddrMode s n
  (am == 1 && (s.port n).frameStart && !(pErrDrop s n && cls ≠ 0)) || (am == 2 && mark)

/-- A character that is not a break and not a flow character goes where the mode sends it (R180, R185–R193, R220–R226). -/
def routeChar (s : State) (n : Nat) (x : RxIn) (b : Byte) (mark : Bool) (cls : Nat) : State :=
  if pErrDrop s n && cls ≠ 0 then s
  else if !pCell s n then storeHold s n x b (pNine s n && mark) cls
  else if pAddrMode s n = 0 then
    match pFeed s n with
    | some c => storeCell s n c 8 b x.check (cls ≠ 0) x.t0
    | none => s
  else match (s.port n).frameCirc with
    | some c => if (s.port n).frameDrop then s else storeCell s n c (s.port n).frame b x.check (cls ≠ 0) x.t0
    | none => s

/-- The character is a flow character: 1 XON, 2 XOFF, 0 neither; over the configured data bits, of class none and mark bit 0 (R212).
One that matches both over those bits is XOFF (DESIGN CHOICE, log entry 59). -/
def flowKind (s : State) (n : Nat) (b : Byte) (mark : Bool) (cls : Nat) : Nat :=
  let m := 2 ^ pDataBits s n
  if pFlow s n ≠ 2 ∨ cls ≠ 0 ∨ (pNine s n && mark) then 0
  else if b.toNat = s.fld (pAddr n 5) 8 8 % m then 2
  else if b.toNat = s.fld (pAddr n 5) 0 8 % m then 1 else 0

/-- A received XON or XOFF (R212). -/
def flowChar (s : State) (n kind : Nat) : State :=
  if kind = 2 then
    let s := (s.count (pAddr n 0x1F) 0 16).setBit (pAddr n 0x13) 7
    if (s.port n).xstop then s else feedEvent (modPort s n (fun p => { p with xstop := true })) n 14
  else
    let s := (s.count (pAddr n 0x1F) 16 16).setBit (pAddr n 0x13) 8
    if (s.port n).xstop then feedEvent (modPort s n (fun p => { p with xstop := false })) n 14 else s

/-- R214: after an XOFF has been sent, XOFF is queued again after every further 64 characters while L stays at OFF or more. -/
def xoffAgain (s : State) (n : Nat) : State :=
  let p := s.port n
  if pFlow s n ≠ 2 ∨ p.xsent = false then s
  else if queueLevel s n < s.fld (pAddr n 4) 4 12 then s.setPort n { p with sinceXoff := 0 }
  else if 64 ≤ p.sinceXoff + 1 then s.setPort n { p with flowQ := some true, lastXoff := true, sinceXoff := 0 }
  else s.setPort n { p with sinceXoff := p.sinceXoff + 1 }

/-- The group clock of port `n` is being switched (R107). -/
def pSwitching (s : State) (n : Nat) : Bool := ((s.power.groups[pGroup n]?).map (·.switching)).getD false

/-- The receiver may take characters: armed, on a live port, not frozen, gloved or ignoring RXD (R176, R181, R219). Within
a group clock change only a character already begun is finished (R107). -/
def rxOn (s : State) (n : Nat) : Bool :=
  let p := s.port n
  (!pSwitching s n || p.rxBusy) &&
  pLive s n && p.armed && !p.frozen && !p.gloved && !s.power.relock && !rxMuted s n

/-- No feed circuit and no address detection: the port discards what it receives and counts it only in Pnn_RXCHR (R186). -/
def rxUnfed (s : State) (n : Nat) : Bool := (portTrunk s n).isNone && pAddrMode s n == 0 && (pFeed s n).isNone

/-- The characters of the present frame are discarded, counted only in Pnn_RXCHR (R224). -/
def rxDropped (s : State) (n : Nat) : Bool :=
  (portTrunk s n).isNone && pCell s n && pAddrMode s n != 0 && (s.port n).frameDrop

/-- The start bit decided as mark: the start is discarded as false (R173). -/
def falseStart (s : State) (n : Nat) : State := (modPort s n (fun p => { p with early := false })).count (pAddr n 0x1D) 0 16

/-- The flags and the class of a character, counted where its port does not discard it (R174, R175, R178, R186, R224). -/
def countChar (s : State) (n : Nat) (x : RxIn) (cls : Nat) : State :=
  let s := if x.noise then s.count (pAddr n 0x1C) 0 16 else s
  let s := if x.early then (s.count (pAddr n 0x1C) 16 16).setBit (pAddr n 0x13) 5 else s
  match cls with
  | 3 => s.count (pAddr n 0x1B) 0 16
  | 2 => (s.count (pAddr n 0x1A) 16 16).setBit (pAddr n 0x13) 3
  | 1 => (s.count (pAddr n 0x1A) 0 16).setBit (pAddr n 0x13) 4
  | _ => s

/-- A BRK, FE or PE event of the port fills its storm bucket (R555). -/
def stormClass (s : State) (n cls : Nat) : State :=
  match cls with | 3 => stormEvent s n 0 | 2 => stormEvent s n 1 | 1 => stormEvent s n 2 | _ => s

/-- The BRK character of a received break (R178, R182, R183). On a port that feeds nothing it is reported, not counted (R186). -/
def receiveBreak (s : State) (n : Nat) (x : RxIn) (b : Byte) (mark : Bool) : State :=
  let counted := !rxUnfed s n
  let s := (if counted then countChar s n x 3 else s).setBit (pAddr n 0x13) 0
  let s := modPort s n (fun p => { p with lineBrk := true, brkTime := s.now })
  let s := feedEvent s n 3
  let s := if (portTrunk s n).isSome then s
    else if pCell s n then closeAllRx s n 2 else storeHold s n x b mark 3
  if counted then stormClass s n 3 else s

/-- A character that is no break: a flow character, a trunk's, or one to be stored (R186, R207, R212). `b` is the byte as the receiver
decided it, `c` as it crossed to CORE. -/
def keepChar (s : State) (n : Nat) (x : RxIn) (b c : Byte) (mark : Bool) (cls : Nat) : State :=
  let k := flowKind s n b mark cls
  if k ≠ 0 then flowChar (if rxUnfed s n then s else countChar s n x cls) n k
  else match portTrunk s n with
    | some t => stormClass (trunkRx (countChar s n x cls) t c x.t0) n cls
    | none =>
      let s := if !startsFrame s n mark cls then s
        else if pCell s n then startFrame s n b cls else holdFrame s n b cls
      if rxUnfed s n || rxDropped s n then s else stormClass (routeChar (countChar s n x cls) n x c mark cls) n cls

/-- CHARACTER_RECEIVE (R169–R183, R185–R195, R212, R220–R229): the stop-bit decision. -/
def receiveChar (s : State) (n : Nat) (r : RxBits) : State :=
  if rxBit r 0 then falseStart (modPort s n (fun p => { p with rxBusy := false })) n
  else
    let b := rxData s n r
    let mark := pNine s n && rxPar s n r
    let cls := charClass s n r
    let x : RxIn := ⟨rxNoise s n r, (s.port n).early, crc32c [b], r.t0⟩
    let s := s.countWrap (pAddr n 0x18)
    let stop := rxStop s n r
    let s := modPort s n (fun p => { p with rxBusy := false, timeout := cls != 3, armed := stop, rearm := !stop && cls != 3,
                                            early := rxRuns s n r })
    let s := xoffAgain s n
    if cls = 3 then receiveBreak s n x 0#8 mark
    else keepChar s n x b (b ^^^ r.upset) mark cls
def execCharacterReceive (n : PortId) (r : RxBits) (s : State) : Res :=
  if rxOn s n.val then .next (receiveChar s n.val r) else .next s

/-! ## The receiver's other events -/

/-- START_BIT_VALIDATED (R172, R173, R196): samples 7, 8 and 9 of a start bit decide it as space: RXBUSY, and the receive timeout
stops. -/
def execStartBitValidated (n : PortId) (s : State) (x : Sample3 := 0#3) : Res :=
  if rxOn s n.val && !(s.port n.val).rxBusy && !majority x then .next (modPort s n.val (fun p => { p with rxBusy := true, timeout := false }))
  else .next s

/-- FALSE_START (R173): samples 7, 8 and 9 of a start bit decide it as mark; the receiver looks for the next falling transition. -/
def execFalseStart (n : PortId) (s : State) (x : Sample3 := 7#3) : Res :=
  if rxOn s n.val && !(s.port n.val).rxBusy && majority x then .next (falseStart s n.val) else .next s

/-- A lost character: Pnn_ERR3.LOST with its event; after a wake also CLK_WAKESRC.LOST (R109, R128, R176). -/
def loseChar (s : State) (n : Nat) : State :=
  let s := (s.count (pAddr n 0x1D) 16 16).setBit (pAddr n 0x13) 11
  if (s.port n).wakeArm then s.count 0x206 24 8 else s

/-- START_EDGE_BEFORE_ARMING (R109, R128, R176): not where the receiver ignores RXD (R219). -/
def execStartEdgeBeforeArming (n : PortId) (s : State) : Res :=
  let p := s.port n.val
  let up := pLive s n.val || (s.power.waking && present s n.val && pEn s n.val)
  if up && !p.gloved && !rxMuted s n.val && (p.frozen || pSwitching s n.val || !(p.armed || p.rearm || p.lineBrk)) then
    .next (loseChar s n.val)
  else .next s

/-- RECEIVER_ARM (R176, R222): 16 mark samples; a frame starts at the next stored character. -/
def execReceiverArm (n : PortId) (s : State) : Res :=
  let p := s.port n.val
  if pLive s n.val && !p.armed && !p.frozen && !p.gloved && !s.power.relock && !rxMuted s n.val then
    .next (s.setPort n.val { p with armed := true, rearm := false, lineBrk := false, early := false, wakeArm := false, frameStart := true,
                                    frame := 8, frameCirc := none, frameDrop := false })
  else .next s

/-- RECEIVER_REARM_AT_MARK (R175, R219). -/
def execReceiverRearmAtMark (n : PortId) (s : State) : Res :=
  let p := s.port n.val
  if pLive s n.val && p.rearm && !p.lineBrk && !p.frozen && !p.gloved && !s.power.relock && !rxMuted s n.val then
    .next (s.setPort n.val { p with armed := true, rearm := false })
  else .next s

/-- BREAK_END (R182, R196, R222): the first mark sample after a received break, which lasted `len` bit times. A port that has to arm
by R176 is in no received break (`disarm`). -/
def execBreakEnd (n : PortId) (len : BitVec 32) (s : State) : Res :=
  let p := s.port n.val
  if p.lineBrk && !p.gloved && !p.frozen && pLive s n.val && !s.power.relock && !rxMuted s n.val then
    let s := (s.setBit (pAddr n.val 0x13) 1).setFld (pAddr n.val 0x15) 0 16 (min 65535 len.toNat)
    let first := pAddrMode s n.val == 1
    .next (s.setPort n.val { p with lineBrk := false, armed := true, rearm := false, timeout := true, frameStart := p.frameStart || first })
  else .next s

/-- RECEIVE_TIMEOUT (R194, R196, R222, R488). -/
def execReceiveTimeout (n : PortId) (s : State) : Res :=
  let n := n.val
  let p := s.port n
  if !(p.timeout && pLive s n && !p.frozen) then .next s
  else
    let s := s.setPort n { p with timeout := false, timeoutTime := s.now }
    match portTrunk s n with
    | some k => .next (trunkTimeout s k)
    | none =>
      let s := closeAllRx s n 1
      let s := if pAddrMode s n = 0 then feedEvent s n 2
        else match (s.port n).frameCirc with | some c => ctxEvent s c 2 | none => s
      .next (if pAddrMode s n = 1 then
          modPort s n (fun p => { p with frameStart := true, frame := 8, frameCirc := none, frameDrop := false }) else s)

/-- CLOSE (R194): the open receive cells of all fed circuits. -/
def doClose (s : State) (n : Nat) : State := if present s n then closeAllRx s n 4 else s
def execClose (n : PortId) (s : State) : Res := .next (viaHost s (fun s => doClose s n.val))

/-- PORT_CLRCNT (R229): the counters of Table 6-9. -/
def doPortClrcnt (s : State) (n : Nat) : State :=
  if present s n then forEach 8 (fun s i => s.setReg (pAddr n (0x18 + i)) 0#32) s else s
def execPortClrcnt (n : PortId) (s : State) : Res := .next (viaHost s (fun s => doPortClrcnt s n.val))

/-! ## The transmitter (R168, R197–R201, R212–R219, R283–R287) -/

/-- The closed cells at the heads of the circuits bound to port `n`, with their circuits (R190, R198). -/
def egressHeads (s : State) (n : Nat) : List (Nat × Nat) :=
  (List.range 64).filterMap (fun c =>
    if cKind s c == 1 && cPort s c == n then (match (s.circ c).queue with | i :: _ => some (c, i) | [] => none) else none)

/-- How far circuit `c` lies after the one last served, within 64. -/
def afterServed (last c : Nat) : Nat := (c + 63 - last) % 64

/-- The circuit whose head cell goes next (R25, R198): highest class with aging, then round-robin. -/
def chooseEgress (s : State) (n : Nat) : Option (Nat × Nat) :=
  let key (e : Nat × Nat) : Nat := agedClass (s.cell e.2).cls (s.circ e.1).txLoss
  let last (k : Nat) : Nat := (((s.port n).lastTx)[k]?).getD 63
  (egressHeads s n).foldl (fun b e => match b with
    | none => some e
    | some m =>
      if key e < key m ∨ (key e = key m ∧ afterServed (last (key e)) e.1 < afterServed (last (key m)) m.1) then some e else some m) none

/-- Take circuit `c`'s head cell off its queue into STATE being taken. -/
def takeHead (s : State) (c i : Nat) (h : Holder) : State :=
  let s := s.setCirc c { s.circ c with queue := (s.circ c).queue.filter (· != i) }
  s.setCell i { s.cell i with st := .taken, holder := h }

/-- Select port `n`'s next cell (R198, R283): cells that fail the pre-verify are freed unsent (Table 8-3, point 4); `f` bounds
how many. -/
def selectTx (n : Nat) : Nat → State → State
  | 0, s => s
  | f + 1, s => match chooseEgress s n with
    | none => s
    | some (c, i) =>
      let k := agedClass (s.cell i).cls (s.circ c).txLoss
      let s := forList (egressHeads s n) (fun s e =>
        s.setCirc e.1 { s.circ e.1 with txLoss := if e.1 == c then 0 else (s.circ e.1).txLoss + 1 }) s
      let s := modPort s n (fun p => { p with lastTx := listSet p.lastTx k c })
      let s := takeHead s c i (.portTx n)
      let x := s.cell i
      if sleeveBad x then
        let un := x.poison || !x.bad.isEmpty
        let s := sleeveFail s 4 c i un x.sleeve (crc32c x.payload)
        selectTx n f (releaseCell (if un then markRetire s i else s) i)
      else modPort s n (fun p => { p with txCell := some i, txOff := 0 })

/-- A profile 12 device stands by: every port transmitter stays at mark (R68). -/
def standsBy (s : State) : Bool := twinRule s && s.strap.standby

/-- Select the next cell where port `n` takes one: cells wait in their circuits while the port is disabled or gloved, and stay there
where the device stands by (R68, R181, R206). -/
def prepareTx (s : State) (n : Nat) : State :=
  if (portTrunk s n).isSome || !pCell s n || (s.port n).txCell.isSome || !pLive s n || (s.port n).gloved || standsBy s then s
  else selectTx n 4096 s

/-- A data character is ready (R199 step 5, R285). -/
def dataReady (s : State) (n : Nat) : Bool :=
  match portTrunk s n with
  | some k => trunkReady s k
  | none =>
    if pCell s n then (s.port n).txCell.isSome
    else match (s.port n).txHold with | some h => !(h.last && h.wait.isSome) | none => false

/-- CTS as it counts at the decision point (R208). -/
def ctsOk (s : State) (n : Nat) : Bool := !hasCts s n || (s.port n).cts

/-- The transmitter may not start anything (R181, R199 step 1, R68, R109, R131). -/
def txHeld (s : State) (n : Nat) : Bool :=
  let p := s.port n
  !pLive s n || p.frozen || p.gloved || s.power.relock || isStaged s (.port n) || (standsBy s && p.txCell.isNone) || pSwitching s n

/-- What port `n`'s transmitter would send at a decision point (R199 steps 2 to 5). -/
def txChoice (s : State) (n : Nat) : Option TxItem :=
  let p := s.port n
  if p.brkReq then some .brk
  else if pFlow s n == 2 && p.flowQ.isSome then some .flow
  else if (pFlow s n == 1 && !ctsOk s n) || (pFlow s n == 2 && p.xstop) then none
  else if dataReady s n then some .data else none

/-- End the cell being taken: it is complete, or an abandoned one is let go of (R238, R241, R264). -/
def endTxCell (s : State) (n : Nat) (done : Bool) : State :=
  match (s.port n).txCell with
  | none => s
  | some i =>
    let s := modPort s n (fun p => { p with txCell := none, txOff := 0 })
    if done && !(s.cell i).abandon then completeCell s i else releaseCell s i

/-- Let go of an abandoned cell at a decision point (R199, R262, R264). -/
def dropAbandoned (s : State) (n : Nat) : State :=
  match (s.port n).txCell with
  | some i => if (s.cell i).abandon then endTxCell s n false else s
  | none => s

/-- Take the next byte of the cell being taken (R283, R284): none where the running check fails, which ends the cell. The first byte
carries the address mark where TXMARK is 1 (R201). -/
def cellByte (s : State) (n : Nat) : Option (Byte × Bool) × State :=
  match (s.port n).txCell with
  | none => (none, s)
  | some i =>
    let x := s.cell i
    let off := (s.port n).txOff
    let bad := x.bad.contains (wordOfByte off)
    let isLast := decide (x.payload.length ≤ off + 1)
    if bad || (isLast && crc32c x.payload != x.sleeve) then
      let c := match x.owner with | .circ c => c | _ => 0
      let s := if bad then readEcc s i (wordOfByte off) else s
      let s := sleeveFail s 5 c i bad x.sleeve (crc32c x.payload)
      (none, endTxCell (if bad then markRetire s i else s) n false)
    else
      let s := modPort s n (fun p => { p with txOff := off + 1 })
      (some ((x.payload[off]?).getD 0#8, off == 0 && s.bit (pAddr n 8) 4), if isLast then prepareTx (endTxCell s n true) n else s)

/-- A character on TXD (R169, R171): start bit, the low-order data bits least significant first, the parity or mark bit, the stop
bits. -/
def charLine (s : State) (n : Nat) (b : Byte) (mark : Bool) : List (Bool × Nat) :=
  let data := (List.range (pDataBits s n)).map (fun i => b.getLsbD i)
  let odd := (data.filter id).length % 2 == 1
  let par := if pNine s n then [mark] else match pParity s n with | 1 => [odd] | 2 => [!odd] | _ => []
  (false, 1) :: (data ++ par).map (fun v => (v, 1)) ++ [(true, if s.bit (pAddr n 2) 4 then 2 else 1)]

/-- A break and its mark-after-break on TXD (R184). -/
def breakLine (s : State) (n : Nat) : List (Bool × Nat) := [(false, s.fld (pAddr n 7) 0 12), (true, s.fld (pAddr n 7) 16 8)]

/-- A character enters the shifter. -/
def sendChar (s : State) (n : Nat) (b : Byte) (mark : Bool) : State :=
  let l := charLine s n b mark
  modPort s n (fun p => { p with tx := .char, line := l })

/-- The held character's check does not match as it enters the shifter (R285): it is not sent; the failure is counted and reported as
one at point 5, charged to the feed circuit (DESIGN CHOICE, log entry 60: Table 8-3 names no outcome for it). -/
def failHeld (s : State) (n : Nat) (h : TxChar) : State :=
  let s := feedEvent (modPort s n (fun p => { p with txHold := none })) n 1
  match pFeed s n with
  | some c => sleeveFail s 5 c 0 false h.check (crc32c [h.data])
  | none => s

/-- Begin the chosen item on the line; false where a data character turns out not to be sendable. -/
def txBegin (s : State) (n : Nat) (it : TxItem) : Bool × State :=
  match it with
  | .brk =>
    let l := breakLine s n
    (true, modPort s n (fun p => { p with tx := .brk, line := l, brkReq := false }))
  | .flow =>
    let off := (s.port n).flowQ == some true
    let s := sendChar s n (BitVec.ofNat 8 (s.fld (pAddr n 5) (if off then 8 else 0) 8)) false
    (true, modPort s n (fun p => { p with flowQ := none, xsent := off, sinceXoff := if off then 0 else p.sinceXoff }))
  | .data =>
    match portTrunk s n with
    | some k => match trunkByte s k with
      | (some b, s) => (true, sendChar s n b false)
      | (none, s) => (false, s)
    | none =>
      if pCell s n then
        match cellByte s n with
        | (some b, s) => (true, sendChar s n b.1 b.2)
        | (none, s) => (false, s)
      else match (s.port n).txHold with
        | some h =>
          if crc32c [h.data] != h.check then (false, failHeld s n h)
          else (true, feedEvent (modPort (sendChar s n h.data h.mark) n (fun p => { p with txHold := none })) n 1)
        | none => (false, s)

/-- The driver enable asserts (R217, R219): a character being received is abandoned where ECHO is 0. -/
def deAssert (s : State) (n : Nat) : State :=
  let p := s.port n
  let s := s.setPort n { p with de := true }
  if pEcho s n then s
  else
    let s := if p.rxBusy then loseChar s n else s
    modPort s n (fun p => { p with rxBusy := false, armed := false, rearm := false, early := false })

/-- The driver enable releases (R218, R219). -/
def deRelease (s : State) (n : Nat) : State :=
  modPort s n (fun p => { p with de := false, tx := .idle, rearm := p.rearm || (!pEcho s n && !p.armed) })

/-- Nothing is sent: idle, or the driver-enable lag first (R218); TXIDLE where no egress waits. -/
def txIdle (s : State) (n : Nat) : State :=
  let s := if pRole s n == 2 && (s.port n).de then
      (if s.fld (pAddr n 6) 8 8 = 0 then deRelease s n else modPort s n (fun p => { p with tx := .lag }))
    else modPort s n (fun p => { p with tx := .idle })
  if (egressHeads s n).isEmpty && !dataReady s n && !txHeld s n then s.setBit (pAddr n 0x13) 10 else s

/-- A decision point (R199): `f` bounds retries after cells that cannot be sent. -/
def txDecide (n : Nat) : Nat → State → State
  | 0, s => txIdle s n
  | f + 1, s =>
    let s := dropAbandoned s n
    if txHeld s n then txIdle s n
    else
      let s := prepareTx s n
      match txChoice s n with
      | none => txIdle s n
      | some it =>
        if pRole s n == 2 && !(s.port n).de then
          let s := deAssert s n
          if s.fld (pAddr n 6) 0 8 = 0 then
            match txBegin s n it with
            | (true, s) => s
            | (false, s) => txDecide n f s
          else modPort s n (fun p => { p with tx := .lead, item := it })
        else match txBegin s n it with
          | (true, s) => s
          | (false, s) => txDecide n f s

/-- What stood on TXD has ended: the line is at mark. -/
def endLine (s : State) (n : Nat) : State := modPort s n (fun p => { p with line := [] })

/-- TRANSMITTER_START (R168, R199, R217, R218): a bit tick of an idle transmitter, or within the lag: a decision point, at which an
abandoned cell is let go of even where nothing may start. -/
def execTransmitterStart (n : PortId) (s : State) : Res :=
  let n := n.val
  let p := s.port n
  if (p.tx != .idle && p.tx != .lag) || p.frozen then .next s
  else
    let s := dropAbandoned s n
    if txHeld s n then .next s
    else
      let s := prepareTx s n
      if (txChoice s n).isSome then .next (txDecide n 4 s) else .next s

/-- TRANSMIT_CHARACTER_DONE (R199, R200, R229). -/
def execTransmitCharacterDone (n : PortId) (s : State) : Res :=
  if (s.port n.val).tx == .char then .next (txDecide n.val 4 (endLine (s.countWrap (pAddr n.val 0x19)) n.val)) else .next s

/-- BREAK_SEND_END (R184, R199): the break and its mark-after-break have ended. -/
def execBreakSendEnd (n : PortId) (s : State) : Res :=
  if (s.port n.val).tx == .brk then .next (txDecide n.val 4 (endLine s n.val)) else .next s

/-- DE_LEAD_END (R217). -/
def execDeLeadEnd (n : PortId) (s : State) : Res :=
  let p := s.port n.val
  if p.tx == .lead then
    let s := dropAbandoned s n.val
    if txHeld s n.val then .next (txIdle s n.val)
    else match txBegin s n.val p.item with
    | (true, s) => .next s
    | (false, s) => .next (txDecide n.val 4 s)
  else .next s

/-- DE_LAG_END (R218). -/
def execDeLagEnd (n : PortId) (s : State) : Res :=
  if (s.port n.val).tx == .lag then .next (deRelease s n.val) else .next s

/-- SENDBRK (R184): merged while a break is pending or in progress. The mark-after-break belongs to the break in progress, so a request
made in it is merged too; on a disabled port the request stays pending until the port is enabled (DESIGN CHOICE, log entry 59). -/
def doSendbrk (s : State) (n : Nat) : State :=
  if present s n && (s.port n).tx != .brk then modPort s n (fun p => { p with brkReq := true }) else s
def execSendbrk (n : PortId) (s : State) : Res := .next (viaHost s (fun s => doSendbrk s n.val))

/-- The synchronised CTS levels when the Mantle layer has been applied, before which CTS is ignored (R44, R208); a port without CTS
counts it as asserted. -/
def putCts (s : State) : State :=
  forEach 16 (fun s n =>
    let on := !hasCts s n || (s.strap.auxPins.getLsbD n == s.bit (pAddr n 0) 5)
    if present s n then modPort s n (fun p => { p with cts := on }) else s) s

/-- CTS_CHANGE (R44, R208): AUXn takes `level`; CTS is asserted low when CTSPOL is 0. Until the Mantle layer is applied the device ignores
CTS. -/
def execCtsChange (n : Fin 8) (level : Bool) (s : State) : Res :=
  let n := n.val
  let bit : BitVec 8 := BitVec.ofNat 8 (2 ^ n)
  let pins := if level then s.strap.auxPins ||| bit else s.strap.auxPins &&& ~~~bit
  let s := { s with strap := { s.strap with auxPins := pins } }
  let on := level == s.bit (pAddr n 0) 5
  if !s.boot.mantled || !present s n || !hasCts s n || (s.port n).cts == on then .next s
  else
    let s := (modPort s n (fun p => { p with cts := on })).setBit (pAddr n 0x13) 9
    .next (if pFlow s n = 1 then feedEvent s n 14 else s)

end Sys2Proof.Machine
end

