-- ==== Sys2Proof/Machine/Can.lean ====
section
/-! DEFINITION. Sys2Proof/Machine/Can.lean: the CAN channels: integration, frames received and sent, errors, message
objects, one-shot mode and cancellation (chapter 13). -/
namespace Sys2Proof.Machine

/-! ## Access -/

/-- The channel takes part in the bus: integrated, not off the bus, and not in DORMANT, where CRX is ignored (R124, R467). -/
def canListens (s : State) (ch : Nat) : Bool :=
  ((s.can ch).st == .active || (s.can ch).st == .passive) && s.power.st != .dormant
/-- CANx_MODE.MODE: 0 OFF, 1 NORMAL, 2 RESTRICTED, 3 LOOP. -/
def canMode (s : State) (ch : Nat) : Nat := s.fld (chAddr ch 0) 0 2
def canFd (s : State) (ch : Nat) : Bool := s.bit (chAddr ch 0) 4
/-- CANx_TREF.ROLE: 0 OFF, 1 FOLLOWER, 2 POTENTIAL MASTER. -/
def canTimeRole (s : State) (ch : Nat) : Nat := s.fld (chAddr ch 5) 0 2
/-- A field of CANx_OBJi_CFG. -/
def oCfg (s : State) (ch i lo wd : Nat) : Nat := s.fld (oAddr ch i 0) lo wd
/-- Object `i` is enabled and its memory is sound (R468). -/
def oOn (s : State) (ch i : Nat) : Bool := oCfg s ch i 0 1 == 1 && !(s.obj ch i).bad
def oTx (s : State) (ch i : Nat) : Bool := oCfg s ch i 1 1 == 1
def oCircKind (s : State) (ch i : Nat) : Bool := oCfg s ch i 2 2 == 1
def oTagged (s : State) (ch i : Nat) : Bool := oCfg s ch i 4 1 == 1
def oCirc (s : State) (ch i : Nat) : Nat := oCfg s ch i 16 6
def oOneShot (s : State) (ch i : Nat) : Bool := oCfg s ch i 8 1 == 1
/-- Raise a bit of CANx_EVT. -/
def canEvt (s : State) (ch bit : Nat) : State := s.setBit (chAddr ch 8) bit

/-- CANx_STAT.STATE. -/
def canStCode : CanSt → Nat
  | .off => 0 | .integrating => 1 | .active => 2 | .passive => 3 | .recovering => 4 | .held => 5
/-- CANx_STAT.ROLE. -/
def canRoleCode : CanRole → Nat
  | .off => 0 | .follower => 1 | .backup => 2 | .master => 3

/-- Change the time role (R473): TROLE and a time-master-change record. The channel's reference may be selected in some roles only
(R532). -/
def setRole (s : State) (ch : Nat) (r : CanRole) : State :=
  let old := (s.can ch).role
  if old = r then s
  else
    let s := canEvt (modCan s ch (fun x => { x with role := r })) ch 10
    reselect (journal s 0x71 (srcOf 4 ch) [BitVec.ofNat 8 (canRoleCode old), BitVec.ofNat 8 (canRoleCode r)])

/-- The role that the configuration gives an integrated channel (R469). -/
def restRole (s : State) (ch : Nat) : CanRole :=
  match canTimeRole s ch with | 0 => .off | 1 => .follower | _ => .backup

/-- Change the channel's state: CANx_EVT.STATE; a channel that is not integrated has no time role (R469), in bus-off too, whose recovery
completes an integration (DEDUCED, log entry 72); the trunk it carries follows (R485). -/
def setCanSt (s : State) (ch : Nat) (st : CanSt) (c : DownCause) : State :=
  let old := (s.can ch).st
  let s := modCan s ch (fun x => { x with st := st })
  let s := if old = st then s else canEvt s ch 0
  let s := match st with
    | .active => s
    | .passive => s
    | _ => setRole s ch .off
  trunkWatch s c

/-- Start bus integration (R445, R447): counters cleared where `clear`, pending frames kept. -/
def integrate (s : State) (ch : Nat) (clear : Bool) (c : DownCause) : State :=
  let s := modCan s ch (fun x => { x with onBus := none, refDue := false, refPlan := false, tec := if clear then 0 else x.tec,
                                          rec_ := if clear then 0 else x.rec_ })
  setCanSt s ch (if canMode s ch = 0 then .off else .integrating) c

/-- Follow the error counters (R433, R462): WARN, error-passive. -/
def watchErrors (s : State) (ch : Nat) : State :=
  let x := s.can ch
  let warn := decide (96 ≤ x.tec) || decide (96 ≤ x.rec_)
  let s := if warn && !s.bit (chAddr ch 7) 3 then canEvt s ch 1 else s
  let s := s.setBit (chAddr ch 7) 3 warn
  if x.st == .active || x.st == .passive then
    setCanSt s ch (if 128 ≤ x.tec ∨ 128 ≤ x.rec_ then .passive else .active) .busoff
  else s

/-- CAN_INTEGRATED (R121, R445, R469). -/
def execCanIntegrated (ch : ChanId) (s : State) : Res :=
  let ch := ch.val
  if (s.can ch).st != .integrating || s.power.relock || !s.boot.live || s.power.st == .dormant then .next s
  else
    let x := s.can ch
    let s := setCanSt s ch (if 128 ≤ x.tec ∨ 128 ≤ x.rec_ then .passive else .active) .restart
    .next (setRole s ch (restRole s ch))

/-! ## Receiving (R450–R452, R463) -/

/-- The acceptance test of R450. -/
def accepts (s : State) (ch i : Nat) (f : CanFrame) : Bool :=
  let idw := s.reg (oAddr ch i 1)
  let mw := s.reg (oAddr ch i 2)
  oOn s ch i && !oTx s ch i &&
  Nat.land (Nat.xor f.id (getF idw 0 29)) (getF mw 0 29) == 0 && (!bitF mw 31 || f.xtd == bitF idw 31) &&
  (if f.fdf then oCfg s ch i 25 1 == 1 else if f.rtr then oCfg s ch i 26 1 == 1 else oCfg s ch i 24 1 == 1)

/-- A reference message identifier of this node's set (R469). -/
def isRefId (s : State) (ch : Nat) (f : CanFrame) : Bool :=
  canTimeRole s ch != 0 && !f.xtd && f.id / 8 % 256 == s.fld (chAddr ch 5) 8 11 / 8

/-- The tagged header of a frame received by object `i` (Table 13-3). -/
def tagHeader (f : CanFrame) (i : Nat) : List Byte :=
  bytesBE 4 (b2n f.xtd * 2 ^ 31 + f.id % 2 ^ 29) ++
  [BitVec.ofNat 8 (b2n f.fdf * 128 + b2n f.brs * 64 + b2n f.esi * 32 + b2n f.rtr * 16 + f.dlc % 16), BitVec.ofNat 8 i]

/-- Count a frame lost to object `i` (R451, R452). -/
def objLost (s : State) (ch i : Nat) : State :=
  canEvt ((s.count (oAddr ch i 5) 16 16).count (chAddr ch 0x0F) 16 16) ch 7

/-- Write a frame into a cell for circuit-kind object `i` (R452); `valid` is false where an error ends the frame before it
becomes valid, which discards the cell. -/
def objCell (s : State) (ch i : Nat) (f : CanFrame) (t0 : Time) (valid : Bool) : State :=
  let c := oCirc s ch i
  match allocCirc s c true (3 * 2 ^ 22 + 0x3F) (.canRx ch i) with
  | (none, s) => objLost s ch i
  | (some j, s) =>
    let s := s.setCell j { s.cell j with ts := cellForm t0 }
    match writeBytes s j ((if oTagged s ch i then tagHeader f i else []) ++ f.data) 0 with
    | (false, _, s) => discardIngress s c j
    | (true, _, s) =>
      if !valid then releaseCell s j
      else
        let s := s.count (oAddr ch i 5) 0 16
        closeCell (if (s.cell j).payload.isEmpty then s else canEvt s ch 6) j c 6

/-- Store a frame in register-kind object `i` (R451). -/
def objStore (s : State) (ch i : Nat) (f : CanFrame) (t0 : Time) : State :=
  if 8 < f.data.length then objLost s ch i
  else
    let st := oAddr ch i 4
    let s := if s.bit st 12 then objLost (s.setBit st 13) ch i else s
    let s := s.setObj ch i { s.obj ch i with frame := f, ts := cellForm t0 }
    canEvt ((s.setBit st 12).count (oAddr ch i 5) 0 16) ch 6

/-- Offer a frame to the objects (R450). -/
def offerObjects (s : State) (ch : Nat) (f : CanFrame) (t0 : Time) : State :=
  match (List.range 128).find? (fun i => accepts s ch i f) with
  | none => s.count (chAddr ch 0x0F) 0 16
  | some i => if oCircKind s ch i then objCell s ch i f t0 true else objStore s ch i f t0

/-- A valid frame goes to the fabric buffer, the time function or the objects (R463). -/
def frameIn (s : State) (ch : Nat) (f : CanFrame) (t0 : Time) : State :=
  if (s.trunk ch).up && inFabricRange s f then
    { s with fab := { s.fab with segQ := s.fab.segQ ++ [(ch, f, t0)] } }
  else if isRefId s ch f then modCan s ch (fun x => { x with refIn := x.refIn ++ [(f, t0)] })
  else offerObjects s ch f t0

/-- CAN_FRAME_RECEIVED (R450): a frame that becomes valid; `t0` is the sample point of its start of frame. The channel has given its ACK
bit, whatever takes the frame (R434). The receive error counter falls as ISO 11898-1 gives (R464); from above 127 it takes a value from
119 to 127. -/
def execCanFrameReceived (ch : ChanId) (f : CanFrame) (t0 : BitVec 80) (s : State) : Res :=
  let ch := ch.val
  let x := s.can ch
  if !canListens s ch || (f.fdf && !canFd s ch) || canMode s ch == 3 then .next s
  else
    let r := if canMode s ch = 2 then x.rec_
      else if 127 < x.rec_ then 119 + (Config.recAfter s.fresh).val else x.rec_ - 1
    let s := { modCan s ch (fun x => { x with rec_ := r, ack := true }) with fresh := s.fresh + 1 }
    .next (frameIn (watchErrors (s.countWrap (chAddr ch 0x0B)) ch) ch f t0)

/-! ## Circuit-kind transmit objects (R454–R456) -/

/-- Object `i` of channel `ch` serves circuit `c`: enabled, transmit, circuit kind, naming it. -/
def namesCirc (s : State) (c ch i : Nat) : Bool := oOn s ch i && oTx s ch i && oCircKind s ch i && oCirc s ch i == c
/-- The object that consumes circuit `c`'s cells: the lowest-numbered on channel A, then on B; only for a circuit bound to
host (R454). -/
def servingObj (s : State) (c : Nat) : Option (Nat × Nat) :=
  if cKind s c != 3 then none
  else match (List.range 128).find? (namesCirc s c 0) with
    | some i => some (0, i)
    | none => ((List.range 128).find? (namesCirc s c 1)).map (fun i => (1, i))

/-- A frame of object `i` as its configuration gives it, with FDEN applied (R435, R453, R455). -/
def cfgFrame (s : State) (ch i dlc : Nat) (data : List Byte) : CanFrame :=
  let fd := oCfg s ch i 5 1 == 1 && canFd s ch
  { xtd := s.bit (oAddr ch i 1) 31, id := s.fld (oAddr ch i 1) 0 29, rtr := oCfg s ch i 7 1 == 1 && !fd, fdf := fd,
    brs := fd && oCfg s ch i 6 1 == 1, esi := false, dlc := dlc,
    data := if oCfg s ch i 7 1 == 1 && !fd then [] else data }

/-- The frame that object `i` sends for a cell's payload; none where R455 frees the cell unsent. A tagged header's FDF takes effect only
on an FD object of a channel with FDEN (R435), and with it the data lengths of FD frames. -/
def cellFrame (s : State) (ch i : Nat) (b : List Byte) : Option CanFrame :=
  let fdObj := oCfg s ch i 5 1 == 1 && canFd s ch
  if !oTagged s ch i then
    let n := b.length
    if (!fdObj && 8 < n) || 64 < n then none
    else
      let d := dlcFor n
      some (cfgFrame s ch i d (b ++ List.replicate (dlcLen fdObj d - n) 0xCC#8))
  else
    let w := natBE (b.take 4)
    let h := (byteAt b 4).toNat
    let id := w % 2 ^ 29
    let xtd := decide (2 ^ 31 ≤ w)
    let fdf := decide (128 ≤ h)
    let fd := fdf && fdObj
    let rtr := h / 16 % 2 == 1 && !fd
    let len := if rtr then 0 else dlcLen fd (h % 16)
    let mw := s.reg (oAddr ch i 2)
    let idw := s.reg (oAddr ch i 1)
    let idOk := Nat.land (Nat.xor id (getF idw 0 29)) (getF mw 0 29) == 0 && (!bitF mw 31 || xtd == bitF idw 31)
    if b.length ≠ 6 + len ∨ b.length < 6 ∨ !idOk then none
    else some { xtd := xtd, id := id, rtr := rtr, fdf := fd, brs := fd && h / 64 % 2 == 1 && oCfg s ch i 6 1 == 1,
                esi := false, dlc := h % 16, data := b.drop 6 }

/-- Free the cell of a circuit-kind object; `done` where its frame was sent whole. -/
def objRelease (s : State) (ch i : Nat) (done : Bool) : State :=
  let o := s.obj ch i
  let s := s.setObj ch i { o with pend := false, cancel := false, cell := none, loss := 0 }
  match o.cell with
  | some j => if done && !(s.cell j).abandon then completeCell s j else releaseCell s j
  | none => s

/-- Withdraw an object's frame without freeing a cell (R465, R468): its cell goes back to the head of its circuit's queue, unless its
owner has freed or abandoned it. -/
def objWithdraw (s : State) (ch i : Nat) : State :=
  let o := s.obj ch i
  let s := s.setObj ch i { o with pend := false, cancel := false, cell := none, loss := 0 }
  match o.cell with
  | none => s
  | some j =>
    if (s.cell j).abandon || (s.cell j).freed then releaseCell s j
    else match (s.cell j).owner with
      | .circ c =>
        let s := s.setCell j { s.cell j with st := .closed, holder := .none }
        s.setCirc c { s.circ c with queue := j :: (s.circ c).queue }
      | _ => s

/-- Let object `i` take cells until it holds a frame (R454–R456): a cell that fails the check of point 4 is freed, one that
R455 refuses is freed unsent and counted in TXDROP; `f` bounds how many. -/
def fillObj (ch i : Nat) : Nat → State → State
  | 0, s => s
  | f + 1, s =>
    let c := oCirc s ch i
    if (s.obj ch i).pend || !(oOn s ch i && oTx s ch i && oCircKind s ch i) || servingObj s c != some (ch, i) then s
    else match (s.circ c).queue with
      | [] => s
      | j :: _ =>
        let s := takeHead s c j (.canTx ch i)
        let x := s.cell j
        if sleeveBad x then
          let un := x.poison || !x.bad.isEmpty
          let s := sleeveFail s 4 c j un x.sleeve (crc32c x.payload)
          fillObj ch i f (releaseCell (if un then markRetire s j else s) j)
        else match cellFrame s ch i x.payload with
          | none => fillObj ch i f (releaseCell (canEvt (s.count (chAddr ch 0x11) 0 16) ch 5) j)
          | some fr => s.setObj ch i { s.obj ch i with pend := true, cell := some j, frame := fr }

/-- Let every circuit-kind transmit object of a channel take its next cell. -/
def fillObjs (s : State) (ch : Nat) : State := forEach 128 (fun s i => fillObj ch i 4096 s) s

/-! ## Choosing the next frame (R457, R458, R482) -/

/-- The bits of arbitration in bus order: the lower value wins (ISO 11898-1). -/
def arbKey (f : CanFrame) : Nat :=
  if f.xtd then f.id / 2 ^ 18 % 2 ^ 11 * 2 ^ 21 + 2 ^ 20 + 2 ^ 19 + f.id % 2 ^ 18 * 2 + b2n f.rtr
  else f.id % 2 ^ 11 * 2 ^ 21 + b2n f.rtr * 2 ^ 20

/-- The fabric identifier of a packet frame (Table 14-4). -/
def fabId (s : State) (cls hop : Nat) : Nat := s.fld 0x4003 4 2 * 2 ^ 27 + 2 ^ 26 + cls * 2 ^ 24 + hop * 4096 + ownAddr s

/-- Whether the fabric sends FD frames on channel `ch` (R482). -/
def fabFd (s : State) (ch : Nat) : Bool := s.bit 0x4003 (2 + ch) && canFd s ch

/-- Frame `k` of a packet on channel `ch` (R482), and whether it is the last. -/
def fabFrame (s : State) (ch : Nat) (o : OutPkt) : CanFrame × Bool :=
  let fd := fabFd s ch
  let per := if fd then 63 else 7
  let b := pktBytes o.pkt
  let part := (b.drop (per * o.sent)).take per
  let last := decide (b.length ≤ per * (o.sent + 1))
  let seg : Byte := BitVec.ofNat 8 (b2n (o.sent == 0) * 128 + b2n last * 64 + o.sent % 64)
  let d := dlcFor (1 + part.length)
  let body := seg :: part
  ({ xtd := true, id := fabId s o.pkt.cls o.hop, rtr := false, fdf := fd, brs := fd, esi := false, dlc := d,
     data := body ++ List.replicate (dlcLen fd d - body.length) 0xCC#8 }, last)

/-- A FORM 0 claim frame (Table 14-4). -/
def claimFrame (s : State) (c : ClaimFrame) (strapped : Bool) : CanFrame :=
  { xtd := true, id := s.fld 0x4003 4 2 * 2 ^ 27 + c.addr * 4096 + b2n (!strapped) * 2 ^ 11 + b2n (!c.owner) * 2 ^ 10 +
      s.chip.uid.toNat % 1024, rtr := false, fdf := false, brs := false, esi := false, dlc := 8, data := bytesBE 8 s.chip.uid.toNat }

/-- The packets the fabric may offer on channel `ch`: of each class the one in progress, else all (R483). -/
def fabReady (s : State) (ch : Nat) : List OutPkt :=
  let l := s.outQ.filter (fun o => o.trunk == some ch && !o.retry && (s.trunk ch).up && mayLeave s o)
  l.filter (fun o => decide (0 < o.sent) || !(l.any (fun p => decide (0 < p.sent) && p.pkt.cls == o.pkt.cls)))

/-- One offer: its aged class, its frame, its order among equals, its source. -/
structure Offer where
  cls : Nat
  frame : CanFrame
  order : Nat
  src : TxSrc
  deriving DecidableEq, Repr

/-- The frame of the object with a pending request: a cell's is the one made as it was taken, a register-kind request's follows the
configuration in force (R465; log entry 73). -/
def objFrame (s : State) (ch i : Nat) : CanFrame :=
  let o := s.obj ch i
  if o.cell.isSome then o.frame
  else
    let f := cfgFrame s ch i o.frame.dlc []
    let d := if f.fdf then min 8 o.frame.dlc else o.frame.dlc
    { f with dlc := d, data := if f.rtr then [] else (o.frame.data ++ List.replicate 8 0#8).take (min 8 d) }

/-- The class an object's frame is offered with (R457). -/
def objClass (s : State) (ch i : Nat) : Nat :=
  let o := s.obj ch i
  agedClass (match o.cell with | some j => (s.cell j).cls | none => oCfg s ch i 12 2) o.loss

/-- The reference message that this node sends next (R469, R470, R471, Table 13-4). -/
def refFrame (s : State) (ch : Nat) : CanFrame :=
  let x := s.can ch
  let id := s.fld (chAddr ch 5) 8 11 / 8 * 8 + s.fld (chAddr ch 5) 4 3
  { xtd := false, id := id, rtr := false, fdf := false, brs := false, esi := false, dlc := 8,
    data := BitVec.ofNat 8 ((s.fld (chAddr ch 7) 8 6 + 1) % 64) ::
      (bytesBE 2 (secondsOf x.mark) ++ bytesBE 4 x.mark.toNat ++
       [BitVec.ofNat 8 (qCode s.hold.quality * 64 + b2n x.markSet * 32)]) }

/-- Everything the channel could offer now. -/
def offers (s : State) (ch : Nat) : List Offer :=
  (match s.fab.claimQ.find? (fun c => c.chan == ch && !c.wait) with
   | some c => if (s.trunk ch).up then [⟨0, claimFrame s c (if c.owner then ownStrapped s else s.fab.claim.strapped), 0, .claim⟩] else []
   | none => []) ++
  (fabReady s ch).map (fun o => ⟨agedClass o.pkt.cls o.loss, (fabFrame s ch o).1, 0, .fab o.cell⟩) ++
  ((List.range 128).filter (fun i => (s.obj ch i).pend && oOn s ch i && oTx s ch i)).map (fun i =>
    ⟨objClass s ch i, objFrame s ch i, 1 + i, .obj i⟩)

/-- Offer `a` goes before offer `b` (R457 steps 2 to 4). -/
def Offer.before (a b : Offer) : Bool :=
  if a.cls != b.cls then decide (a.cls < b.cls)
  else if arbKey a.frame != arbKey b.frame then decide (arbKey a.frame < arbKey b.frame)
  else decide (a.order < b.order)

/-- The frame the channel offers (R457). -/
def chooseFrame (s : State) (ch : Nat) : Option (TxSrc × CanFrame) :=
  if (s.can ch).refDue then some (.ref, refFrame s ch)
  else ((offers s ch).foldl (fun b o => match b with
      | none => some o
      | some m => if o.before m then some o else some m) none).map (fun o => (o.src, o.frame))

/-- A loss at this arbitration point for every offer but the chosen (R25). -/
def noteLosses (s : State) (ch : Nat) (won : TxSrc) : State :=
  forList (offers s ch) (fun s o =>
    if o.src == won then s
    else match o.src with
      | .obj i => s.setObj ch i { s.obj ch i with loss := (s.obj ch i).loss + 1 }
      | .fab c => modOut s c (fun p => { p with loss := p.loss + 1 })
      | _ => s) s

/-- Drop packets whose cells cannot be read before one is offered (R583). -/
def purgeBad (s : State) (ch : Nat) : State :=
  forList (s.outQ.filter (fun o => o.trunk == some ch && badPkt s o)) dropBad s

/-- The stretch accumulator after `k` nominal quanta since a hard synchronisation (R437). -/
def stretchAcc (s : State) (ch k : Nat) : Nat := k * s.fld (chAddr ch 1) 16 16 % 65536
/-- The length of nominal quantum `k` after a hard synchronisation, in CANx cycles: one more where its addition carries (R437). -/
def quantumLen (s : State) (ch k : Nat) : Nat :=
  s.fld (chAddr ch 1) 0 7 + (stretchAcc s ch k + s.fld (chAddr ch 1) 16 16) / 65536
/-- The length of the first `k` nominal quanta (R437). -/
def quantaLen (s : State) (ch k : Nat) : Nat := (List.range k).foldl (fun t j => t + quantumLen s ch j) 0
/-- The sample point of bit `b` after a hard synchronisation, in CANx cycles: the end of its quantum 1 + NPRE (R437). -/
def nominalSample (s : State) (ch b : Nat) : Nat :=
  let pre := s.fld (chAddr ch 2) 0 9
  quantaLen s ch (b * (1 + pre + s.fld (chAddr ch 2) 16 8) + 1 + pre)

/-- The ordinary sample point of a data bit, in cycles from its start (R438). -/
def dataSample (s : State) (ch : Nat) : Nat := s.fld (chAddr ch 3) 0 5 * (1 + s.fld (chAddr ch 3) 8 6)

/-- The check of point 5 on a circuit-kind object's cell, as its bytes enter the transmit buffer (R284, R456, Table 8-3): a cell that
fails is freed and its frame not sent. None where the cell passes or there is none. -/
def loadFails (s : State) (ch i : Nat) : Option State :=
  match (s.obj ch i).cell with
  | none => none
  | some j =>
    let x := s.cell j
    if !sleeveBad x then none
    else
      let un := x.poison || !x.bad.isEmpty
      let c := match x.owner with | .circ c => c | _ => oCirc s ch i
      let s := sleeveFail s 5 c j un x.sleeve (crc32c x.payload)
      some (objRelease (if un then markRetire s j else s) ch i false)

/-- Choose the next frame and load it (R457): the objects take cells, packets that cannot be read are dropped, and an object's frame that
fails the check as it is loaded is let go of and the choice made again. `f` bounds how often. -/
def chooseLoaded (ch : Nat) : Nat → State → Option (TxSrc × CanFrame) × State
  | 0, s => (none, s)
  | f + 1, s =>
    let s := purgeBad (fillObjs s ch) ch
    match chooseFrame s ch with
    | none => (none, s)
    | some (.obj i, fr) =>
      (match loadFails s ch i with
       | some s => chooseLoaded ch f s
       | none => (some (.obj i, fr), s))
    | some c => (some c, s)

/-- CAN_START_OF_FRAME (R457, R460): at a decision point the chosen frame's start of frame begins at `t0`. In RESTRICTED mode
transmit requests stay pending (R446). A frame's bytes enter the transmit buffer each time it is chosen (DESIGN CHOICE, log entry 65). -/
def execCanStartOfFrame (ch : ChanId) (t0 : BitVec 80) (s : State) : Res :=
  let ch := ch.val
  let x := s.can ch
  if !canListens s ch || canMode s ch == 2 || x.onBus.isSome || s.power.relock || isStaged s (if ch = 0 then .cana else .canb)
  then .next s
  else
    match chooseLoaded ch 128 s with
    | (none, s) => .next s
    | (some (src, f), s) =>
      let s := noteLosses s ch src
      .next (modCan s ch (fun x => { x with onBus := some (src, f), sof := t0, ack := false, checkAt := dataSample s ch }))

/-! ## The end of a frame sent (R456, R459, R460, R483) -/

/-- A one-shot failure of object `i` (R459). -/
def objFail (s : State) (ch i : Nat) : State :=
  objRelease (canEvt ((s.setBit (oAddr ch i 4) 11).count (chAddr ch 0x10) 16 16) ch 5) ch i false

/-- The frame on the bus does not become valid: it is retried, or its one attempt has failed, or it was cancelled. `lost` is
an arbitration loss. -/
def endFrame (s : State) (ch : Nat) (lost : Bool) : State :=
  match (s.can ch).onBus with
  | none => s
  | some (src, _) =>
    let s := modCan s ch (fun x => { x with onBus := none })
    match src with
    | .obj i =>
      let o := s.obj ch i
      if o.bad then objWithdraw s ch i
      else if o.cancel then objRelease (s.setBit (oAddr ch i 4) 10) ch i false
      else if oOneShot s ch i then objFail s ch i
      else if (match o.cell with | some j => (s.cell j).abandon | none => false) then objRelease s ch i false
      else if lost then s.setObj ch i { o with loss := o.loss + 1 } else s
    | .fab c =>
      let retry := s.fld 0x4003 12 4
      modOut s c (fun o =>
        if retry ≤ o.fails + 1 then { o with fails := 0, sent := 0, retry := true, loss := o.loss + b2n lost }
        else { o with fails := o.fails + 1, loss := o.loss + b2n lost })
    | .claim => s
    | .ref =>
      let s := modCan s ch (fun x => { x with refDue := false, refPlan := false })
      if lost then s else s.count (chAddr ch 0x10) 16 16

/-- CAN_ARBITRATION_LOST (R457–R460, R473): `toRef` says that the winner is a reference message. -/
def execCanArbitrationLost (ch : ChanId) (toRef : Bool) (s : State) : Res :=
  let ch := ch.val
  match (s.can ch).onBus with
  | none => .next s
  | some (src, _) =>
    let s := endFrame (s.count (chAddr ch 0x0E) 16 16) ch true
    .next (match src with
      | .ref => if toRef then (if (s.can ch).role == .master then setRole s ch .backup else s) else s.count (chAddr ch 0x10) 16 16
      | _ => s)

/-- The loop delay of the frame being sent, `d` CANx cycles (R443, R444): measured for an FD frame with BRS while SSPEN is 1, saturating
at 127 with DLYSAT; the frame's data bits are checked that and SSPOFS cycles after their start. -/
def measureLoop (s : State) (ch d : Nat) : State :=
  match (s.can ch).onBus with
  | none => s
  | some (_, f) =>
    if !(f.fdf && f.brs && s.bit (chAddr ch 0) 6) then s
    else
      let s := s.setFld (chAddr ch 4) 16 7 (min 127 d)
      let s := modCan s ch (fun x => { x with checkAt := min 127 d + s.fld (chAddr ch 4) 0 7 })
      if 127 < d then canEvt s ch 11 else s

/-- CAN_FRAME_TRANSMITTED (R456, R470, R483, R508): the frame on the bus becomes valid, its loop delay `d` measured on the way (R443). In
LOOP mode the channel receives it too (R445). -/
def execCanFrameTransmitted (ch : ChanId) (s : State) (d : BitVec 16 := 0#16) : Res :=
  let ch := ch.val
  match (s.can ch).onBus with
  | none => .next s
  | some (src, f) =>
    let s := measureLoop s ch d.toNat
    let x := s.can ch
    let s := modCan s ch (fun x => { x with onBus := none, tec := x.tec - 1 })
    let s := watchErrors (s.countWrap (chAddr ch 0x0A)) ch
    let s := match src with
      | .obj i =>
        let st := oAddr ch i 4
        let late := (s.obj ch i).cancel
        let s := canEvt ((s.setBit st 8).count (oAddr ch i 5) 0 16) ch 4
        let s := if late then canEvt (s.setBit st 9) ch 8 else s
        objRelease s ch i true
      | .fab c =>
        (match s.outQ.find? (fun o => o.cell == c) with
         | some o =>
           let s := if o.pkt.typ == 7 && o.sent == 0 then
               { s with tim := { s.tim with txMark := listSet s.tim.txMark ch (some x.sof) } } else s
           if (fabFrame s ch o).2 then pktSent s c
                     else modOut s c (fun o => { o with sent := o.sent + 1, fails := 0, loss := 0 })
         | none => s)
      | .claim =>
        { s with fab := { s.fab with claimQ := eraseFirst (fun c => c.chan == ch && !c.wait) s.fab.claimQ } }
      | .ref =>
        let s := modCan s ch (fun y => { y with refDue := false, refPlan := false, mark := x.sof, markSet := true })
        let s := s.setFld (chAddr ch 7) 8 6 ((byteAt f.data 0).toNat % 64)
        setRole s ch .master
    .next (if canMode s ch = 3 then
        frameIn ((modCan s ch (fun y => { y with ack := true })).countWrap (chAddr ch 0x0B)) ch f x.sof else s)

/-! ## Errors and bus-off (R433, R446, R462, R466) -/

/-- The counters of CANx_ERR0 to ERR2, in the order BIT, STUFF, FORM, ACK, CRC. -/
def countErr (s : State) (ch : Nat) (kind : Fin 5) : State :=
  match kind with
  | 0 => s.count (chAddr ch 0x0C) 0 16
  | 1 => s.count (chAddr ch 0x0C) 16 16
  | 2 => s.count (chAddr ch 0x0D) 0 16
  | 3 => s.count (chAddr ch 0x0D) 16 16
  | 4 => s.count (chAddr ch 0x0E) 0 16

/-- Bus-off (R462): every pending frame is kept; a can-busoff record; the trunk goes down. -/
def busOff (s : State) (ch : Nat) : State :=
  let x := s.can ch
  let s := (canEvt s ch 2).count (chAddr ch 0x10) 0 16
  let s := modCan s ch (fun x => { x with boTime := s.now })
  let s := journal s 0x70 (srcOf 4 ch) [BitVec.ofNat 8 (min 255 x.tec), BitVec.ofNat 8 (min 255 x.rec_)]
  setCanSt s ch (if s.bit (chAddr ch 0) 8 then .held else .recovering) .busoff

/-- CAN_ERROR (R433, R446, R464): the channel detects an error of `kind`, as transmitter or as receiver. `big` says that the
receiver's error counts 8, `keep` that ISO 11898-1 leaves the counters unchanged; `part` is the frame being received, once
its last DLC bit has been sampled, with the sample point of its start of frame: a circuit-kind object's cell is then
discarded (R452). `d` is the loop delay of a frame being sent, where the error comes after its measurement (R443). -/
def execCanError (ch : ChanId) (kind : Fin 5) (big : Bool) (keep : Bool) (part : Option (CanFrame × BitVec 80)) (s : State)
    (d : Option (BitVec 16) := none) : Res :=
  let ch := ch.val
  if !canListens s ch then .next s
  else
    let s := match d with | some d => measureLoop s ch d.toNat | none => s
    let tx := (s.can ch).onBus
    let s := countErr (modCan s ch (fun x => { x with ack := false })) ch kind
    let s := match part with
      | some (f, t0) =>
        if (s.trunk ch).up && inFabricRange s f || isRefId s ch f then s
        else (match (List.range 128).find? (fun i => accepts s ch i f) with
          | some i => if oCircKind s ch i then objCell s ch i f t0 false else s
          | none => s)
      | none => s
    if canMode s ch = 2 then .next (integrate s ch false .restart)
    else
      let s := match tx with
        | some (.claim, _) => { s with fab := { s.fab with claimQ := s.fab.claimQ.map (fun c => if c.chan == ch then { c with wait := true } else c) } }
        | _ => s
      let s := if tx.isSome then endFrame s ch false else s
      let s := if keep then s
        else if tx.isSome then modCan s ch (fun x => { x with tec := x.tec + 8 })
        else modCan s ch (fun x => { x with rec_ := min 255 (x.rec_ + (if big then 8 else 1)) })
      .next (if 256 ≤ (s.can ch).tec then busOff s ch else watchErrors s ch)

/-- CAN_PROTOCOL_EXCEPTION (R436). -/
def execCanProtocolException (ch : ChanId) (s : State) : Res :=
  let ch := ch.val
  if canListens s ch && s.bit (chAddr ch 0) 5 && canFd s ch then
    .next (integrate (canEvt (s.count (chAddr ch 0x11) 24 8) ch 9) ch false .restart)
  else .next s

/-- RECOVERED (R462, R469, R519). -/
def execRecovered (ch : ChanId) (s : State) : Res :=
  let ch := ch.val
  if (s.can ch).st == .recovering && s.power.st != .dormant then
    let s := modCan s ch (fun x => { x with tec := 0, rec_ := 0 })
    let s := s.setBit (chAddr ch 7) 3 false
    let s := setCanSt (canEvt s ch 3) ch .active .busoff
    .next (setRole s ch (restRole s ch))
  else .next s

/-- RECOVER (R462). -/
def doRecover (s : State) (ch : Nat) : State :=
  if (s.can ch).st == .held then setCanSt s ch .recovering .busoff else s
def execRecover (ch : ChanId) (s : State) : Res := .next (viaHost s (fun s => doRecover s ch.val))

/-! ## Requests (R453, R460, R461) -/

/-- TXREQ (R453). -/
def doTxreq (s : State) (ch i : Nat) : State :=
  if oOn s ch i && oTx s ch i && !oCircKind s ch i then s.setObj ch i { s.obj ch i with pend := true } else s
def execTxreq (ch : ChanId) (i : ObjId) (s : State) : Res := .next (viaHost s (fun s => doTxreq s ch.val i.val))

/-- CANCEL (R460, R461). -/
def doCancel (s : State) (ch i : Nat) : State :=
  let s := fillObj ch i 4096 s
  let o := s.obj ch i
  if !o.pend then s
  else if onBusObj s ch = some i then s.setObj ch i { o with cancel := true }
  else
    let s := s.setBit (oAddr ch i 4) 10
    let s := if o.cell.isSome then s.count (chAddr ch 0x11) 0 16 else s
    objRelease s ch i false
def execCancel (ch : ChanId) (i : ObjId) (s : State) : Res := .next (viaHost s (fun s => doCancel s ch.val i.val))

/-! ## Message memory (R468) -/

/-- An error in word `word` of object `i`: a correctable one is counted. An uncorrectable one disables the object until a commit writes the
word again, withdraws its pending frame without freeing a cell, sets STAT.ECC and EVT.ECC and is journaled. A frame on the bus is ended as
it stands and not retried; the word's index is its place in the object words (DESIGN CHOICE, log entry 66). -/
def canMemError (s : State) (ch i word : Nat) (bad : Bool) : State :=
  if !bad then s.count (chAddr ch 0x11) 16 8
  else
    let s := s.setObj ch i { s.obj ch i with bad := true }
    let s := if onBusObj s ch = some i then s else objWithdraw s ch i
    journal (canEvt (s.setBit (oAddr ch i 4) 14) ch 12) 0x45 (srcOf 4 ch) (bytesBE 4 (8 * i + word))

/-- CAN_CLRCNT: CANx_ERR0 to CANx_ERR5 and the object counters. -/
def doCanClrcnt (s : State) (ch : Nat) : State :=
  let s := forEach 6 (fun s k => s.setReg (chAddr ch (0x0C + k)) 0#32) s
  forEach 128 (fun s i => s.setReg (oAddr ch i 5) 0#32) s
def execCanClrcnt (ch : ChanId) (s : State) : Res := .next (viaHost s (fun s => doCanClrcnt s ch.val))

/-- A relock interrupts the channel (R131, R466): a frame being sent stays pending, a one-shot frame fails. The channel
integrates after the relock. -/
def canRelock (s : State) (ch : Nat) : State :=
  let s := endFrame s ch false
  if (s.can ch).st == .active || (s.can ch).st == .passive then setCanSt s ch .integrating .relock
  else s

end Sys2Proof.Machine
end

