-- ==== Sys2Proof/Machine/Time.lean ====
section
/-! DEFINITION. Sys2Proof/Machine/Time.lean: the timebase: the count, references and their measurements, the discipline
loop, quality, holdover, TPO, and time over CAN and the fabric (chapter 15, R469–R474). -/
namespace Sys2Proof.Machine

/-! ## The count (R521, R522, R539) -/

/-- The denominator of the count's exact increments: TIME ticks per second × 10⁶ × 2¹⁶. -/
def countDen : Nat := 1024000 * 1000000 * 65536

/-- The exact increment of one tick in units of 1 / `countDen`: of a TIME tick under F (R522), or of a HOLD tick, 32 768 a
second, under the HOLD calibration (R539). -/
def tickNum (s : State) : Nat :=
  if s.hold.inTime then (2 ^ 32 * ((1000000 * 65536 : Int) + (s.reg 0x4809).toInt)).toNat
  else (131072 * 1024000 * ((1000000 * 65536 : Int) + s.hold.hfreq.toInt)).toNat

/-- The count after one tick. -/
def tickHold (s : State) : Hold :=
  let t := s.hold.rem + tickNum s
  { s.hold with count := s.hold.count + BitVec.ofNat 80 (t / countDen), rem := t % countDen }

/-! ## Measurements (R531) -/

/-- Fraction units as ns. -/
def unitsToNs (u : Int) : Int := u * 1000000000 / 4294967296

/-- The difference of two times in ns. -/
def diffNs (a b : Time) : Int := unitsToNs ((a.toNat : Int) - (b.toNat : Int))

/-- A TPI edge against the nearest whole second (R531). -/
def tpiOffset (edge : Time) : Int :=
  let f : Nat := edge.toNat % 2 ^ 32
  unitsToNs (if f < 2 ^ 31 then -(f : Int) else 4294967296 - (f : Int))

/-- The threshold of a reference in ns: LOCKTHR for TPI, NETTHR for a network reference. -/
def threshold (s : State) (k : Nat) : Int :=
  if k = 1 then (s.fld 0x4801 16 8 : Int) * 1000 else (s.fld 0x4804 16 8 : Int) * 10000

/-- Measurements agree with one another within `thr`. -/
def agree (l : List Int) (thr : Int) : Bool := l.all (fun a => l.all (fun b => decide (a - b ≤ thr)))

/-! ## The loop and the lock test (R533–R536) -/

/-- Clamp a rational to ±`b`. -/
def clampRat (b x : Rat) : Rat := if b < x then b else if x < -b then -b else x

/-- One step of the type-2 loop (R533) for offset `e` ns after `dt` seconds. -/
def loopStep (s : State) (e dt : Rat) : State :=
  let tc : Rat := ((2 ^ s.fld 0x4801 4 4 : Nat) : Rat)
  let p := clampRat 50 (e / tc / 1000)
  let i := clampRat 200 (s.tim.i + e * dt / (4 * tc * tc) / 1000)
  putFreq (modTim s (fun t => { t with p := p, i := i }))

/-- Seconds between the last measurement used and `t`. -/
def sinceLast (s : State) (t : Time) : Rat :=
  match s.tim.prev with
  | some u => (((t.toNat : Int) - (u.toNat : Int) : Int) : Rat) / 4294967296
  | none => 0

/-- The lock test (R536) after one more measurement, and the quality it gives (Table 15-3). -/
def lockTest (s : State) (ok : Bool) : State :=
  let g := if ok then s.tim.good + 1 else 0
  let s := modTim s (fun t => { t with good := min g 8 })
  let cap := capQuality s s.tim.sel
  if 8 ≤ g ∧ (s.hold.quality == .free ∨ s.hold.quality == .holdover) ∧ s.hold.quality ≠ cap then
    putStratum (setQuality s cap)
  else s

/-- A time saturated to 32 bits two's complement. -/
def satNs (e : Int) : Word := BitVec.ofInt 32 (max (-2147483648) (min 2147483647 e))

/-- A measurement `e` ns of reference `k` at time `t` (R531–R536). -/
def measure (s : State) (k : Nat) (e : Int) (t : Time) : State :=
  let thr := threshold s k
  let r := s.tref k
  let l := (e :: r.meas).take 3
  let now3 := decide (l.length = 3) && agree l thr
  let fresh := !r.qual && now3
  let s := reselect (s.setTref k { r with meas := l, qual := r.qual || now3 })
  let s := s.setTref k { s.tref k with last := some t }
  if s.tim.sel ≠ k then s
  else
    let s := s.setReg 0x480B (satNs e)
    let big := decide (1000000 ≤ e) || decide (e ≤ -1000000)
    let s :=
      if big then
        if fresh then modTim s (fun x => { x with plan := some e, outliers := [] })
        else
          let s := (s.count 0x4810 16 16).setBit 0x480D 4
          let o := (e :: s.tim.outliers).take 3
          if o.length = 3 ∧ agree o thr then modTim s (fun x => { x with plan := some e, outliers := [] })
          else modTim s (fun x => { x with outliers := o })
      else
        let s := modTim s (fun x => { x with outliers := [] })
        if k = 1 then modTim (loopStep s (e : Rat) (sinceLast s t)) (fun x => { x with prev := some t })
        else modTim s (fun x => { x with acc := e :: x.acc })
    lockTest s (decide (e < thr) && decide (-thr < e))

/-- The mean of a network reference's measurements of the past second enters the loop (R533). -/
def netLoop (s : State) (t : Time) : State :=
  if s.tim.acc.isEmpty then s
  else
    let e : Rat := ((s.tim.acc.foldl (· + ·) 0 : Int) : Rat) / ((s.tim.acc.length : Nat) : Rat)
    modTim (loopStep s e (sinceLast s t)) (fun x => { x with acc := [], prev := some t })

/-! ## TPI (R529) -/

/-- TPI_PULSE: an active edge at count `edge`; `wide` says that the active level lasted 1 µs or more. The interval from the last accepted
pulse is one of the count; a step between them is no part of it (DEDUCED from Table 15-5, log entry 74). -/
def execTpiPulse (wide : Bool) (edge : BitVec 80) (s : State) : Res :=
  if !s.bit 0x4801 0 || !s.boot.memUp || s.power.st == .dormant then .next s
  else
    let gap := diffNs edge ((s.tref 1).last.getD s.tim.tpi)
    let spaced := decide (999500000 ≤ gap) && decide (gap ≤ 1000500000)
    if !wide || !(s.tim.tpiFirst || spaced) then .next (s.count 0x480F 16 16)
    else
      let s := (s.count 0x480F 0 16).setBit 0x480D 6
      let s := modTim s (fun t => { t with tpi := edge, tpiFirst := false })
      .next (measure s 1 (tpiOffset edge) edge)

/-! ## Loss, holdover, calibration (R530, R537–R539) -/

/-- The key of the reference that a REFERENCE_LOST names: 0 TPI, 1 CAN A, 2 CAN B, 3 + j neighbour j. -/
def refKey (r : Nat) : Nat := if r < 3 then r + 1 else r + 13

/-- REFERENCE_LOST (R530). -/
def execReferenceLost (r : Fin 131) (s : State) : Res :=
  let k := refKey r.val
  let was := decide (s.tim.sel = k)
  let s := s.setTref k { s.tref k with qual := false, meas := [], last := none, tseq := none }
  let s := if k = 1 then modTim s (fun t => { t with tpiFirst := true }) else s
  .next (reselect (if was then s.setBit 0x480D 2 else s))

/-- HOLDEXP (R537). -/
def execHoldexp (s : State) : Res :=
  if s.hold.quality == .holdover then .next (putStratum (setQuality (s.setBit 0x480D 7) .free)) else .next s

/-- HOLD_CALIBRATION (R539): the correction measured over a 64 s window, in 2⁻¹⁶ ppm, clamped to ±300 ppm. -/
def execHoldCalibration (hf : BitVec 32) (s : State) : Res :=
  if s.hold.quality == .locked then
    .next { s with hold := { s.hold with hfreq := BitVec.ofInt 32 (max (-19660800) (min 19660800 hf.toInt)) } }
  else .next s

/-- TPO_FALL (R540). -/
def execTpoFall (s : State) : Res := .next (modTim s (fun t => { t with tpo := false }))

/-- TIM_CLRCNT. -/
def doTimClrcnt (s : State) : State := ((s.setReg 0x480F 0#32).setReg 0x4810 0#32).setReg 0x4811 0#32
def execTimClrcnt (s : State) : Res := .next (viaHost s (fun s => doTimClrcnt s))

/-! ## Time over the fabric (R543–R545) -/

/-- A TIME body (Table 15-4). -/
def timeBody (s : State) (k : Nat) : List Byte :=
  let m := ((s.tim.txMark[k]?).getD none)
  let t := m.getD 0#80
  [BitVec.ofNat 8 (qCode s.hold.quality * 64 + s.hold.stratum % 16), BitVec.ofNat 8 (b2n m.isSome * 128)] ++
  bytesBE 2 ((s.tim.txSeq[k]?).getD 0) ++ bytesBE 6 (secondsOf t) ++ bytesBE 4 t.toNat ++ List.replicate 6 0#8

/-- TIME_PACKET_SEND (R543). -/
def execTimePacketSend (k : TrunkId) (s : State) : Res :=
  let k := k.val
  if (s.trunk k).up && ownAddr s != 0 && s.power.st != .dormant && s.bit 0x4801 2 && s.hold.quality != .unset && s.tim.sel != 2 && s.tim.sel != 3 then
    let b := timeBody s k
    let s := modTim s (fun t => { t with txSeq := listSet t.txSeq k (((t.txSeq[k]?).getD 0 + 1) % 65536),
                                         txMark := listSet t.txMark k none })
    .next (sendHop s k 7 0 (ownAddr s) b)
  else .next s

/-- Seconds set by a qualified fabric reference (R526): UNSET is left for the quality the reference gives at least FREE. -/
def fabricSet (s : State) (k : Nat) : State :=
  if s.hold.quality == .unset && decide (16 ≤ k) && s.tim.sel == k && (s.tref k).qual && s.tim.plan.isNone then
    putStratum (setQuality (s.setBit 0x480D 5) .free)
  else s

/-- TIME_RECEIVE (R545): a TIME packet from a neighbour on its trunk. -/
def execTimeReceive (s : State) : Res :=
  .next (onPkt s (fun q => !q.form0 && q.pkt.typ == 7) (fun s q =>
    match nbrIdx s q.trunk q.sender with
    | none => s
    | some j =>
      let b := q.pkt.body
      let k := 16 + j
      let r := s.tref k
      let n := natBE ((b.drop 2).take 2)
      let cap : Time := BitVec.ofNat 80 (natBE ((b.drop 4).take 6) * 2 ^ 32 + natBE ((b.drop 10).take 4))
      let follows := match r.tseq with | some (m, _) => n == (m + 1) % 65536 | none => false
      let own := match r.tseq with | some (_, t) => t | none => 0#80
      let dly : Int := if 2 ≤ q.trunk then (s.fld (0x4803 + q.trunk) 0 20 : Int) * 1000 else 0
      let s := s.setTref k { r with adQ := (byteAt b 0).toNat / 64, adStratum := (byteAt b 0).toNat % 16, tseq := some (n, q.at_) }
      if follows && (byteAt b 1).getLsbD 7 && s.bit 0x4801 3 then fabricSet (measure s k (diffNs cap own + dly) q.at_) k
      else reselect s))

/-! ## Reference messages (R469–R473, R542) -/

/-- The whole time nearest to `own` whose seconds bits 15:0 are `lo` (R542). -/
def nearestTime (own : Time) (lo frac : Nat) : Time :=
  let sec := secondsOf own
  let base := sec / 65536 * 65536 + lo
  let cand := [base - 65536, base, base + 65536]
  let best := cand.foldl (fun b c => if (max c sec - min c sec) < (max b sec - min b sec) then c else b) base
  BitVec.ofNat 80 (best * 2 ^ 32 + frac)

/-- REFERENCE_MESSAGE_RECEIVED (R469–R473, R542): the oldest message in channel `ch`'s time buffer. Its sync mark is what the next own
message is timed from, so one that was due and has not begun waits anew. The mark before it is the one that the master captured only
where no message between was missed (DEDUCED, log entry 76). -/
def execReferenceMessageReceived (ch : ChanId) (s : State) : Res :=
  let ch := ch.val
  let x := s.can ch
  match x.refIn with
  | [] => .next s
  | (f, t0) :: rest =>
    let s := modCan s ch (fun x => { x with refIn := rest })
    if f.fdf || f.rtr || f.dlc != 8 then .next s
    else
      let p := f.id % 8
      let mine := s.fld (chAddr ch 5) 4 3
      let d := f.data
      let follows := (byteAt d 0).toNat % 64 == (s.fld (chAddr ch 7) 8 6 + 1) % 64
      let s := s.setFld (chAddr ch 7) 8 6 ((byteAt d 0).toNat % 64)
      let lower := decide (mine < p) && (x.role == .master || x.role == .backup)
      let s := modCan s ch (fun x => { x with mark := t0, markSet := true, refDue := false, refPlan := lower })
      let s := if x.role == .master && p < mine then setRole s ch .backup else s
      let k := 2 + ch
      let s := s.setTref k { s.tref k with adQ := (byteAt d 7).toNat / 64 }
      let cap := nearestTime x.mark (natBE ((d.drop 1).take 2)) (natBE ((d.drop 3).take 4))
      if (x.role == .follower || x.role == .backup) && (byteAt d 7).getLsbD 5 && x.markSet && follows then
        .next (measure s k (diffNs cap x.mark) t0)
      else .next (reselect s)

/-- REFERENCE_MESSAGE_DUE (R471, R473): PERIOD after the last sync mark a master's message, or one scheduled against a master
of lower priority, is requested. -/
def execReferenceMessageDue (ch : ChanId) (s : State) : Res :=
  let x := s.can ch.val
  if x.role == .master || (x.role == .backup && x.refPlan) then .next (modCan s ch.val (fun x => { x with refDue := true })) else .next s

/-- BACKUP_TIMEOUT (R472): a potential master has seen no reference message for its backup time. -/
def execBackupTimeout (ch : ChanId) (s : State) : Res :=
  if (s.can ch.val).role == .backup then .next (modCan s ch.val (fun x => { x with refDue := true })) else .next s

/-! ## The step and the second (R526, R535, R540) -/

/-- Load the count at a step (R535): P is 0, STEP, STEPS, its time, a time-step record; the lock count restarts. The times from which
intervals run move with the count (log entry 74). -/
def loadCount (s : State) (new : Time) : State :=
  let old := s.now
  let move (t : Option Time) : Option Time := t.map (fun u => u + (new - old))
  let s := { s with hold := { s.hold with count := new, rem := 0 } }
  let s := putFreq (modTim s (fun t => { t with stepTime := new, p := 0, good := 0, plan := none, prev := move t.prev, acc := [],
                                                 refs := t.refs.map (fun e => (e.1, { e.2 with last := move e.2.last })) }))
  let s := (s.setBit 0x480D 0).count 0x4810 0 16
  journal s 0x90 (srcOf 0 0) (recordForm old ++ recordForm new)

/-- TPO at a boundary (R540, R541): it rises where it is enabled and the quality reaches MINQ; it stays low until the Mantle layer has
been applied, and in DORMANT (Table 3-2). A pulse raised by the HOLD
domain during a relock is counted in COARSE. -/
def tpoAtBoundary (s : State) : State :=
  let on := s.bit 0x4802 0 && decide (s.fld 0x4802 16 2 ≤ qCode s.hold.quality) && s.boot.mantled && s.power.st != .dormant
  let s := modTim s (fun t => { t with tpo := on, tpoOn := on })
  if on && s.power.relock then s.count 0x4811 0 16 else s

/-- The SECOND events, TIM_HOLDSEC, the network loop and TPO of a second boundary. -/
def secondEffects (s : State) : State :=
  let s := netLoop s s.now
  let s := if s.hold.lost then { s with hold := { s.hold with holdSec := min (2 ^ 32 - 1) (s.hold.holdSec + 1) } } else s
  let s := forEach 64 (fun s c => if (s.ctx c).st == .idle then s else ctxEvent s c 10) s
  tpoAtBoundary s

/-- Seconds waiting in item 0x002 load at a boundary (R526): a value other than the one reached is a step; UNSET becomes
FREE. -/
def loadSeconds (s : State) : State :=
  match s.tim.setSec with
  | none => s
  | some n =>
    let s := modTim s (fun t => { t with setSec := none })
    let new : Time := BitVec.ofNat 80 (n % 2 ^ 48 * 2 ^ 32)
    let s := if new = s.now then s else loadCount s new
    let s := s.setBit 0x480D 5
    putStratum (if s.hold.quality == .unset then setQuality s .free else s)

end Sys2Proof.Machine
end

