-- ==== Sys2Proof/Machine/Apply.lean ====
section
/-! DEFINITION. Sys2Proof/Machine/Apply.lean: how a staged commit is applied: the rules between fields, what each kind of
instance does when its fields change, the application order, the group clock switch and the GLB_COMMIT strobe
(R106–R112, R141–R152, R157 and the chapters of each block). -/
namespace Sys2Proof.Machine

/-! ## Words being staged -/

/-- The value that word `a` will have when `e` is applied. -/
def newWord (s : State) (e : Staged) (a : Nat) : Word :=
  match e.words.find? (fun t => t.1 == a) with
  | some (_, m, v) => (s.reg a &&& ~~~m) ||| (v &&& m)
  | none => s.reg a

/-- Two entries belong to a common GLB_COMMIT write. -/
def sameWrite (a b : Staged) : Bool := a.writes.any b.writes.contains

/-- Record one word that a rule between fields changed (R157). -/
def noteXclamp (s : State) (a : Nat) : State := ((s.setFld 0x13 0 16 a).count 0x13 16 16).setBit 0x0B 1

/-- Write staged words, apply a rule between fields, and record each word the rule changed, in rising order (R157). -/
def putRuled (s : State) (i : Inst) (words : List (Nat × Word × Word)) (rule : State → State) : State :=
  let put := putWords s words
  let done := rule put
  forList ((instAddrs i).filter (fun a => put.reg a != done.reg a)) noteXclamp done

/-! ## Rules between fields -/

/-- Set a field where a condition holds. -/
def fixIf (c : Bool) (a lo wd v : Nat) (s : State) : State := if c then s.setFld a lo wd v else s

/-- Pnn: NINE takes 8 data bits and no parity (R169); SW with XON equal to XOFF takes NONE (R215); ON at or above OFF takes
OFF − 1 (Table 6-12); mark mode without NINE takes off (R220). -/
def portRule (n : Nat) (s : State) : State :=
  let nine := s.bit (pAddr n 2) 5
  let s := fixIf nine (pAddr n 2) 0 2 3 (fixIf nine (pAddr n 2) 2 2 0 s)
  let off := s.fld (pAddr n 4) 4 12
  let s := fixIf (decide (off ≤ s.fld (pAddr n 4) 16 12)) (pAddr n 4) 16 12 (off - 1) s
  let s := fixIf (s.fld (pAddr n 4) 0 2 == 2 && s.fld (pAddr n 5) 0 8 == s.fld (pAddr n 5) 8 8) (pAddr n 4) 0 2 0 s
  fixIf (s.fld (pAddr n 8) 0 2 == 2 && !nine) (pAddr n 8) 0 2 0 s

/-- The binding and enable of a circuit (R7, R258). -/
def bindRule (c : Nat) (s : State) : State :=
  let k := cKind s c
  let bad := (k == 1 && !present s (cPort s c)) || (k == 2 && (cRdev s c == 0 || cRdev s c == 0xFFF))
  let s := fixIf bad (cAddr c 1) 0 2 0 s
  fixIf (cKind s c == 0) (cAddr c 0) 0 1 0 s

/-- P: the cells of the circuit pool that are not retired. -/
def poolSize (s : State) : Nat := 4000 - retiredCount s

/-- A staged reserve after the ceiling's rule (R244). -/
def wantReserve (s : State) (e : Staged) (c : Nat) : Nat :=
  let w := newWord s e (cAddr c 2)
  min (getF w 0 8) (getF w 16 12)

/-- The circuits staged by the write of entry `e`, with their entries, in rising number. -/
def coCircuits (s : State) (e : Staged) : List (Nat × Staged) :=
  (List.range 64).filterMap (fun c => (s.commit.staged.find? (fun o => o.inst == .circ c && sameWrite o e)).map (fun o => (c, o)))

/-- Trim a write's staged reserves together, in rising circuit number (R244): a circuit takes at most what the reserves of
all others leave of P. `done` holds the reserves settled so far. -/
def trimAll (s : State) (p : Nat) : List (Nat × Nat) → List (Nat × Nat) → List (Nat × Nat)
  | [], done => done
  | (c, r) :: rest, done =>
    let others := (List.range 64).foldl (fun t d =>
      if d = c then t
      else match (done ++ rest).find? (fun x => x.1 == d) with
        | some (_, v) => t + v
        | none => t + cReserve s d) 0
    trimAll s p rest (done ++ [(c, min r (p - others))])

/-- The trimmed reserve of circuit `c` under entry `e`: as recorded when the first circuit of its write applied, else the
write is trimmed now (R244). -/
def trimmedReserve (s : State) (e : Staged) (c : Nat) : Nat × State :=
  let rec? := s.commit.trimmed.find? (fun t => e.writes.contains t.1 && t.2.1 == c)
  match rec? with
  | some (_, _, r) => (r, s)
  | none =>
    let l := trimAll s (poolSize s) ((coCircuits s e).map (fun x => (x.1, wantReserve s x.2 x.1))) []
    let w := e.writes.headD 0
    let others := l.filter (fun x => x.1 != c)
    let s := { s with commit := { s.commit with trimmed := s.commit.trimmed ++ others.map (fun x => (w, x.1, x.2)) } }
    (((l.find? (fun x => x.1 == c)).map (·.2)).getD (wantReserve s e c), s)

/-- The reserve of a circuit (R244): its ceiling, its trimmed value, and what the reserves applied since leave of P. -/
def quotaRule (c trimmed : Nat) (s : State) : State :=
  let others := (List.range 64).foldl (fun t d => if d = c then t else t + cReserve s d) 0
  let r := min (min (cReserve s c) (cCeiling s c)) (min trimmed (poolSize s - others))
  fixIf (r != cReserve s c) (cAddr c 2) 0 8 r s

/-- CEL_FLOOR.TIN below BRASS takes BRASS (R244). -/
def celRule (s : State) : State :=
  fixIf (decide (s.fld 0x2002 16 12 < s.fld 0x2002 0 12)) 0x2002 16 12 (s.fld 0x2002 0 12) s

/-- A CAN channel: the segments (R439), the time role outside NORMAL (R469), BRS and RTR of the objects (Table 13-10). -/
def canRule (ch : Nat) (s : State) : State :=
  let a := chAddr ch 2
  let s := fixIf (decide (min (s.fld a 0 9) (s.fld a 16 8) < s.fld a 24 8)) a 24 8 (min (s.fld a 0 9) (s.fld a 16 8)) s
  let s := fixIf (decide (1 + s.fld a 0 9 + s.fld a 16 8 < 8)) a 0 9 (7 - s.fld a 16 8) s
  let b := chAddr ch 3
  let s := fixIf (decide (min (s.fld b 8 6) (s.fld b 16 5) < s.fld b 24 5)) b 24 5 (min (s.fld b 8 6) (s.fld b 16 5)) s
  let s := fixIf (decide (1 + s.fld b 8 6 + s.fld b 16 5 < 5)) b 8 6 (4 - s.fld b 16 5) s
  let s := fixIf (canMode s ch != 1 && canTimeRole s ch == 2) (chAddr ch 5) 0 2 1 s
  forEach 128 (fun s i =>
    let fdf := oCfg s ch i 5 1 == 1
    fixIf (fdf && oCfg s ch i 7 1 == 1) (oAddr ch i 0) 7 1 0 (fixIf (!fdf && oCfg s ch i 6 1 == 1) (oAddr ch i 0) 6 1 0 s)) s

/-- The key of a UART slot is blank. -/
def keyBlank (s : State) (k : Nat) : Bool := ((s.chip.trunkKeys[utKey s k]?).getD none).isNone

/-- The fabric: HI at least LO; a slot on an absent port or on the port of a lower slot is not enabled (R489); REQUIRE with a
blank key is OFF (R490). -/
def fabRule (s : State) : State :=
  let s := fixIf (decide (s.fld 0x4002 16 12 < s.fld 0x4002 0 12)) 0x4002 16 12 (s.fld 0x4002 0 12) s
  forList [2, 3, 4, 5] (fun s k =>
    let n := utPort s k
    let dup := [2, 3, 4, 5].any (fun j => decide (j < k) && s.bit (utAddr j) 0 && utPort s j == n)
    let s := fixIf (s.bit (utAddr k) 0 && (!present s n || dup)) (utAddr k) 0 1 0 s
    fixIf (s.bit (utAddr k) 8 && keyBlank s k) (utAddr k) 8 1 0 s) s

/-! ## What an application does beside the fields -/

/-- Pnn has been applied; `old` is the state before (R194, R204, R206, R210, R227, R559). What no rule takes away stays (DESIGN CHOICE,
log entry 59): full holding registers when MODE leaves HOLD, a partly sent egress cell when the port is disabled or leaves CELL, a stop
by XOFF and the memory of flow characters sent; a received break ends unreported where the receiver has to arm anew. -/
def afterPort (old : State) (n : Nat) (s : State) : State :=
  let ch (w : Nat) : Bool := old.reg (pAddr n w) != s.reg (pAddr n w)
  let addr := ch 8 || (List.range 8).any (fun e => ch (9 + e))
  let fmt := ch 2
  let mode := pCell old n != pCell s n
  let feed := old.fld (pAddr n 3) 8 8 != s.fld (pAddr n 3) 8 8
  let off := pEn old n && !pEn s n
  let s := if mode || fmt || feed || addr || off then closeAllRx s n 5 else s
  let s := if addr then modPort s n (fun p => { p with frame := 8, frameCirc := none, frameDrop := false, frameStart := true }) else s
  let s := if s.bit (pAddr n 0) 5 != old.bit (pAddr n 0) 5 && hasCts s n && s.boot.mantled then
      modPort s n (fun p => { p with cts := !p.cts }) else s
  let s := if ch 1 || fmt || pEn old n != pEn s n then modPort s n disarm else s
  let s := if off then
      let s := if (s.port n).rxHold.isSome then s.count (pAddr n 0x1B) 16 16 else s
      let s := if (s.port n).txHold.isSome then feedEvent s n 1 else s
      let s := dropAbandoned s n
      let s := modPort s n (fun p => { p with rxHold := none, txHold := none, timeout := false, de := false, tx := .idle, line := [],
                                              rts := false, brkReq := false, flowQ := none, gloved := false,
                                              looping := false, clean := p.clean || p.gloved, stormOf := [0, 0, 0, 0] })
      (s.setFld (pglAddr n) 0 8 0).setBit 0x30A n false
    else s
  let s := if !pEn old n && pEn s n && decide (s.now.toNat < (s.port n).gloveEnd) && !(s.port n).gloved then
      raiseFault ((modPort s n (fun p => { p with gloved := true, clean := false })).setBit 0x30A n) 9
    else s
  let s := if (List.range 16).any (fun m => (s.port m).gloved) then s else clearFault s 9
  let s := if pEn s n then rtsWatch s n else s
  let s := if !pEn s n || pCell s n then endPortWaits s n else s
  trunkWatch s .config

/-- A circuit has been applied: `en` and `bind` are EN and the binding it had. A commit that leaves it bound to another fabric endpoint
starts an epoch whatever the circuit's state (R260, R270); a draining circuit that holds nothing ends its drain (R263); a refused
allocation may now be granted (Table 9-3). -/
def afterCirc (c : Nat) (en : Bool) (bind : Word) (s : State) : State :=
  let same := s.reg (cAddr c 1) == bind || (getF bind 0 2 == 2 && getF bind 8 6 == cRcirc s c && getF bind 16 12 == cRdev s c)
  let moved := cKind s c == 2 && !same
  let epoch (s : State) : State := if moved then startEpoch s c false else s
  let s := match (s.circ c).st with
    | .disabled => if cEn s c then enterRun s c else epoch s
    | .run => epoch (if cEn s c then s else enterDrain s c)
    | .drain => if cEn s c then enterRun (s.setBit (cAddr c 0x0D) 1) c else drainEnd (epoch s) c
    | .fault => epoch (if en && !cEn s c then leaveFault s c else s)
  let s := forEach 16 (fun s n => if present s n && pEn s n && isFed s n c then rtsWatch s n else s) s
  allocEvents (watchPool (stallWatch s c))

/-- The object is enabled as a transmit object. -/
def oOffered (s : State) (ch i : Nat) : Bool := oCfg s ch i 0 1 == 1 && oTx s ch i

/-- A channel has been applied (R447, R465, R468, R469). The pending frame of an object that is disabled, or is no transmit object any
more (log entry 73), is cancelled and its cell goes back to the head of its queue; a cell that its egress was to abandon is let go of
(R262, R264). -/
def afterCan (old : State) (ch : Nat) (s : State) : State :=
  let s := forEach 128 (fun s i =>
    let o := s.obj ch i
    let s := if o.bad then s.setObj ch i { o with bad := false } else s   -- every word of the objects is written again
    if oOffered old ch i && !oOffered s ch i && o.pend then
      (objWithdraw s ch i).setBit (oAddr ch i 4) 10
    else s) s
  let ch' (w : Nat) : Bool := old.reg (chAddr ch w) != s.reg (chAddr ch w)
  let restart := canMode old ch != canMode s ch || canFd old ch != canFd s ch || ch' 1 || ch' 2 || ch' 3
  let s := if restart then (integrate s ch true .restart).setBit (chAddr ch 7) 3 false else s
  let on := (s.can ch).st == .active || (s.can ch).st == .passive
  let s := if on && canTimeRole old ch != canTimeRole s ch then setRole s ch (restRole s ch) else s
  trunkWatch s .config

/-- The fabric has been applied: a changed REQ starts a claim (R497), slots that moved to another port go down first, AUTH
refused for want of a key is journaled (R490). -/
def afterFab (old asked : State) (s : State) : State :=
  let s := forList [2, 3, 4, 5] (fun s k =>
    if asked.bit (utAddr k) 8 && !s.bit (utAddr k) 8 then journal s 0x1C (srcOf 5 k) [BitVec.ofNat 8 (utKey s k)] else s) s
  let s := forList [2, 3, 4, 5] (fun s k =>
    if (s.trunk k).up && utPort old k != utPort s k then trunkDown s k .config else s) s
  let s := trunkWatch s .config
  if old.fld 0x4001 0 12 != s.fld 0x4001 0 12 && s.boot.live then claimReq s else s

/-- STR has been applied: the hand-back timer runs while TIMEOUT selects a duration and GROUPS is not zero (R71). -/
def afterStr (s : State) : State :=
  let on := (durSeconds (s.fld 0x110 0 4)).isSome && s.fld 0x110 8 8 != 0
  { s with strap := { s.strap with handbackRun := on } }

/-! ## Ends of entries -/

/-- A staged entry has applied: it is dropped, the queued strobe of its instance stages the shadow as it now stands (R144),
and every write that has no instance left is done (R149). HST_GEN counts it (R421). -/
def finishEntry (s : State) (e : Staged) : State :=
  let s := { s with commit := { s.commit with staged := dropStaged e.inst s.commit.staged } }
  let s := s.countWrap 0x409
  if isStaged s e.inst then forList e.writes doneCheck s
  else match s.commit.queued.find? (fun q => q.inst == e.inst) with
    | none => forList e.writes doneCheck s
    | some q =>
      let s := { s with commit := { s.commit with queued := s.commit.queued.filter (fun x => x.inst != e.inst) } }
      let s := if instDiffers s e.inst then
          let n : Staged := { inst := e.inst, writes := q.writes, words := stageWords s e.inst }
          { s with commit := { s.commit with staged := s.commit.staged ++ [n] } }
        else s
      forList (e.writes ++ q.writes) doneCheck s

/-! ## Group clocks (R106–R112) -/

/-- A group has a present port (R10, R112). -/
def groupPresent (s : State) (g : Nat) : Bool := (List.range 4).any (fun k => present s (4 * g + k))
/-- Group `g`. -/
def State.group (s : State) (g : Nat) : Group := (s.power.groups[g]?).getD {}
/-- Set group `g`, with CLK_STAT.PGRUN and PGSWITCH. -/
def State.setGroup (s : State) (g : Nat) (x : Group) : State :=
  let s := { s with power := { s.power with groups := listSet s.power.groups g x } }
  (s.setBit 0x200 (8 + g) (x.running && !x.stopped)).setBit 0x200 (12 + g) x.switching

/-- A port stands at its freezing boundary (R107): disabled, or neither sending nor receiving a character. -/
def freezable (s : State) (n : Nat) : Bool :=
  !pLive s n || ((s.port n).tx == .idle && !(s.port n).rxBusy)

/-- Start a group's switch to `code`: its ports at their boundaries freeze at once. -/
def beginSwitch (s : State) (g code : Nat) : State :=
  let s := s.setGroup g { s.group g with switching := true, stopped := false, target := code }
  forEach 4 (fun s k => if present s (4 * g + k) && freezable s (4 * g + k)
    then modPort s (4 * g + k) (fun p => { p with frozen := true }) else s) s

/-- Apply CLK (R107, R111, R112): CLK_PWR and CLK_WAKEEN at once; each changed group with a present port begins its switch,
each without one takes its code with PGDONE. The entry stays staged while a switch is to come. -/
def applyClk (s : State) (e : Staged) : State :=
  let want := newWord s e 0x201
  let s := putWords s (e.words.filter (fun t => t.1 != 0x201))
  let s := forEach 4 (fun s g =>
    let c := getF want (4 * g) 3
    if c = s.fld 0x201 (4 * g) 3 then s
    else if groupPresent s g then (if (s.group g).switching then s else beginSwitch s g c)
    else ((s.setGroup g { s.group g with code := c }).setFld 0x201 (4 * g) 3 c).setBit 0x205 g) s
  if (List.range 4).any (fun g => getF want (4 * g) 3 != s.fld 0x201 (4 * g) 3) then
    let keep := s.commit.staged.map (fun o =>
      if o == e then { o with words := o.words.filter (fun t => t.1 == 0x201) } else o)
    { s with commit := { s.commit with staged := keep } }
  else finishEntry s e

/-! ## Applying one entry -/

/-- Apply a port's entry in one step (R202–R206). -/
def applyPort (s : State) (n : Nat) (e : Staged) : State :=
  let t := putRuled s (.port n) e.words (portRule n)
  finishEntry (afterPort s n t) e

/-- What a circuit's fields become when an entry applies: the staged fields under the rule of its binding (R258). -/
def afterFields (s : State) (c : Nat) (e : Staged) : State := bindRule c (putWords s e.words)

/-- An entry's application takes EN of circuit `c` from 1 to 0; with DISMODE at CUT it cuts the circuit (R263, R264). -/
def leavesEn (s : State) (c : Nat) (e : Staged) : Bool := cEn s c && !cEn (afterFields s c e) c
def cutsBy (s : State) (c : Nat) (e : Staged) : Bool :=
  leavesEn s c e && cDismodeCut (afterFields s c e) c && (s.circ c).st != .disabled

/-- Apply a circuit's entry (R258–R266). A commit that takes EN to 0 with DISMODE at CUT cuts the circuit under the binding
it had. -/
def applyCircOnly (s : State) (c : Nat) (e : Staged) : State :=
  let en := cEn s c
  let bind := s.reg (cAddr c 1)
  let (r, s) := trimmedReserve s e c
  let shadow := s.shad (cAddr c 0)
  let s := if cutsBy s c e then (cutCirc s c).setShad (cAddr c 0) shadow else s
  let s := putRuled s (.circ c) e.words (fun s => quotaRule c r (bindRule c s))
  finishEntry (afterCirc c en bind (ctxEvent s c 12)) e

/-- TAP changes from 1 to 0 (R310): the inbox moves to the endpoint queue in its order; cells that a stock program has read of
a frame in progress stay with it. -/
def moveInbox (s : State) (x : Nat) : State :=
  let k := s.circ x
  let seen := (s.ctx x).stock.cells
  s.setCirc x { k with queue := k.queue ++ k.inbox.filter (fun i => !seen.contains i), inbox := k.inbox.filter (fun i => seen.contains i) }

/-- Apply a context's entry (ENTRY, TAP): the COMMIT event (Table 9-3), and the inbox's cells where TAP goes to 0; ENTRY counts
at the next start (R305). -/
def applyCtxOnly (s : State) (e : Staged) : State :=
  match e.inst with
  | .ctx x =>
    let tap := cTap s x
    let s := ctxEvent (putWords s e.words) x 12
    finishEntry (if tap && !cTap s x then moveInbox s x else s) e
  | _ => finishEntry (putWords s e.words) e

/-- The entry of circuit `c`'s context that shares a write with the circuit's entry: the two apply as one unit (R147). -/
def joinedCtx (s : State) (c : Nat) (e : Staged) : Option Staged := (stagedOf s (.ctx c)).filter (sameWrite e)
/-- The context of a unit has its turn and stands at an instruction boundary; a circuit that applies alone needs none (R147). -/
def unitReady (s : State) (c : Nat) (e : Staged) : Bool :=
  match joinedCtx s c e with | some x => inTurn s x && atInstr s c | none => true
/-- Apply a circuit's entry with that of its context. -/
def applyCirc (s : State) (c : Nat) (e : Staged) : State :=
  applyCircOnly (match joinedCtx s c e with | some x => applyCtxOnly s x | none => s) c e

/-- Apply a CAN channel's entry. -/
def applyCan (s : State) (ch : Nat) (e : Staged) : State :=
  finishEntry (afterCan s ch (putRuled s e.inst e.words (canRule ch))) e

/-- CEL has been applied: a floor that rises past S is no fall of S, so it sets no POOLLOW (R581); a refused allocation may now be granted
(Table 9-3). -/
def celWatch (s : State) : State :=
  allocEvents { s with pool := { s.pool with lowSet := decide (sharedFree s < (s.fld 0x2002 16 12 : Int)) } }

/-- Apply an entry of an instance that has no row of its own. -/
def applyPlain (s : State) (e : Staged) : State :=
  match e.inst with
  | .clk => applyClk s e
  | .cel => finishEntry (celWatch (putRuled s .cel e.words celRule)) e
  | .fab => finishEntry (afterFab s (putWords s e.words) (putRuled s .fab e.words fabRule)) e
  | .tim => finishEntry (reselect (putWords s e.words)) e
  | .str => finishEntry (afterStr (putWords s e.words)) e
  | _ => finishEntry (putWords s e.words) e

/-! ## Boundaries (Table 5-2) and turns (Table 5-3) -/

/-- Nothing applies while the PLL relocks, in start-up or in DORMANT (R119, R151). -/
def commitsRun (s : State) : Bool := !s.power.relock && s.boot.mantled && s.power.st != .dormant

/-- No cell of circuit `c` is open or being taken (R259). -/
def circQuiet (s : State) (c : Nat) : Bool :=
  countCells s (fun x => x.owner == .circ c && (x.st == .openS || x.st == .taken)) == 0

/-- The cell boundary of circuit `c` for entry `e` (R259, R263, R266). -/
def circAtBoundary (s : State) (c : Nat) (e : Staged) : Bool :=
  let t := afterFields s c e
  if leavesEn s c e && (cDismodeCut t c || (s.circ c).st == .fault) then true
  else if (s.circ c).st == .drain && cEn t c then heldBy s c == 0
  else circQuiet s c

/-- The character boundary of port `n` (R202); a port whose group clock changes in the same write waits for the group's
quiet point instead (R110, R205). -/
def portAtBoundary (s : State) (n : Nat) (e : Staged) : Bool :=
  let p := s.port n
  let withClk := match stagedOf s .clk with
    | some k => sameWrite k e && getF (newWord s k 0x201) (4 * pGroup n) 3 != s.fld 0x201 (4 * pGroup n) 3
    | none => false
  !withClk && !p.rxBusy && (p.tx == .idle || !pLive s n)

/-- Bus idle of a CAN channel, or a channel that is off, bus-off or not integrated. -/
def canAtBoundary (s : State) (ch : Nat) : Bool := (s.can ch).onBus.isNone

/-- An entry whose boundary is the moment its turn comes: GLB, STR, SUP and CLK, HST while HSEL_N is high, and a circuit that
a CUT or a fault lets go at the strobe. -/
def atOnce (s : State) (e : Staged) : Bool :=
  match e.inst with
  | .glb => true | .str => true | .sup => true
  | .clk => e.words.any (fun t => t.1 != 0x201) || !(List.range 4).any (fun g => (s.group g).switching)
  | .hst => !s.host.selected
  | .circ c =>
    leavesEn s c e && (cDismodeCut (afterFields s c e) c || (s.circ c).st == .fault) && unitReady s c e
  | _ => false

/-- Apply every entry whose boundary is the moment its turn comes. `f` bounds the loop. -/
def settleCommits : Nat → State → State
  | 0, s => s
  | f + 1, s =>
    if !commitsRun s then s
    else match s.commit.staged.find? (fun e => atOnce s e && inTurn s e) with
      | none => s
      | some e =>
        settleCommits f (match e.inst with
          | .circ c => applyCirc s c e
          | _ => applyPlain s e)

/-- Settle with room for every instance there is. -/
def settleAll (s : State) : State := settleCommits 160 s

/-! ## GLB_COMMIT (R141, R142, R152) -/

/-- The instances of a strobe in application order. -/
def byPosition (l : List Inst) : List Inst := (List.range 15).flatMap (fun p => l.filter (fun i => instPos i == p))

/-- A write of GLB_COMMIT with bits `groups` (R119, R141–R144, R149, R152). -/
def doCommit (s : State) (groups : Nat) : State :=
  if groups = 0 then s
  else if !s.boot.mantled then holdCommit s groups
  else
    let w := s.commit.nextWrite
    let s := { s with commit := { s.commit with nextWrite := w + 1 } }
    let s := forList (byPosition (strobedInsts s groups)) (strobeInst [w]) s
    settleAll (doneCheck s w)
/-- COMMIT_STROBE (R141). -/
def execCommitStrobe (groups : BitVec 8) (s : State) : Res := .next (viaHost s (fun s => doCommit s groups.toNat))

/-! ## Boundary events -/

/-- PORT_COMMIT_APPLY (R202). -/
def doPortApply (s : State) (n : Nat) : State :=
  match stagedOf s (.port n) with
  | some e => if commitsRun s && inTurn s e && portAtBoundary s n e then settleAll (applyPort s n e) else s
  | none => s
def execPortCommitApply (n : PortId) (s : State) : Res := .next (doPortApply s n.val)

/-- A circuit and, where the same write staged it, its context apply as one unit (R147, R260). -/
def doCircuitApply (s : State) (c : Nat) : State :=
  match stagedOf s (.circ c) with
  | none => s
  | some e =>
    if commitsRun s && inTurn s e && circAtBoundary s c e && unitReady s c e then settleAll (applyCirc s c e) else s
/-- CIRCUIT_COMMIT_APPLY (R260). -/
def execCircuitCommitApply (c : CircId) (s : State) : Res := .next (doCircuitApply s c.val)

/-- The context part of a write that staged no fields of its circuit: at an instruction boundary of the context, and where TAP changes at
the circuit's cell boundary (Tables 5-2 and 9-16). -/
def doCtxApply (s : State) (x : Nat) : State :=
  match stagedOf s (.ctx x) with
  | none => s
  | some e =>
    let joined := match stagedOf s (.circ x) with | some c => sameWrite c e | none => false
    let tap := (newWord s e (xAddr x 0)).getLsbD 24 != cTap s x
    if commitsRun s && inTurn s e && !joined && atInstr s x && (!tap || circQuiet s x) then settleAll (applyCtxOnly s e) else s

/-- CAN_COMMIT_APPLY (R465). -/
def doCanApply (s : State) (ch : Nat) : State :=
  match stagedOf s (if ch = 0 then .cana else .canb) with
  | some e => if commitsRun s && inTurn s e && canAtBoundary s ch then settleAll (applyCan s ch e) else s
  | none => s
def execCanCommitApply (ch : ChanId) (s : State) : Res := .next (doCanApply s ch.val)

/-- Every side of every trunk stands between two packets: no frame is being sent or received, no packet is partly sent or partly
reassembled. The fabric's fields apply together at such a moment (DESIGN CHOICE, log entry 61). -/
def fabBetween (s : State) : Bool :=
  (List.range 6).all (fun k => !(s.trunk k).sending && ((s.trunk k).lock == .hunt || (s.trunk k).rx.isEmpty)) &&
  s.fab.reasm.isEmpty && s.outQ.all (fun o => o.sent == 0)

/-- No journal record stands between its two phases. -/
def jnlBetween (s : State) : Bool :=
  s.jwrite.sealed.isNone && (match s.jwrite.ckpt with | some (m, _) => m == 0 | none => true)

/-- The boundary of an instance without a row of its own (Table 5-2): TIM at a second boundary, HST with HSEL_N high, MEM and JNL
between two queue entries and two records, FAB between packets, the shared SEQ fields with every circuit context at an instruction
boundary; CEL when the event is asserted. -/
def plainAtBoundary (s : State) (i : Inst) : Bool :=
  match i with
  | .tim => decide (s.now.toNat % 2 ^ 32 < 4195)
  | .hst => !s.host.selected
  | .mem => s.mem.active.isNone && jnlBetween s
  | .fab => fabBetween s
  | .seq => (List.range 64).all (atInstr s)
  | .clk => !(List.range 4).any (fun g => (s.group g).switching)
  | _ => true

/-- COMMIT_APPLY (R145, R146): an instance reaches its boundary in its turn. -/
def doApply (s : State) (i : Inst) : State :=
  match i with
  | .port n => doPortApply s n
  | .circ c => doCircuitApply s c
  | .ctx x => doCtxApply s x
  | .cana => doCanApply s 0
  | .canb => doCanApply s 1
  | _ =>
    match stagedOf s i with
    | some e => if commitsRun s && inTurn s e && plainAtBoundary s i then settleAll (applyPlain s e) else s
    | none => s
def execCommitApply (i : Inst) (s : State) : Res := .next (doApply s i)

/-- COMMIT_SLOW (R150): a commit has been staged for longer than the limit: SLOW once for it, SLOWCNT, a commit-slow record.
-/
def execCommitSlow (i : Inst) (s : State) : Res :=
  match stagedOf s i with
  | some e =>
    if e.slow || s.fld 0x0A 0 8 = 0 then .next s
    else
      let l := s.commit.staged.map (fun o => if o == e then { o with slow := true } else o)
      let s := { s with commit := { s.commit with staged := l } }
      .next (journal ((s.count 0x09 16 16).setBit 0x0B 2) 0x2A 0 [BitVec.ofNat 8 (instBlock i)])
  | none => .next s

/-! ## The group clock switch -/

/-- PORT_FREEZE (R107). -/
def execPortFreeze (n : PortId) (s : State) : Res :=
  let n := n.val
  if present s n && pSwitching s n && !(s.group (pGroup n)).stopped && freezable s n
  then .next (modPort s n (fun p => { p with frozen := true })) else .next s

/-- GROUP_QUIET_POINT (R107): every port of the group is frozen; its clock stops. -/
def execGroupQuietPoint (g : Fin 4) (s : State) : Res :=
  let g := g.val
  let x := s.group g
  if x.switching && !x.stopped && !s.power.relock &&
      (List.range 4).all (fun k => !present s (4 * g + k) || (s.port (4 * g + k)).frozen)
  then .next (s.setGroup g { x with stopped := true }) else .next s

/-- GROUP_CLOCK_RELEASE (R107–R111): the code and the port fields committed with it take effect together, the ports unfreeze
and arm anew, PGDONE. -/
def execGroupClockRelease (g : Fin 4) (s : State) : Res :=
  let g := g.val
  let x := s.group g
  if !(x.switching && x.stopped && !s.power.relock) then .next s
  else
    let clk := stagedOf s .clk
    let s := s.setGroup g { x with running := true, switching := false, stopped := false, code := x.target }
    let s := (s.setFld 0x201 (4 * g) 3 x.target).setBit 0x205 g
    let s := forEach 4 (fun s k =>
      let n := 4 * g + k
      let s := match clk, stagedOf s (.port n) with
        | some c, some e => if sameWrite c e then applyPort s n e else s
        | _, _ => s
      if present s n then modPort s n (fun p => { disarm p with frozen := false }) else s) s
    let s := match clk with
      | some c =>
        if (List.range 4).all (fun h => getF (newWord s c 0x201) (4 * h) 3 == s.fld 0x201 (4 * h) 3) then finishEntry s c else s
      | none => s
    .next (settleAll s)

end Sys2Proof.Machine
end

