-- ==== Sys2Proof/Machine/Status.lean ====
section
/-! DEFINITION. Sys2Proof/Machine/Status.lean: status words of ports and circuits, and cell headers, as they are read
(Tables 6-7, 7-1, 7-2, 7-11). -/
namespace Sys2Proof.Machine

/-- A word from fields: low bit and value. -/
def ofFields (l : List (Nat × Nat)) : Word := BitVec.ofNat 32 (l.foldl (fun t e => t + e.2 * 2 ^ e.1) 0)

/-- RTS is asserted on CTL (R210, R211, R216): only in the RTS role of an enabled port, not while it is gloved, stands by or rests in
DORMANT. -/
def rtsOut (s : State) (n : Nat) : Bool :=
  pEn s n && pRole s n == 1 && (s.port n).rts && !(s.port n).gloved && !standsBy s && s.power.st != .dormant

/-- Pnn_STAT (Table 6-7); 0 for an absent port (R6). -/
def portStat (s : State) (n : Nat) : Word :=
  if !present s n then 0#32
  else
    let p := s.port n
    let busy := p.tx == .char || p.tx == .brk || p.tx == .lag
    ofFields [(0, b2n p.armed), (1, b2n p.rxBusy), (2, b2n busy), (3, b2n (pRole s n == 2 && p.de)), (4, b2n (rtsOut s n)), (5, b2n p.cts),
      (6, b2n p.xstop), (7, b2n p.xsent), (8, b2n p.lineBrk), (9, b2n (pSwitching s n)), (10, b2n p.gloved),
      (11, b2n p.rxHold.isSome), (12, b2n p.txHold.isSome), (13, b2n (isStaged s (.port n))), (16, p.frame)]

/-- Cnn_STAT.STATE (Table 7-7). -/
def circCode : CircSt → Nat
  | .disabled => 0 | .run => 1 | .drain => 2 | .fault => 3

/-- Cnn_QSTAT.WAITING: closed cells in the endpoint queue, the inbox and the read cursor (R261, R310). -/
def circWaiting (s : State) (c : Nat) : Nat :=
  (s.circ c).queue.length + (s.circ c).inbox.length + (match (s.ctx c).rcur with | .held _ _ _ => 1 | _ => 0)

/-- Cnn_STAT. -/
def circStat (s : State) (c : Nat) : Word :=
  let has (st : CellSt) : Bool := s.cells.any (fun e => e.2.owner == .circ c && e.2.st == st)
  ofFields [(0, circCode (s.circ c).st), (2, b2n (has .openS)), (3, b2n (has .taken)), (16, heldBy s c)]

/-- Cnn_QSTAT. -/
def circQstat (s : State) (c : Nat) : Word := ofFields [(0, circWaiting s c), (16, (s.circ c).credits)]

/-- Cnn_SEQ. -/
def circSeqWord (s : State) (c : Nat) : Word := ofFields [(0, (s.circ c).txseq), (16, (s.circ c).tombSeq)]

/-- A cell's FLAGS (Table 7-2). -/
def cellFlags (x : Cell) : Nat :=
  b2n x.errChr * 128 + b2n x.afterLoss * 64 + b2n x.cont * 32 + b2n x.tomb * 16 + x.cause % 8

/-- The code of a cell's STATE (Table 7-1). -/
def cellStCode : CellSt → Nat
  | .free => 0 | .openS => 1 | .closed => 2 | .taken => 3

/-- The four words of a cell's header (Table 7-1), most significant byte first. -/
def headerWord (x : Cell) : Nat → Word
  | 0 => ofFields [(24, ownerCode x.owner), (22, x.cls % 4), (20, cellStCode x.st), (8, x.payload.length), (0, cellFlags x)]
  | 1 => ofFields [(16, x.seq % 2 ^ 16), (0, x.origin / 2 ^ 8 % 2 ^ 16)]
  | 2 => ofFields [(24, x.origin % 2 ^ 8), (0, x.ts % 2 ^ 24)]
  | _ => x.sleeve

end Sys2Proof.Machine
end

