-- ==== Sys2Proof/Machine/Flags.lean ====
section
/-! DEFINITION. Sys2Proof/Machine/Flags.lean: general registers and the flags Z, N, C, V and E of a context (R337, R340), the
sums and shifts of Table 10-3, and the branch conditions of Table 10-2. -/
namespace Sys2Proof.Machine

/-- A general register of context `x`. -/
def greg (s : State) (x : Nat) (r : Reg) : Word := fget (fun _ => 0#32) (s.ctx x).g r.val
/-- Change context `x`. -/
def modCtx (s : State) (x : Nat) (f : Ctx → Ctx) : State := s.setCtx x (f (s.ctx x))
/-- Write a general register, with fresh check bits (R290). -/
def setGreg (s : State) (x : Nat) (r : Reg) (v : Word) : State :=
  modCtx s x (fun k => { k with g := fset (fun _ => 0#32) k.g r.val v, gBad := k.gBad.filter (· != r.val) })

/-- Set Z from a result (R340). -/
def setZ (s : State) (x : Nat) (v : Word) : State := modCtx s x (fun k => { k with z := v == 0#32 })
/-- Set Z and N from a result. -/
def setZN (s : State) (x : Nat) (v : Word) : State := modCtx s x (fun k => { k with z := v == 0#32, n := v.getLsbD 31 })
/-- Set Z, N and C. -/
def setZNC (s : State) (x : Nat) (v : Word) (c : Bool) : State :=
  modCtx s x (fun k => { k with z := v == 0#32, n := v.getLsbD 31, c := c })
/-- Set Z, N, C and V. -/
def setZNCV (s : State) (x : Nat) (v : Word) (c o : Bool) : State :=
  modCtx s x (fun k => { k with z := v == 0#32, n := v.getLsbD 31, c := c, v := o })
/-- Set or clear E. -/
def setE (s : State) (x : Nat) (e : Bool) : State := modCtx s x (fun k => { k with e := e })

/-- The carry out of an addition. -/
def carryAdd (a b : Word) : Bool := decide (2 ^ 32 ≤ a.toNat + b.toNat)
/-- Signed overflow of an addition. -/
def overAdd (a b : Word) : Bool := decide (a.toInt + b.toInt ≠ (a + b).toInt)
/-- C of a subtraction: 1 when `a` is not below `b` unsigned. -/
def carrySub (a b : Word) : Bool := decide (b.toNat ≤ a.toNat)
/-- Signed overflow of a subtraction. -/
def overSub (a b : Word) : Bool := decide (a.toInt - b.toInt ≠ (a - b).toInt)

/-- The shifts of Table 10-3. -/
inductive Shift where
  | shl | shr | sar | ror
  deriving DecidableEq, Repr

/-- A shift by `n` below 32: the result and C, the last bit shifted out, 0 for a shift by 0; ROR takes C from the new bit 31
(DEDUCED: of every rotation, log entry 18). -/
def shiftBy (k : Shift) (v : Word) (n : Nat) : Word × Bool :=
  match k with
  | .shl => (v <<< n, decide (n ≠ 0) && v.getLsbD (32 - n))
  | .shr => (v >>> n, decide (n ≠ 0) && v.getLsbD (n - 1))
  | .sar => (v.sshiftRight n, decide (n ≠ 0) && v.getLsbD (n - 1))
  | .ror => (v.rotateRight n, (v.rotateRight n).getLsbD 31)

/-- Whether a condition holds of a context's flags (Table 10-2). -/
def condHolds (k : Ctx) : Cond → Bool
  | .al => true
  | .eq => k.z
  | .ne => !k.z
  | .cs => k.c
  | .cc => !k.c
  | .mi => k.n
  | .pl => !k.n
  | .er => k.e
  | .ner => !k.e
  | .hi => k.c && !k.z
  | .ls => !k.c || k.z
  | .ge => k.n == k.v
  | .lt => k.n != k.v
  | .gt => !k.z && k.n == k.v
  | .le => k.z || k.n != k.v

end Sys2Proof.Machine
end

