-- ==== Sys2Proof/Machine/Operands.lean ====
section
/-! DEFINITION. Sys2Proof/Machine/Operands.lean: how a context fetches and issues: the program space (R315), the prefetch
lines (R319–R321), eligibility (R301), the run limit (R316) and what an instruction's effect may come to. -/
namespace Sys2Proof.Machine

/-- Authentication is required (STRAP_F bit 3, R326), as SEQ_STAT.AUTHREQ shows. -/
def authReq (s : State) : Bool := s.bit 0x2400 3

/-- The flash's bytes as the device uses them (MEM_FLASH.DENS); 0 with no flash (MEM_STAT.FLASH). -/
def flashBytes (s : State) : Nat := if s.bit 0x3001 0 then 2 ^ (s.fld 0x3002 0 5) else 0

/-- Flash byte `i` lies in the loaded image's XIP section (R326); XIPOFF 0 means that it has none (Table 9-6). -/
def inXipSection (s : State) (i : Nat) : Bool :=
  s.fld 0x2400 1 2 != 0 && s.reg 0x2405 != 0#32 && decide ((s.reg 0x2405).toNat ≤ i) && decide (i < (s.reg 0x2405).toNat + (s.reg 0x2406).toNat)

/-- What a fetch comes to: a word, a context fault's code, or a miss of a line address. -/
inductive Fetched where
  | word (w : Word)
  | fault (code : Nat)
  | miss (line : Nat)
  deriving DecidableEq, Repr

/-- The valid prefetch line of a line address. -/
def lineOf (s : State) (la : Nat) : Option Line := s.seq.lines.find? (fun l => l.addr == la)

/-- Fetch the program word at address `a` for a circuit context (R315, R326, R329, Table 9-5). -/
def fetchWord (s : State) (a : Nat) : Fetched :=
  if a < 0x4000 then
    if s.bit 0x2400 6 then .fault 3
    else if s.pool.iramBad.contains a then .fault 4
    else .word (s.reg (0xC000 + a))
  else if a < 0x4800 then (if s.pool.romBad.contains a then .fault 4 else .word (Config.romWord a))
  else if a < 0x400000 then .fault 2
  else
    let j := a - 0x400000
    if flashBytes s < 4 * j + 4 then .fault 2
    else if authReq s && !inXipSection s (4 * j) then .fault 3
    else match lineOf s (j / 8) with
      | some l => .word ((l.words[j % 8]?).getD 0#32)
      | none => .miss (j / 8)

/-- A fill is requested or running. -/
def fillBusy (s : State) : Bool :=
  let xip : Option MemKind → Bool | some (.xip _) => true | _ => false
  !s.mem.fills.isEmpty || xip s.mem.active || xip s.mem.again

/-- Request the fill of a line address, unless it is requested or running already (R320). -/
def requestFill (s : State) (la : Nat) : State :=
  if s.mem.fills.contains la || s.mem.active == some (.xip la) || s.mem.again == some (.xip la) then s
  else { s with mem := { s.mem with fills := s.mem.fills ++ [la] } }

/-- A hit in the XIP window: its line becomes the most recently used; from the second half of a line the following line is
filled where no fill is in progress and no line holds it (R319, R321). -/
def touchLine (s : State) (a : Nat) : State :=
  if a < 0x400000 then s
  else
    let j := a - 0x400000
    let s := match lineOf s (j / 8) with
      | some l => { s with seq := { s.seq with lines := l :: s.seq.lines.filter (fun m => m.addr != l.addr) } }
      | none => s
    if 4 ≤ j % 8 ∧ fillBusy s = false ∧ lineOf s (j / 8 + 1) = none ∧ 32 * (j / 8 + 1) + 32 ≤ flashBytes s
    then requestFill s (j / 8 + 1) else s

/-- A context that may issue (R301): in RUN, not waiting for a fill, not stopped; a context in a stock program is run by that
program as a whole (log entry 15). -/
def ctxReady (s : State) (x : Nat) : Bool :=
  let k := s.ctx x
  k.st == .run && k.fill.isNone && !s.power.relock && s.power.st != .dormant && (stockAt (progAddr k)).isNone

/-- What an instruction's effect comes to: done, the next instruction following; a jump; a context fault, with no effect; a
fault that the effect has taken itself; a wait for a port's holding register that leaves the instruction unexecuted (R342); a
program word to be read into a register once the line that it misses has been filled. -/
inductive Act where
  | go (s : State)
  | jump (s : State) (a : Nat)
  | fault (code : Nat)
  | faulted (s : State)
  | block (p : Nat)
  | load (d : Reg) (a line : Nat)

/-- A context waits for a fill (R320). -/
def waitFill (s : State) (x la : Nat) : State := requestFill (modCtx s x (fun k => { k with fill := some la })) la

/-- Issue what context `x` fetches, if it may issue: a fetch fault or a miss is taken; where `is w` accepts the fetched word,
the instruction executes with effect `f`, counted and held to the run limit; any other word leaves the state unchanged. An
uncorrectable error in one of the registers `src` that it reads faults with code 4 (R290, R317). -/
def issueIf (x : Nat) (is : Word → Bool) (wait : Bool) (src : List Reg) (f : State → Act) (s : State) : State :=
  if !ctxReady s x then s
  else
    let a := progAddr (s.ctx x)
    match fetchWord s a with
    | .fault c => ctxFaultC s x c
    | .miss la => waitFill s x la
    | .word w =>
      if !is w then s
      else
        let t := touchLine (modCtx s x (fun k => { k with portWait := none })) a
        if !wait && overLimit t x then ctxFaultC (noteIssue t x false) x 9
        else
          let u := noteIssue t x wait
          if src.any (fun r => (u.ctx x).gBad.contains r.val) then ctxFaultC u x 4
          else match f u with
          | .go s' => advance s' x (a + 1)
          | .jump s' b => advance s' x b
          | .fault c => ctxFaultC u x c
          | .faulted s' => s'
          | .block p => modCtx s x (fun k => { k with portWait := some p })
          | .load d b la => waitFill (modCtx u x (fun k => { k with ldp := some (d.val, b) })) x la

/-- A WAIT, which clears the run count (R316). -/
def isWait : SeqOp → Bool
  | .wait _ => true
  | _ => false

/-- Issue instruction `op` in context `x` with effect `f`: nothing happens unless the context fetches `op`. -/
def issue (x : Nat) (op : SeqOp) (f : State → Act) (s : State) : State :=
  issueIf x (fun w => seqDecode w == some op) (isWait op) op.reads f s

end Sys2Proof.Machine
end

