-- ==== Sys2Proof/Machine/Sequencer.lean ====
section
/-! DEFINITION. Sys2Proof/Machine/Sequencer.lean: the instructions of circuit contexts but those on cells: arithmetic, bit
fields, control flow, events and time, the CRC engine and the pattern matchers, credit and system (R343–R350, R358). A
command names its context `x`; it stands for that context's issue of the instruction. -/
namespace Sys2Proof.Machine

/-! ## Shapes -/

/-- Gd takes a result with Z, N, C and V. -/
def putZNCV (s : State) (x : Nat) (d : Reg) (v : Word) (c o : Bool) : Act := .go (setZNCV (setGreg s x d v) x v c o)
/-- Gd takes a result with Z and N. -/
def putZN (s : State) (x : Nat) (d : Reg) (v : Word) : Act := .go (setZN (setGreg s x d v) x v)
/-- Gd takes a result with Z. -/
def putZ (s : State) (x : Nat) (d : Reg) (v : Word) : Act := .go (setZ (setGreg s x d v) x v)
/-- Gd takes a shift's result with Z, N and C. -/
def putShift (s : State) (x : Nat) (d : Reg) (r : Word × Bool) : Act := .go (setZNC (setGreg s x d r.1) x r.1 r.2)

/-- imm18 sign-extended (R339). -/
def simm (i : BitVec 18) : Word := i.signExtend 32
/-- imm18 zero-extended (R339). -/
def uimm (i : BitVec 18) : Word := i.setWidth 32

/-! ## Arithmetic and logic (R343, Table 10-3) -/

def execAdd (x : CircId) (d a b : Fin 16) (s : State) : Res :=
  .next (issue x.val (.add d a b) (fun s =>
    let p := greg s x.val a
    let q := greg s x.val b
    putZNCV s x.val d (p + q) (carryAdd p q) (overAdd p q)) s)
def execSub (x : CircId) (d a b : Fin 16) (s : State) : Res :=
  .next (issue x.val (.sub d a b) (fun s =>
    let p := greg s x.val a
    let q := greg s x.val b
    putZNCV s x.val d (p - q) (carrySub p q) (overSub p q)) s)
def execAnd (x : CircId) (d a b : Fin 16) (s : State) : Res :=
  .next (issue x.val (.and d a b) (fun s => putZN s x.val d (greg s x.val a &&& greg s x.val b)) s)
def execOr (x : CircId) (d a b : Fin 16) (s : State) : Res :=
  .next (issue x.val (.or d a b) (fun s => putZN s x.val d (greg s x.val a ||| greg s x.val b)) s)
def execXor (x : CircId) (d a b : Fin 16) (s : State) : Res :=
  .next (issue x.val (.xor d a b) (fun s => putZN s x.val d (greg s x.val a ^^^ greg s x.val b)) s)
/-- The count of a register shift: Gb bits 4:0. -/
def shCount (s : State) (x : Nat) (b : Reg) : Nat := (greg s x b).toNat % 32
def execShl (x : CircId) (d a b : Fin 16) (s : State) : Res :=
  .next (issue x.val (.shl d a b) (fun s => putShift s x.val d (shiftBy .shl (greg s x.val a) (shCount s x.val b))) s)
def execShr (x : CircId) (d a b : Fin 16) (s : State) : Res :=
  .next (issue x.val (.shr d a b) (fun s => putShift s x.val d (shiftBy .shr (greg s x.val a) (shCount s x.val b))) s)
def execSar (x : CircId) (d a b : Fin 16) (s : State) : Res :=
  .next (issue x.val (.sar d a b) (fun s => putShift s x.val d (shiftBy .sar (greg s x.val a) (shCount s x.val b))) s)
def execCmp (x : CircId) (a b : Fin 16) (s : State) : Res :=
  .next (issue x.val (.cmp a b) (fun s =>
    let p := greg s x.val a
    let q := greg s x.val b
    .go (setZNCV s x.val (p - q) (carrySub p q) (overSub p q))) s)
def execMul (x : CircId) (d a b : Fin 16) (s : State) : Res :=
  .next (issue x.val (.mul d a b) (fun s => putZN s x.val d (greg s x.val a * greg s x.val b)) s)
def execAddi (x : CircId) (d a : Fin 16) (imm : BitVec 18) (s : State) : Res :=
  .next (issue x.val (.addi d a imm) (fun s =>
    let p := greg s x.val a
    let q := simm imm
    putZNCV s x.val d (p + q) (carryAdd p q) (overAdd p q)) s)
def execAndi (x : CircId) (d a : Fin 16) (imm : BitVec 18) (s : State) : Res :=
  .next (issue x.val (.andi d a imm) (fun s => putZN s x.val d (greg s x.val a &&& uimm imm)) s)
def execOri (x : CircId) (d a : Fin 16) (imm : BitVec 18) (s : State) : Res :=
  .next (issue x.val (.ori d a imm) (fun s => putZN s x.val d (greg s x.val a ||| uimm imm)) s)
def execXori (x : CircId) (d a : Fin 16) (imm : BitVec 18) (s : State) : Res :=
  .next (issue x.val (.xori d a imm) (fun s => putZN s x.val d (greg s x.val a ^^^ uimm imm)) s)
def execCmpi (x : CircId) (a : Fin 16) (imm : BitVec 18) (s : State) : Res :=
  .next (issue x.val (.cmpi a imm) (fun s =>
    let p := greg s x.val a
    let q := simm imm
    .go (setZNCV s x.val (p - q) (carrySub p q) (overSub p q))) s)
def execShiShl (x : CircId) (d a : Fin 16) (n : BitVec 5) (s : State) : Res :=
  .next (issue x.val (.shiShl d a n) (fun s => putShift s x.val d (shiftBy .shl (greg s x.val a) n.toNat)) s)
def execShiShr (x : CircId) (d a : Fin 16) (n : BitVec 5) (s : State) : Res :=
  .next (issue x.val (.shiShr d a n) (fun s => putShift s x.val d (shiftBy .shr (greg s x.val a) n.toNat)) s)
def execShiSar (x : CircId) (d a : Fin 16) (n : BitVec 5) (s : State) : Res :=
  .next (issue x.val (.shiSar d a n) (fun s => putShift s x.val d (shiftBy .sar (greg s x.val a) n.toNat)) s)
def execShiRor (x : CircId) (d a : Fin 16) (n : BitVec 5) (s : State) : Res :=
  .next (issue x.val (.shiRor d a n) (fun s => putShift s x.val d (shiftBy .ror (greg s x.val a) n.toNat)) s)

/-! ## Bit fields, constants and program words (R344, Table 10-4) -/

def execMovi (x : CircId) (d : Fin 16) (imm : BitVec 18) (s : State) : Res :=
  .next (issue x.val (.movi d imm) (fun s => .go (setGreg s x.val d (simm imm))) s)
def execMovh (x : CircId) (d : Fin 16) (imm : BitVec 16) (s : State) : Res :=
  .next (issue x.val (.movh d imm) (fun s => .go (setGreg s x.val d (setF (greg s x.val d) 16 16 imm.toNat))) s)
/-- EXT: `l` is L − 1; an encoding with P + L above 32 is reserved, so it never is the word fetched. -/
def execExt (x : CircId) (d a : Fin 16) (l p : BitVec 5) (s : State) : Res :=
  .next (issue x.val (.ext d a l p) (fun s =>
    putZN s x.val d (BitVec.ofNat 32 (getF (greg s x.val a) p.toNat (l.toNat + 1)))) s)
def execIns (x : CircId) (d a : Fin 16) (l p : BitVec 5) (s : State) : Res :=
  .next (issue x.val (.ins d a l p) (fun s =>
    putZN s x.val d (setF (greg s x.val d) p.toNat (l.toNat + 1) (greg s x.val a).toNat)) s)
def execBtst (x : CircId) (a : Fin 16) (p : BitVec 5) (s : State) : Res :=
  .next (issue x.val (.btst a p) (fun s =>
    .go (modCtx s x.val (fun k => { k with z := !(greg s x.val a).getLsbD p.toNat }))) s)
/-- LDP: a program word, fetched as an instruction would be; on a miss it completes when the line has been filled (R342). -/
def execLdp (x : CircId) (d a : Fin 16) (s : State) : Res :=
  .next (issue x.val (.ldp d a) (fun s =>
    let t := (greg s x.val a).toNat % 2 ^ 23
    match fetchWord s t with
    | .word w => .go (setGreg (touchLine s t) x.val d w)
    | .fault c => .fault c
    | .miss la => .load d t la) s)

/-! ## Control flow (R339, R345, R346, Table 10-5) -/

/-- A signed 22-bit offset from an address, modulo 2²³. -/
def branchTarget (a : Nat) (off : BitVec 22) : Nat := (a + (off.signExtend 23).toNat) % 2 ^ 23

def execBr (x : CircId) (c : Cond) (off : BitVec 22) (s : State) : Res :=
  .next (issue x.val (.br c off) (fun s =>
    let k := s.ctx x.val
    if condHolds k c then .jump s (branchTarget (progAddr k) off) else .go s) s)
def execJmp (x : CircId) (t : BitVec 23) (s : State) : Res :=
  .next (issue x.val (.jmp t) (fun s => .jump s t.toNat) s)
/-- CALL: the next instruction's address is pushed; a fifth address faults with code 8. -/
def execCall (x : CircId) (t : BitVec 23) (s : State) : Res :=
  .next (issue x.val (.call t) (fun s =>
    let k := s.ctx x.val
    if 4 ≤ k.stack.length then .fault 8
    else .jump (s.setCtx x.val { k with stack := BitVec.ofNat 23 (progAddr k + 1) :: k.stack }) t.toNat) s)
/-- RET: an empty stack faults with code 8. -/
def execRet (x : CircId) (s : State) : Res :=
  .next (issue x.val .ret (fun s =>
    let k := s.ctx x.val
    match k.stack with
    | [] => .fault 8
    | t :: rest => .jump (s.setCtx x.val { k with stack := rest }) t.toNat) s)
def execJr (x : CircId) (a : Fin 16) (s : State) : Res :=
  .next (issue x.val (.jr a) (fun s => .jump s ((greg s x.val a).toNat % 2 ^ 23)) s)
/-- ILLEGAL_ENCODING (R338): the word fetched is a reserved encoding: code 1. -/
def execIllegalEncoding (x : CircId) (s : State) : Res :=
  .next (issueIf x.val (fun w => (seqDecode w).isNone) false [] (fun _ => .fault 1) s)

/-! ## Events, timers and time (R311–R313, R347, R348, Table 10-6) -/

/-- Deliver EP AND EM to a register and clear exactly those bits of EP (R312). -/
def deliverEvents (s : State) (x : Nat) (d : Reg) : State :=
  let k := s.ctx x
  let m := k.ep &&& k.em
  modCtx (setGreg s x d (m.setWidth 32)) x (fun k => { k with ep := k.ep &&& ~~~m })
/-- WAIT: at once where an enabled event is pending; a context fault of code 12 with EM 0; else the context waits. -/
def execWait (x : CircId) (d : Fin 16) (s : State) : Res :=
  .next (issue x.val (.wait d) (fun s =>
    let k := s.ctx x.val
    if k.em = 0#16 then .fault 12
    else if k.ep &&& k.em ≠ 0#16 then .go (deliverEvents s x.val d)
    else .go (modCtx s x.val (fun k => { k with st := .wait, waitReg := d.val }))) s)

/-- Gd takes the old EM, EM a new value (EVM). -/
def swapMask (s : State) (x : Nat) (d : Reg) (m : BitVec 16) : Act :=
  .go (modCtx (setGreg s x d ((s.ctx x).em.setWidth 32)) x (fun k => { k with em := m }))
def execEvmSet (x : CircId) (d : Fin 16) (m : BitVec 14) (s : State) : Res :=
  .next (issue x.val (.evmSet d m) (fun s => swapMask s x.val d (m.setWidth 16)) s)
def execEvmOr (x : CircId) (d : Fin 16) (m : BitVec 14) (s : State) : Res :=
  .next (issue x.val (.evmOr d m) (fun s => swapMask s x.val d ((s.ctx x.val).em ||| m.setWidth 16)) s)
def execEvmClr (x : CircId) (d : Fin 16) (m : BitVec 14) (s : State) : Res :=
  .next (issue x.val (.evmClr d m) (fun s => swapMask s x.val d ((s.ctx x.val).em &&& ~~~(m.setWidth 16))) s)
def execEvmPeek (x : CircId) (d : Fin 16) (m : BitVec 14) (s : State) : Res :=
  .next (issue x.val (.evmPeek d m) (fun s =>
    let v := (s.ctx x.val).ep &&& m.setWidth 16
    putZ (modCtx s x.val (fun k => { k with ep := k.ep &&& ~~~v })) x.val d (v.setWidth 32)) s)
def execEvmSetr (x : CircId) (d a : Fin 16) (s : State) : Res :=
  .next (issue x.val (.evmSetr d a) (fun s => swapMask s x.val d ((greg s x.val a).setWidth 16)) s)

/-- Timer TM0 (false) or TM1 (true) of a context. -/
def timerOf (k : Ctx) (n : Bool) : Tmr := if n then k.tm1 else k.tm0
/-- Set a timer. -/
def setTimer (k : Ctx) (n : Bool) (t : Tmr) : Ctx := if n then { k with tm1 := t } else { k with tm0 := t }
/-- The event bit of a timer (Table 9-3). -/
def timerBit (n : Bool) : BitVec 16 := if n then 0x80#16 else 0x40#16
/-- Start or stop a timer; its pending event bit is cleared (R347). -/
def putTimer (s : State) (x : Nat) (n : Bool) (t : Tmr) : State :=
  modCtx s x (fun k => setTimer { k with ep := k.ep &&& ~~~timerBit n } n t)
def execTmrStart (x : CircId) (n : Bool) (a : Fin 16) (s : State) : Res :=
  .next (issue x.val (.tmrStart n a) (fun s => .go (putTimer s x.val n ⟨true, (greg s x.val a).toNat % 2 ^ 24⟩)) s)
def execTmrSti (x : CircId) (n : Bool) (t : BitVec 14) (s : State) : Res :=
  .next (issue x.val (.tmrSti n t) (fun s => .go (putTimer s x.val n ⟨true, t.toNat⟩)) s)
/-- TMR.STOP: the counter keeps the ticks it had left (DEDUCED, log entry 20). -/
def execTmrStop (x : CircId) (n : Bool) (s : State) : Res :=
  .next (issue x.val (.tmrStop n) (fun s => .go (putTimer s x.val n ⟨false, (timerOf (s.ctx x.val) n).val⟩)) s)
def execTmrRead (x : CircId) (n : Bool) (d : Fin 16) (s : State) : Res :=
  .next (issue x.val (.tmrRead n d) (fun s => putZ s x.val d (BitVec.ofNat 32 (timerOf (s.ctx x.val) n).val)) s)

/-- A running timer reaches 0: it stops there and sets its event bit (R347). -/
def expireTimer (k : Ctx) (n : Bool) : Ctx :=
  if (timerOf k n).run then setTimer { k with ep := k.ep ||| timerBit n } n ⟨false, 0⟩ else k
/-- TIMER_EXPIRY: timer `n` of context `x` has counted down to 0. -/
def execTimerExpiry (x : CircId) (n : Bool) (s : State) : Res :=
  .next (modCtx s x.val (fun k => expireTimer k n))

def execTimFrac (x : CircId) (d : Fin 16) (s : State) : Res :=
  .next (issue x.val (.timFrac d) (fun s =>
    .go (setGreg (modCtx s x.val (fun k => { k with timLatch := s.now })) x.val d (s.now.setWidth 32))) s)
def execTimSecl (x : CircId) (d : Fin 16) (s : State) : Res :=
  .next (issue x.val (.timSecl d) (fun s =>
    .go (setGreg s x.val d (BitVec.ofNat 32 (secondsOf (s.ctx x.val).timLatch)))) s)
def execTimSech (x : CircId) (d : Fin 16) (s : State) : Res :=
  .next (issue x.val (.timSech d) (fun s =>
    .go (setGreg s x.val d (BitVec.ofNat 32 (secondsOf (s.ctx x.val).timLatch / 2 ^ 32)))) s)

/-! ## The CRC engine (R349) -/

/-- The low `w` bits of a word reversed. -/
def reverseBits (w : Nat) (v : Word) : Word :=
  BitVec.ofNat 32 (natOfBitsBE ((List.range w).map v.getLsbD))
/-- Feed one byte. -/
def crcFeedByte (e : CrcEng) (b : Byte) : CrcEng :=
  let b' : Byte := if e.refin then BitVec.ofNat 8 (reverseBits 8 (b.setWidth 32)).toNat else b
  { e with acc := crcByteL e.width e.poly e.acc b' }
/-- Feed bytes in order. -/
def crcFeedAll (e : CrcEng) (bs : List Byte) : CrcEng := bs.foldl crcFeedByte e
/-- Feed bytes to a context's engine. -/
def feedCrc (s : State) (x : Nat) (bs : List Byte) : State := modCtx s x (fun k => { k with crc := crcFeedAll k.crc bs })
/-- The four bytes of a word, most significant first. -/
def wordBytes (w : Word) : List Byte := bytesBE 4 w.toNat

def execCrcCfg (x : CircId) (a : Fin 16) (w : Fin 3) (rin rout : Bool) (s : State) : Res :=
  .next (issue x.val (.crcCfg a w rin rout) (fun s =>
    let n := 8 * 2 ^ w.val
    .go (modCtx s x.val (fun k =>
      { k with crc := { width := n, poly := greg s x.val a &&& maskAt 0 n, refin := rin, refout := rout, acc := 0#32 } }))) s)
def execCrcInit (x : CircId) (a : Fin 16) (s : State) : Res :=
  .next (issue x.val (.crcInit a) (fun s =>
    .go (modCtx s x.val (fun k => { k with crc := { k.crc with acc := greg s x.val a &&& maskAt 0 k.crc.width } }))) s)
def execCrcFeed (x : CircId) (a : Fin 16) (s : State) : Res :=
  .next (issue x.val (.crcFeed a) (fun s => .go (feedCrc s x.val [(greg s x.val a).setWidth 8])) s)
def execCrcFeedw (x : CircId) (a : Fin 16) (s : State) : Res :=
  .next (issue x.val (.crcFeedw a) (fun s => .go (feedCrc s x.val (wordBytes (greg s x.val a)))) s)
/-- The output of an engine: reversed under REFOUT, XORed with the low w bits of a word. -/
def crcOut (e : CrcEng) (v : Word) : Word :=
  (if e.refout then reverseBits e.width e.acc else e.acc) ^^^ (v &&& maskAt 0 e.width)
def execCrcRead (x : CircId) (d a : Fin 16) (s : State) : Res :=
  .next (issue x.val (.crcRead d a) (fun s => putZ s x.val d (crcOut (s.ctx x.val).crc (greg s x.val a))) s)

/-! ## The pattern matchers (R350) -/

/-- A matcher of a context. -/
def matcherOf (k : Ctx) (n : Bool) : Matcher := if n then k.pm1 else k.pm0
/-- Set a matcher. -/
def setMatcher (k : Ctx) (n : Bool) (m : Matcher) : Ctx := if n then { k with pm1 := m } else { k with pm0 := m }
/-- Feed one byte to a matcher. -/
def pmFeedByte (m : Matcher) (b : Byte) : Matcher :=
  { m with window := (m.window <<< 8) ||| b.setWidth 32, fed := m.fed + 1 }
/-- A matcher matches after a byte was fed. -/
def pmMatches (m : Matcher) : Bool :=
  decide (0 < m.len) && decide (m.len ≤ m.fed) && (((m.window ^^^ m.val) &&& m.mask) &&& maskAt 0 (8 * m.len)) == 0#32
/-- Feed a byte to both matchers; a match sets the MATCH event. -/
def feedPm (s : State) (x : Nat) (b : Byte) : State :=
  let k := s.ctx x
  let m0 := pmFeedByte k.pm0 b
  let m1 := pmFeedByte k.pm1 b
  let s := s.setCtx x { k with pm0 := m0, pm1 := m1 }
  if pmMatches m0 || pmMatches m1 then ctxEvent s x 8 else s

def execPmVal (x : CircId) (n : Bool) (a : Fin 16) (s : State) : Res :=
  .next (issue x.val (.pmVal n a) (fun s =>
    .go (modCtx s x.val (fun k => setMatcher k n { matcherOf k n with val := greg s x.val a }))) s)
def execPmMask (x : CircId) (n : Bool) (a : Fin 16) (s : State) : Res :=
  .next (issue x.val (.pmMask n a) (fun s =>
    .go (modCtx s x.val (fun k => setMatcher k n { matcherOf k n with mask := greg s x.val a }))) s)
def execPmLen (x : CircId) (n : Bool) (len : Fin 5) (s : State) : Res :=
  .next (issue x.val (.pmLen n len) (fun s =>
    .go (modCtx s x.val (fun k => setMatcher k n { matcherOf k n with len := len.val, fed := 0 }))) s)
def execPmFeed (x : CircId) (d a : Fin 16) (s : State) : Res :=
  .next (issue x.val (.pmFeed d a) (fun s =>
    let s := feedPm s x.val ((greg s x.val a).setWidth 8)
    let k := s.ctx x.val
    putZ s x.val d (ofFields [(0, b2n (pmMatches k.pm0)), (1, b2n (pmMatches k.pm1))])) s)
def execPmClr (x : CircId) (s : State) : Res :=
  .next (issue x.val .pmClr (fun s =>
    .go (modCtx s x.val (fun k => { k with pm0 := { k.pm0 with window := 0#32, fed := 0 }, pm1 := { k.pm1 with window := 0#32, fed := 0 } }))) s)

/-! ## Credit, state and system (R358, Table 10-11) -/

def execCrdCredits (x : CircId) (d : Fin 16) (s : State) : Res :=
  .next (issue x.val (.crdCredits d) (fun s => putZ s x.val d (BitVec.ofNat 32 (s.circ x.val).credits)) s)
def execCrdHeld (x : CircId) (d : Fin 16) (s : State) : Res :=
  .next (issue x.val (.crdHeld d) (fun s => putZ s x.val d (BitVec.ofNat 32 (heldBy s x.val))) s)
def execCrdWaiting (x : CircId) (d : Fin 16) (s : State) : Res :=
  .next (issue x.val (.crdWaiting d) (fun s => putZ s x.val d (BitVec.ofNat 32 (circWaiting s x.val))) s)
def execCrdState (x : CircId) (d : Fin 16) (s : State) : Res :=
  .next (issue x.val (.crdState d) (fun s => putZ s x.val d (BitVec.ofNat 32 (circCode (s.circ x.val).st))) s)
def execCrdInbox (x : CircId) (d : Fin 16) (s : State) : Res :=
  .next (issue x.val (.crdInbox d) (fun s => putZ s x.val d (BitVec.ofNat 32 (s.circ x.val).inbox.length)) s)
def execNop (x : CircId) (s : State) : Res := .next (issue x.val .nop (fun s => .go s) s)
def execSysCnt0 (x : CircId) (s : State) : Res :=
  .next (issue x.val .sysCnt0 (fun s => .go (s.count (xAddr x.val 5) 0 16)) s)
def execSysCnt1 (x : CircId) (s : State) : Res :=
  .next (issue x.val .sysCnt1 (fun s => .go (s.count (xAddr x.val 5) 16 16)) s)
/-- SYS.SIGNAL: circuit context `j` of the own core. -/
def execSysSignal (x : CircId) (j : Fin 8) (s : State) : Res :=
  .next (issue x.val (.sysSignal j) (fun s => .go (ctxEvent s (x.val / 8 * 8 + j.val) 11)) s)

end Sys2Proof.Machine
end

