-- ==== Sys2Proof/Machine/Cursors.lean ====
section
/-! DEFINITION. Sys2Proof/Machine/Cursors.lean: the instructions of circuit contexts on port characters and on cells (R281,
R282, R351–R357, R582, R585, Tables 10-8 to 10-10). -/
namespace Sys2Proof.Machine

/-! ## Port characters (R351–R353) -/

/-- The named port feeds the issuing context's circuit (R351); an absent port reads zero, so it feeds none. -/
def feedsCtx (s : State) (x p : Nat) : Bool := present s p && s.bit (pAddr p 3) 15 && s.fld (pAddr p 3) 8 6 == x

/-- The port is enabled and in HOLD mode. -/
def holdReady (s : State) (p : Nat) : Bool := pEn s p && !pCell s p

/-- The result word of Table 10-9. -/
def prxWord (h : RxChar) : Word :=
  ofFields [(0, h.data.toNat), (8, b2n h.mark), (9, h.cls % 4), (11, b2n h.ovr), (12, b2n h.noise), (13, b2n h.early), (14, h.entry % 16)]

/-- Take the character in the receive holding register: the result word, the character latch with the character's check, the
timestamp (R351, R352). -/
def takeChar (s : State) (x : Nat) (d : Reg) (p : Nat) (h : RxChar) : State :=
  let s := modPort s p (fun q => { q with rxHold := none })
  let s := modCtx s x (fun k => { k with chLatch := some (h.data, h.check), prxTs := fset (fun _ => 0) k.prxTs p (cellForm h.ts) })
  setE (setGreg s x d (prxWord h)) x false

/-- PRX: waits until the receive holding register is full. -/
def execPrx (x : CircId) (d p : Fin 16) (s : State) : Res :=
  .next (issue x.val (.prx d p) (fun s =>
    if !feedsCtx s x.val p.val then .fault 6
    else if !holdReady s p.val then .go (setE s x.val true)
    else match (s.port p.val).rxHold with
      | some h => .go (takeChar s x.val d p.val h)
      | none => .block p.val) s)
def execPrxNb (x : CircId) (d p : Fin 16) (s : State) : Res :=
  .next (issue x.val (.prxNb d p) (fun s =>
    if !feedsCtx s x.val p.val then .fault 6
    else if !holdReady s p.val then .go (setE s x.val true)
    else match (s.port p.val).rxHold with
      | some h => .go (takeChar s x.val d p.val h)
      | none => .go (setE s x.val true)) s)
/-- PRX.TS reads what the context keeps of the port; on a disabled port it has no effect (R351), and its row lists no flag, so E stays as
it is (R340; DEDUCED, log entry 21). -/
def execPrxTs (x : CircId) (d p : Fin 16) (s : State) : Res :=
  .next (issue x.val (.prxTs d p) (fun s =>
    if !feedsCtx s x.val p.val then .fault 6
    else if !pEn s p.val then .go s
    else .go (setGreg s x.val d (BitVec.ofNat 32 (fget (fun _ => 0) (s.ctx x.val).prxTs p.val)))) s)

/-- The source verdict of context `x` is open (R354). -/
def verdictOpen (s : State) (x : Nat) : Bool := match (s.ctx x).rcur with | .held _ _ v => v | _ => false

/-- Write the transmit holding register, computing the character's check over its data byte (R276, R353); a last-of-cell character waits
for an open verdict. -/
def putChar (s : State) (x p : Nat) (v : Word) (last : Bool) : State :=
  let b : Byte := v.setWidth 8
  let h : TxChar := ⟨b, v.getLsbD 8, last, if last && verdictOpen s x then some x else none, crc32c [b]⟩
  setE (modPort s p (fun q => { q with txHold := some h })) x false

/-- The effect of PTX and its forms; `block` says what a full register does. -/
def ptxEffect (x : Nat) (a : Reg) (p : Nat) (last block : Bool) (s : State) : Act :=
  if !feedsCtx s x p then .fault 6
  else if !holdReady s p then .go (setE s x true)
  else if (s.port p).txHold.isNone then .go (putChar s x p (greg s x a) last)
  else if block then .block p else .go (setE s x true)
def execPtx (x : CircId) (a p : Fin 16) (s : State) : Res :=
  .next (issue x.val (.ptx a p) (ptxEffect x.val a p.val false true) s)
def execPtxL (x : CircId) (a p : Fin 16) (s : State) : Res :=
  .next (issue x.val (.ptxL a p) (ptxEffect x.val a p.val true true) s)
def execPtxNb (x : CircId) (a p : Fin 16) (s : State) : Res :=
  .next (issue x.val (.ptxNb a p) (ptxEffect x.val a p.val false false) s)
/-- PBRK: a break, in either buffer mode. -/
def execPbrk (x : CircId) (p : Fin 16) (s : State) : Res :=
  .next (issue x.val (.pbrk p) (fun s =>
    if !feedsCtx s x.val p.val then .fault 6
    else if !pEn s p.val then .go (setE s x.val true)
    else .go (setE (doSendbrk s p.val) x.val false)) s)
/-- PST: Pnn_STAT of any port. -/
def execPst (x : CircId) (d p : Fin 16) (s : State) : Res :=
  .next (issue x.val (.pst d p) (fun s => putZ s x.val d (portStat s p.val)) s)

/-! ## Source verdicts (R281, R354) -/

/-- The open cell of the write cursor of context `x`. -/
def wcurOf (s : State) (x : Nat) : Option Nat := (s.cells.find? (fun e => e.2.holder == .wcur x && e.2.st == .openS)).map (·.1)

/-- Give the verdict of source cell `i` of context `x`: on a pass the held cells are queued in closing order and a
last-of-cell character is let go; on a failure the source, the held cells and the open cell are freed (Table 8-3). -/
def giveVerdict (s : State) (x i : Nat) : Bool × State :=
  let c := s.cell i
  let held := (s.ctx x).heldCells
  if sleeveBad c then
    let un := c.poison || !c.bad.isEmpty
    let s := sleeveFail s 3 x i un c.sleeve (crc32c c.payload)
    let s := modCtx s x (fun k => { k with rcur := .empty, heldCells := [] })
    let s := dropHeldChar (if un then markRetire s i else s) x
    let opens := match wcurOf s x with | some j => [j] | none => []
    (false, forList (i :: held ++ opens) (fun s j => if (s.cell j).owner == .circ x then releaseCell s j else s) s)
  else
    let s := modCtx s x (fun k => { k with heldCells := [] })
    let s := forList held (fun s j => enqueueCell s x j true) s
    (true, forEach 16 (fun s n => match (s.port n).txHold with
      | some h => if h.wait == some x then modPort s n (fun q => { q with txHold := some { h with wait := none } }) else s
      | none => s) s)

/-- Release the source: the verdict first where one is open, then pass or free it (R354). E is set on a failure. -/
def releaseSource (s : State) (x i : Nat) (pass : Bool) : State :=
  let v := if verdictOpen s x then giveVerdict s x i else (true, s)
  if v.1 then
    let s := modCtx v.2 x (fun k => { k with rcur := .empty })
    setE (if pass then enqueueCell s x i true else releaseCell s i) x false
  else setE v.2 x true

/-! ## The read cursor -/

/-- Byte `off` of cell `i` as a reader gets it: free where its memory word has an uncorrectable error (log entry 17). -/
def cellByteAt (s : State) (i off : Nat) : Byte :=
  let c := s.cell i
  if c.bad.contains (wordOfByte off) then Config.badByte i off s.fresh else (c.payload[off]?).getD 0#8

/-- `n` bytes of a cell from `off`. -/
def cellBytes (s : State) (i off n : Nat) : List Byte := (List.range n).map (fun j => cellByteAt s i (off + j))

/-- What an instruction does with the read cursor: code 5 where it is empty, E where it is lost (R585), else `f`. -/
def onRcur (s : State) (x : Nat) (f : Nat → Nat → Act) : Act :=
  match (s.ctx x).rcur with
  | .empty => .fault 5
  | .lost => .go (setE s x true)
  | .held i off _ => f i off

/-- Move the read cursor over bytes it has read: a verdict is open. -/
def readTo (s : State) (x i off : Nat) : State :=
  modCtx { s with fresh := s.fresh + 1 } x (fun k => { k with rcur := .held i off true })

/-- CUR.TAKE. -/
def execCurTake (x : CircId) (d : Fin 16) (s : State) : Res :=
  .next (issue x.val (.curTake d) (fun s =>
    let x := x.val
    match (s.ctx x).rcur, (s.circ x).inbox with
    | .held _ _ _, _ => .go (setE s x true)
    | _, [] => .go (setE (modCtx s x clearLost) x true)
    | _, i :: rest =>
      let c := s.cell i
      let s := s.setCirc x { s.circ x with inbox := rest }
      let s := modCtx s x (fun k => { k with rcur := .held i 0 false })
      .go (setE (setGreg s x d (ofFields [(0, i), (16, c.payload.length), (24, cellFlags c)])) x false)) s)
def execCurPass (x : CircId) (s : State) : Res :=
  .next (issue x.val .curPass (fun s => onRcur s x.val (fun i _ => .go (releaseSource s x.val i true))) s)
def execCurFree (x : CircId) (s : State) : Res :=
  .next (issue x.val .curFree (fun s => onRcur s x.val (fun i _ => .go (releaseSource s x.val i false))) s)
/-- CUR.SEEK. -/
def execCurSeek (x : CircId) (a : Fin 16) (s : State) : Res :=
  .next (issue x.val (.curSeek a) (fun s => onRcur s x.val (fun i off =>
    let t := (greg s x.val a).toNat
    if t < off ∨ (s.cell i).payload.length < t then .go (setE s x.val true)
    else if t = off then .go (setE s x.val false)
    else .go (setE (readTo s x.val i t) x.val false))) s)
/-- CUR.INFO: `w` selects WCUR. -/
def execCurInfo (x : CircId) (d : Fin 16) (w : Bool) (s : State) : Res :=
  .next (issue x.val (.curInfo d w) (fun s =>
    let x := x.val
    let put (s : State) (i off len : Nat) : Act :=
      .go (setE (setGreg s x d (ofFields [(0, i), (12, off), (20, len)])) x false)
    let none' : Act := .go (setE (setGreg s x d 0#32) x true)
    if w then match wcurOf s x with
      | some i => put s i (s.cell i).payload.length (s.cell i).payload.length
      | none => none'
    else match (s.ctx x).rcur with
      | .held i off _ => put s i off (s.cell i).payload.length
      | _ => none') s)
/-- CUR.HDR: 0 while RCUR is lost. -/
def execCurHdr (x : CircId) (d : Fin 16) (n : Fin 4) (s : State) : Res :=
  .next (issue x.val (.curHdr d n) (fun s =>
    match (s.ctx x.val).rcur with
    | .empty => .fault 5
    | .lost => .go (setGreg s x.val d 0#32)
    | .held i _ _ => .go (setGreg s x.val d (headerWord (s.cell i) n.val))) s)

/-! ## The write cursor -/

/-- CUR.ALLOC (R357): 0 granted, 1 refused by state, 2 at the ceiling, 3 by the pool, 4 WCUR holds a cell. A refusal lets
the ALLOC event follow. -/
def execCurAlloc (x : CircId) (d : Fin 16) (s : State) : Res :=
  .next (issue x.val (.curAlloc d) (fun s =>
    let x := x.val
    if (wcurOf s x).isSome then .go (setE (setGreg s x d 4#32) x true)
    else
      let out := allocDecide s x false
      match allocCirc s x false (3 * 2 ^ 22 + x) (.wcur x) with
      | (some _, s) => .go (setE (setGreg s x d 0#32) x false)
      | (none, s) =>
        let s := modCtx s x (fun k => { k with allocWait := true })
        let code := match out with | .state => 1#32 | .ceiling => 2#32 | _ => 3#32
        .go (setE (setGreg s x d code) x true)) s)

/-- Close the open cell of the write cursor with CAUSE 6 and given flags: the SEQ assigned, or none where a cell of LENGTH 0 was
freed instead (R234). It is held while a source verdict is open (R281). -/
def closeWcur (s : State) (x i : Nat) (err loss cont : Bool) : Option Nat × State :=
  let c := s.cell i
  let seq := (s.circ x).txseq
  let s := s.setCell i { c with errChr := err, afterLoss := loss, cont := cont }
  match closeCellAs s i x 6 (crc32c c.payload) with
  | (false, s) => (none, s)
  | (true, s) =>
    if verdictOpen s x then (some seq, modCtx s x (fun k => { k with heldCells := k.heldCells ++ [i] }))
    else (some seq, enqueueCell s x i true)

/-- CUR.CLOSE: Z as R340 says of the SEQ assigned (DEDUCED, log entry 22); Z set with Gd unchanged where the cell was
freed. -/
def execCurClose (x : CircId) (d : Fin 16) (err loss cont : Bool) (s : State) : Res :=
  .next (issue x.val (.curClose d err loss cont) (fun s =>
    match wcurOf s x.val with
    | none => .fault 5
    | some i =>
      match closeWcur s x.val i err loss cont with
      | (some seq, s) => putZ s x.val d (BitVec.ofNat 32 seq)
      | (none, s) => .go (modCtx s x.val (fun k => { k with z := true }))) s)
/-- CUR.DISC. -/
def execCurDisc (x : CircId) (s : State) : Res :=
  .next (issue x.val .curDisc (fun s =>
    match wcurOf s x.val with
    | none => .fault 5
    | some i => .go (releaseCell s i)) s)
/-- CUR.FREEI (R239–R241): the RCUR cell as CUR.FREE, the WCUR cell as CUR.DISC; E on a repeat free; a non-owner free is
refused and faults. -/
def execCurFreei (x : CircId) (a : Fin 16) (s : State) : Res :=
  .next (issue x.val (.curFreei a) (fun s =>
    let x := x.val
    let i := (greg s x a).toNat % 4096
    let c := s.cell i
    let mine := match (s.ctx x).rcur with | .held j _ _ => j == i | _ => false
    if mine then .go (releaseSource s x i false)
    else if wcurOf s x = some i then .go (setE (releaseCell s i) x false)
    else if c.owner = .circ x then .go (setE (freeByCirc s x i) x false)
    else if c.owner = .free then .go (setE (freeByCirc s x i) x true)
    else .faulted (freeByCirc s x i)) s)

/-! ## RD, WR and COPY (R355, R356) -/

/-- Feed bytes read to the CRC engine and the matchers as the options say. -/
def feedOpts (s : State) (x : Nat) (bs : List Byte) (crc pm : Bool) : State :=
  let s := if crc then feedCrc s x bs else s
  if pm then forList bs (fun s b => feedPm s x b) s else s

/-- RD: one byte, or four with WORD. -/
def execRd (x : CircId) (d : Fin 16) (crc pm soft word : Bool) (s : State) : Res :=
  .next (issue x.val (.rd d crc pm soft word) (fun s => onRcur s x.val (fun i off =>
    let n := if word then 4 else 1
    if (s.cell i).payload.length < off + n then (if soft then .go (setE s x.val true) else .fault 5)
    else
      let bs := cellBytes s i off n
      let s := feedOpts (readTo s x.val i (off + n)) x.val bs crc pm
      .go (setE (setGreg s x.val d (BitVec.ofNat 32 (natBE bs))) x.val false))) s)

/-- A write met an uncorrectable error (R582): the open cell is freed and retired, WCUR empties, E is set; point 1 for a
latched character, point 3 for any other byte. -/
def writeFail (s : State) (x i point : Nat) : State :=
  setE (releaseCell (mergeFail (sleeveFail s point x i true 0#32 0#32) i) i) x true

/-- The latched character's check does not match its byte (R277, R356): the byte is not written, the open cell is discarded, WCUR empties
and E is set; a failure of point 1. -/
def checkFail (s : State) (x i : Nat) : State :=
  let l := ((s.ctx x).chLatch.getD (0#8, 0#32))
  setE (releaseCell (sleeveFail s 1 x i false l.2 (crc32c [l.1])) i) x true

/-- WR: one byte, four with WORD, or the latched character with LATCH. -/
def execWr (x : CircId) (a : Fin 16) (crc latch word : Bool) (s : State) : Res :=
  .next (issue x.val (.wr a crc latch word) (fun s =>
    let x := x.val
    match wcurOf s x with
    | none => .fault 5
    | some i =>
      let src : Option (List Byte) :=
        if latch then (s.ctx x).chLatch.map (fun b => [b.1])
        else some (if word then wordBytes (greg s x a) else [(greg s x a).setWidth 8])
      match src with
      | none => .go (setE s x true)
      | some bs =>
        if 240 < (s.cell i).payload.length + bs.length then .fault 5
        else
          let good := !latch || (match (s.ctx x).chLatch with | some b => crc32c [b.1] == b.2 | none => true)
          let failed := checkFail s x i
          let clear (s : State) : State := if latch then modCtx s x (fun k => { k with chLatch := none }) else s
          if !good then .go (clear failed)
          else match writeBytes (clear s) i bs 0 with
          | (true, _, s) => .go (setE (if crc then feedCrc s x bs else s) x false)
          | (false, _, s) => .go (writeFail s x i (if latch then 1 else 3))) s)

/-- COPY: Ga bytes from RCUR to WCUR. After a merge error the read cursor stands after the bytes copied (DESIGN CHOICE, log
entry 23). -/
def execCopy (x : CircId) (a : Fin 16) (crc : Bool) (s : State) : Res :=
  .next (issue x.val (.copy a crc) (fun s => onRcur s x.val (fun i off =>
    let x := x.val
    let n := (greg s x a).toNat
    match wcurOf s x with
    | none => .fault 5
    | some j =>
      if (s.cell i).payload.length < off + n ∨ 240 < (s.cell j).payload.length + n then .fault 5
      else if n = 0 then .go (setE s x false)
      else
        let bs := cellBytes s i off n
        match writeBytes s j bs 0 with
        | (true, _, s) => .go (setE (if crc then feedCrc (readTo s x i (off + n)) x bs else readTo s x i (off + n)) x false)
        | (false, m, s) => .go (writeFail (readTo s x i (off + m)) x j 3))) s)

end Sys2Proof.Machine
end

