-- ==== Sys2Proof/Machine/Sha.lean ====
section
/-! DEFINITION. Sys2Proof/Machine/Sha.lean: the HMAC-SHA-256 that authenticates a program image (R326). -/
namespace Sys2Proof.Machine

/-- The first primes, from which FIPS 180-4 takes its constants. -/
def primes64 : List Nat :=
  [2, 3, 5, 7, 11, 13, 17, 19, 23, 29, 31, 37, 41, 43, 47, 53, 59, 61, 67, 71, 73, 79, 83, 89, 97, 101, 103, 107, 109,
   113, 127, 131] ++
  [137, 139, 149, 151, 157, 163, 167, 173, 179, 181, 191, 193, 197, 199, 211, 223, 227, 229, 233, 239, 241, 251, 257,
   263, 269, 271, 277, 281, 283, 293, 307, 311]

/-- The largest r below 2ⁿ⁺ʲ with rᵉ ≤ v, bit by bit from bit n − 1. -/
def rootBits (e v : Nat) : Nat → Nat → Nat
  | 0, r => r
  | n + 1, r => if (r + 2 ^ n) ^ e ≤ v then rootBits e v n (r + 2 ^ n) else rootBits e v n r

/-- A round constant: 32 bits of the fraction of the cube root of a prime. -/
def shaK (p : Nat) : Word := BitVec.ofNat 32 (rootBits 3 (p * 2 ^ 96) 36 0)
/-- An initial word: 32 bits of the fraction of the square root of a prime. -/
def shaH (p : Nat) : Word := BitVec.ofNat 32 (rootBits 2 (p * 2 ^ 64) 37 0)

def shaS0 (x : Word) : Word := x.rotateRight 7 ^^^ x.rotateRight 18 ^^^ (x >>> 3)
def shaS1 (x : Word) : Word := x.rotateRight 17 ^^^ x.rotateRight 19 ^^^ (x >>> 10)
def shaB0 (x : Word) : Word := x.rotateRight 2 ^^^ x.rotateRight 13 ^^^ x.rotateRight 22
def shaB1 (x : Word) : Word := x.rotateRight 6 ^^^ x.rotateRight 11 ^^^ x.rotateRight 25

/-- Word `k` of a list. -/
def wordAt (l : List Word) (k : Nat) : Word := (l[k]?).getD 0#32

/-- The message schedule, kept newest first: `n` more words. -/
def shaSchedule : Nat → List Word → List Word
  | 0, w => w
  | n + 1, w => shaSchedule n ((shaS1 (wordAt w 1) + wordAt w 6 + shaS0 (wordAt w 14) + wordAt w 15) :: w)

/-- One round on the eight working words. -/
def shaRound (v : List Word) (kw : Word × Word) : List Word :=
  match v with
  | [a, b, c, d, e, f, g, h] =>
    let t1 := h + shaB1 e + ((e &&& f) ^^^ (~~~e &&& g)) + kw.1 + kw.2
    let t2 := shaB0 a + ((a &&& b) ^^^ (a &&& c) ^^^ (b &&& c))
    [t1 + t2, a, b, c, d + t1, e, f, g]
  | l => l

/-- The words of a 64-byte block. -/
def blockWords : Nat → List Byte → List Word
  | 0, _ => []
  | n + 1, b => BitVec.ofNat 32 (natBE (b.take 4)) :: blockWords n (b.drop 4)

/-- The compression of one block. -/
def shaBlock (h : List Word) (b : List Byte) : List Word :=
  let w := (shaSchedule 48 (blockWords 16 b).reverse).reverse
  List.zipWith (· + ·) h ((List.zip (primes64.map shaK) w).foldl shaRound h)

/-- All blocks of a padded message. -/
def shaBlocks : Nat → List Word → List Byte → List Word
  | 0, h, _ => h
  | n + 1, h, m => shaBlocks n (shaBlock h (m.take 64)) (m.drop 64)

/-- SHA-256 (FIPS 180-4). -/
def sha256 (m : List Byte) : List Byte :=
  let z := (119 - m.length % 64) % 64
  let p := m ++ 0x80#8 :: List.replicate z 0#8 ++ bytesBE 8 (8 * m.length)
  (shaBlocks (p.length / 64) ((primes64.take 8).map shaH) p).flatMap (fun w => bytesBE 4 w.toNat)

/-- HMAC-SHA-256 (RFC 2104) under a 32-byte key. -/
def hmac256 (key : BitVec 256) (m : List Byte) : List Byte :=
  let k := bytesBE 32 key.toNat ++ List.replicate 32 0#8
  sha256 (k.map (· ^^^ 0x5C#8) ++ sha256 (k.map (· ^^^ 0x36#8) ++ m))

end Sys2Proof.Machine
end

