-- ==== Sys2Proof/Machine/Image.lean ====
section
/-! DEFINITION. Sys2Proof/Machine/Image.lean: images in flash (R323–R329): their headers, checks, the load of one slot and the
context table. -/
namespace Sys2Proof.Machine

/-- A byte of the attached flash; an unwritten byte reads 0xFF (log entry 6). -/
def flashByte (s : State) (i : Nat) : Byte := fget (fun _ => 0xFF#8) s.ext.flash i
/-- `n` bytes of flash from `i`. -/
def flashBytesAt (s : State) (i n : Nat) : List Byte := (List.range n).map (fun j => flashByte s (i + j))
/-- The number in `n` bytes of flash from `i`, most significant byte first. -/
def flashNat (s : State) (i n : Nat) : Nat := natBE (flashBytesAt s i n)

/-- The first byte of a slot: 1 for A, 2 for B (R323). -/
def slotBase (slot : Nat) : Nat := if slot = 2 then 0x20000 else 0

/-- The header of a slot, where it is valid (R325, Table 9-6). -/
def imgHeader (s : State) (slot : Nat) : Option ImgHdr :=
  let b := slotBase slot
  let h : ImgHdr := { tagged := (flashNat s (b + 6) 2).testBit 0, xiptag := (flashNat s (b + 6) 2).testBit 1,
                      serial := flashNat s (b + 8) 4, iramLen := flashNat s (b + 12) 2, ctxn := flashNat s (b + 14) 2,
                      xipOff := flashNat s (b + 16) 4, xipLen := flashNat s (b + 20) 4, bodyCrc := flashNat s (b + 24) 4 }
  if flashNat s b 4 = 0x5153544E ∧ flashNat s (b + 4) 2 = 1 ∧ (crc32c (flashBytesAt s b 60)).toNat = flashNat s (b + 60) 4 ∧
     h.serial ≠ 0 ∧ h.iramLen ≤ 16384 ∧ h.ctxn ≤ 64 ∧ h.xipOff % 32 = 0 ∧ h.xipLen % 4 = 0 then some h else none

/-- The bytes of the context table and the instruction RAM section. -/
def imgBody (s : State) (slot : Nat) (h : ImgHdr) : List Byte :=
  flashBytesAt s (slotBase slot + 64) (8 * h.ctxn + 4 * h.iramLen)

/-- The tag matches (R326): over header, context table and instruction RAM section, and the XIP section under XIPTAG. -/
def tagMatches (s : State) (slot : Nat) (h : ImgHdr) (key : BitVec 256) : Bool :=
  let b := slotBase slot
  let m := flashBytesAt s b 64 ++ imgBody s slot h ++ (if h.xiptag && h.xipOff != 0 then flashBytesAt s h.xipOff h.xipLen else [])
  hmac256 key m == flashBytesAt s (b + 64 + 8 * h.ctxn + 4 * h.iramLen) 32

/-- Write the instruction RAM section, instruction i at program address i (R324). A rejected slot's words stay only in a load at run time;
at start-up the unloaded words are zeros (R315, R325). -/
def writeIram (s : State) (slot : Nat) (h : ImgHdr) : State :=
  let b := slotBase slot + 64 + 8 * h.ctxn
  forEach h.iramLen (fun s i =>
    let s := s.setReg (0xC000 + i) (BitVec.ofNat 32 (flashNat s (b + 4 * i) 4))
    { s with pool := { s.pool with iramBad := s.pool.iramBad.filter (· != i) } }) s

/-- Load one slot: the reason of a rejection (0 header, 1 BODYCRC, 2 tag, 3 key), or the loaded image's registers set (R325,
R326, R329). -/
def loadSlot (atStart : Bool) (s : State) (slot : Nat) : Option Nat × State :=
  match imgHeader s slot with
  | none => (some 0, s)
  | some h =>
    let req := authReq s
    if req && s.chip.imageKey.isNone then (some 3, s)
    else if req && (!h.tagged || (h.xipLen != 0 && !h.xiptag)) then (some 2, s)
    else
      let t := writeIram s slot h
      let left := if atStart then s else t
      if (crc32c (imgBody s slot h)).toNat ≠ h.bodyCrc then (some 1, left)
      else
        let auth := match s.chip.imageKey with
          | some key => if h.tagged then some (tagMatches s slot h key) else none
          | none => none
        if auth = some false then (some 2, left)
        else
          let t := (t.setFld 0x2400 1 2 slot).setBit 0x2400 4 (auth == some true)
          let t := if auth = some true then t.setBit 0x2400 6 false else t
          let t := (t.setReg 0x2403 (BitVec.ofNat 32 h.serial)).setReg 0x2404 (ofFields [(0, h.iramLen), (16, h.ctxn)])
          (none, (t.setReg 0x2405 (BitVec.ofNat 32 h.xipOff)).setReg 0x2406 (BitVec.ofNat 32 h.xipLen))

/-- The slots tried, in order (R325, R331): the one named; or of the valid ones the higher serial first, A where equal. -/
def slotOrder (s : State) (choice : Nat) : List Nat :=
  if choice = 1 ∨ choice = 2 then [choice]
  else match imgHeader s 1, imgHeader s 2 with
    | some a, some b => if a.serial < b.serial then [2, 1] else [1, 2]
    | some _, none => [1]
    | none, some _ => [2]
    | none, none => []

/-- Try slots in order: the slot loaded, each rejection journaled. -/
def trySlots (atStart : Bool) : List Nat → State → Option Nat × State
  | [], s => (none, s)
  | k :: t, s => match loadSlot atStart s k with
    | (none, s) => (some k, s)
    | (some r, s) => trySlots atStart t (journal s 0x53 0 [BitVec.ofNat 8 k, BitVec.ofNat 8 r])

/-- Load an image (R325): none where none loads, with LOADFAIL; the rejection of two invalid headers is one record. -/
def loadImage (atStart : Bool) (s : State) (choice : Nat) : Option Nat × State :=
  let l := slotOrder s choice
  let s := if l.isEmpty then journal s 0x53 0 [0#8, 0#8] else s
  match trySlots atStart l s with
  | (some k, s) => (some k, s.setBit 0x2408 0)
  | (none, s) => (none, (s.setFld 0x2400 1 2 0).setBit 0x2408 1)

/-- A context table entry's address may be used (R324); XIPOFF 0 means that there is no XIP section (Table 9-6). -/
def entryOk (h : ImgHdr) (a : Nat) : Bool :=
  decide (a < 0x4800) || (h.xipOff != 0 && decide (0x400000 ≤ a) && decide (a < 0x800000) && decide (h.xipOff ≤ 4 * (a - 0x400000)) &&
    decide (4 * (a - 0x400000) < h.xipOff + h.xipLen))

/-- The context table of a loaded slot: the entries that hold, as circuit and ENTRY word, and the state with the bad ones
journaled (R324, Table 9-7). -/
def ctxTable (s : State) (slot : Nat) : List (Nat × Word) × State :=
  match imgHeader s slot with
  | none => ([], s)
  | some h =>
    let b := slotBase slot + 64
    (List.range h.ctxn).foldl (fun (r : List (Nat × Word) × State) i =>
      let c := (flashByte s (b + 8 * i)).toNat
      let f := flashByte s (b + 8 * i + 1)
      let a := flashNat s (b + 8 * i + 2) 3
      if !f.getLsbD 7 || decide (64 ≤ c) then r
      else if entryOk h a then (r.1 ++ [(c, ofFields [(0, a), (24, b2n (f.getLsbD 0))])], r.2)
      else (r.1, journal r.2 0x54 (srcOf 2 c) (bytesBE 3 a))) ([], s)

end Sys2Proof.Machine
end

