-- ==== Sys2Proof/Machine/Stock.lean ====
section
/-! DEFINITION. Sys2Proof/Machine/Stock.lean: the stock circuit programs as Table 9-9, R333 and R589 state what they do, each
run as a whole over what its inbox holds (log entry 15), and the wake of a waiting context (R312). -/
namespace Sys2Proof.Machine

/-- A cell whose ORIGIN is a port receiver (Table 7-3). -/
def portCell (s : State) (i : Nat) : Bool := (s.cell i).origin / 2 ^ 22 == 0
/-- The port of a port receiver's cell. -/
def cellPort (s : State) (i : Nat) : Nat := (s.cell i).origin % 16
/-- A context's program still runs. -/
def ctxAlive (s : State) (x : Nat) : Bool := (s.ctx x).st == .run || (s.ctx x).st == .wait
/-- Change a context's stock program state. -/
def modStock (s : State) (x : Nat) (f : Stock → Stock) : State := modCtx s x (fun k => { k with stock := f k.stock })
/-- A frame passed, or discarded (R333). -/
def cnt0 (s : State) (x : Nat) : State := s.count (xAddr x 5) 0 16
def cnt1 (s : State) (x : Nat) : State := s.count (xAddr x 5) 16 16

/-- Pass an inbox cell unread (R282). -/
def passCell (s : State) (x i : Nat) : State :=
  let s := s.setCirc x { s.circ x with inbox := (s.circ x).inbox.filter (· != i) }
  enqueueCell s x i true

/-- Pass every cell of another origin, in order (R333). -/
def passOthers (s : State) (x : Nat) : State :=
  forList ((s.circ x).inbox.filter (fun i => !portCell s i)) (fun s i => passCell s x i) s

/-! ## Transparent pipe -/

/-- The pipe passes every inbox cell; each of a port receiver counts as a frame. -/
def runPipe (s : State) (x : Nat) : State :=
  forList (s.circ x).inbox (fun s i =>
    let s := if portCell s i then cnt0 s x else s
    passCell s x i) s

/-! ## Modbus RTU and 9-bit multidrop -/

/-- The CRC-16 of Modbus over bytes (Table 9-9). -/
def crcModbus (bs : List Byte) : Nat := (crcR 0xA001#32 0xFFFF#32 bs).toNat

/-- The check over a whole frame: Modbus's CRC, low byte first; none for 9-bit multidrop. -/
def frameCheck (p : StockProg) (bs : List Byte) : Bool :=
  match p with
  | .modbus =>
    let n := bs.length
    decide (2 ≤ n) && crcModbus (bs.take (n - 2)) == ((bs[n - 2]?).getD 0#8).toNat + 256 * ((bs[n - 1]?).getD 0#8).toNat
  | _ => true

/-- The limits of a frame's length. -/
def frameLimits (p : StockProg) : Nat × Nat := if p == .modbus then (4, 256) else (1, 480)

/-- The further cells of a frame from port `n` whose last cell closed full, and whether it has ended: by a cell that closed
otherwise, or by a port's cell without CONT. -/
def chainOf (s : State) (n : Nat) : List Nat → List Nat × Bool
  | [] => ([], false)
  | i :: t =>
    let c := s.cell i
    if !portCell s i then chainOf s n t
    else if !c.cont then ([], true)
    else if cellPort s i ≠ n then chainOf s n t
    else if c.cause ≠ 0 then ([i], true)
    else ((chainOf s n t).1.cons i, (chainOf s n t).2)

/-- Free a frame's cells that were read, each with its verdict (R354), and count the frame in CNT1. -/
def discardFrame (s : State) (x : Nat) (l : List Nat) : State :=
  let s := modStock s x (fun k => { k with cells := [] })
  let s := forList l (fun s i =>
    let c := s.cell i
    if c.owner != .circ x then s
    else if sleeveBad c then
      let un := c.poison || !c.bad.isEmpty
      let s := sleeveFail s 3 x i un c.sleeve (crc32c c.payload)
      releaseCell (if un then markRetire s i else s) i
    else releaseCell s i) s
  if ctxAlive s x then cnt1 s x else s

/-- Pass a whole frame (R589): every verdict first; the frame reaches the endpoint whole or not at all. -/
def passFrame (s : State) (x : Nat) (l : List Nat) : State :=
  if l.any (fun i => sleeveBad (s.cell i)) then discardFrame s x l
  else
    let s := modStock s x (fun k => { k with cells := [] })
    cnt0 (forList l (fun s i => passCell s x i) s) x

/-- Run a delimiting program; `tmo` says that a timeout event has been delivered and not yet used. `f` bounds the frames. -/
def runDelim (p : StockProg) (x : Nat) : Nat → Bool → State → State
  | 0, _, s => s
  | f + 1, tmo, s =>
    if !ctxAlive s x then s
    else
      let s := passOthers s x
      let k := (s.ctx x).stock
      if k.lost then runDelim p x f tmo (modStock (discardFrame s x k.cells) x (fun _ => { skip := true }))
      else match (s.circ x).inbox with
        | [] => if tmo then modStock s x (fun k => { k with skip := false }) else s
        | i :: t =>
          let c := s.cell i
          if k.skip then
            if c.cont then
              runDelim p x f tmo (modStock (releaseCell s i) x (fun k => { k with skip := decide (c.cause = 0) }))
            else runDelim p x f tmo (modStock s x (fun k => { k with skip := false }))
          else
            let ch := if c.cause = 0 then chainOf s (cellPort s i) t else ([], true)
            let l := i :: ch.1
            let last := s.cell (l.getLastD i)
            let bytes := l.flatMap (fun j => (s.cell j).payload)
            let lim := frameLimits p
            let ended := ch.2 || tmo
            if lim.2 < bytes.length then
              runDelim p x f (tmo && ch.2) (modStock (discardFrame s x l) x (fun k => { k with skip := !ended }))
            else if ended then
              let ok := !c.cont && (last.cause == 0 || last.cause == 1 || last.cause == 3) && decide (lim.1 ≤ bytes.length) &&
                l.all (fun j => !(s.cell j).errChr && !(s.cell j).afterLoss) && frameCheck p bytes
              runDelim p x f (tmo && ch.2) (if ok then passFrame s x l else discardFrame s x l)
            else modStock s x (fun k => { k with cells := l })

/-! ## NMEA 0183 and DNP3: copying programs -/

/-- What writing one byte of a frame comes to: written; waiting for the ALLOC event, to be tried again; the frame cannot be
built. -/
inductive PutOut where
  | ok (s : State)
  | wait (s : State)
  | drop (s : State)

/-- Free what has been built of the frame being copied. -/
def dropBuilt (s : State) (x : Nat) : State :=
  let l := (match wcurOf s x with | some i => [i] | none => []) ++ (s.ctx x).stock.parts
  modStock (forList l releaseCell s) x (fun k => { k with parts := [], lost := false })

/-- Write one byte, allocating a cell of the own circuit where none is open; a cell that is full closes first. -/
def putByte (s : State) (x : Nat) (b : Byte) : PutOut :=
  let s := match wcurOf s x with
    | some i =>
      if (s.cell i).payload.length < 240 then s
      else
        let c := s.cell i
        let s := s.setCell i { c with cont := !(s.ctx x).stock.parts.isEmpty }
        modStock (closeCellAs s i x 6 (crc32c c.payload)).2 x (fun k => { k with parts := k.parts ++ [i] })
    | none => s
  let got := match wcurOf s x with
    | some i => (some i, s)
    | none => allocCirc s x false (3 * 2 ^ 22 + x) (.wcur x)
  match got with
  | (some i, s) => match appendByte s i b with
    | some s => .ok s
    | none => .drop (writeFail s x i 3)
  | (none, s') =>
    match allocDecide s x false with
    | .state => .drop s'
    | .ceiling => .drop s'
    | _ => .wait (modCtx s' x (fun k => { k with allocWait := true }))

/-- A frame has passed its checks: its cells are held for the source's verdict. -/
def holdFrameCells (s : State) (x : Nat) : State :=
  match wcurOf s x with
  | none => s
  | some i =>
    let c := s.cell i
    let s := s.setCell i { c with cont := !(s.ctx x).stock.parts.isEmpty }
    let s := (closeCellAs s i x 6 (crc32c c.payload)).2
    let s := modCtx s x (fun k => { k with heldCells := k.heldCells ++ k.stock.parts ++ [i] })
    modStock s x (fun k => { k with parts := [], bytes := [], frames := k.frames + 1 })

/-- The frame in progress is discarded (R333). -/
def failFrame (s : State) (x : Nat) : State := cnt1 (modStock (dropBuilt s x) x (fun k => { k with bytes := [] })) x

/-- A hexadecimal digit in upper case. -/
def hexUpper (b : Byte) : Option Nat :=
  let n := b.toNat
  if 0x30 ≤ n ∧ n ≤ 0x39 then some (n - 0x30) else if 0x41 ≤ n ∧ n ≤ 0x46 then some (n - 0x37) else none

/-- The checksum rule of Table 9-9 over a whole sentence, start character to CR LF: without '*' it passes; with one it must be
the third byte before CR LF, the only one, its digits the XOR of the bytes between. -/
def nmeaOk (bs : List Byte) : Bool :=
  let body := (bs.drop 1).take (bs.length - 3)
  if !body.contains 0x2A#8 then true
  else
    let txt := body.take (body.length - 3)
    match body.drop (body.length - 3) with
    | [st, h, l] =>
      st == 0x2A#8 && !txt.contains 0x2A#8 &&
      (match hexUpper h, hexUpper l with
       | some a, some b => 16 * a + b == (txt.foldl (fun v c => v ^^^ c) 0#8).toNat
       | _, _ => false)
    | _ => false

/-- Feed one byte to the NMEA program: false where it must wait for an allocation. -/
def feedNmea (s : State) (x : Nat) (b : Byte) : Bool × State :=
  let k := (s.ctx x).stock
  let crlf := k.bytes.getLast? == some 0x0D#8 && b == 0x0A#8
  if k.skip then (true, modStock s x (fun k => { k with skip := !crlf, bytes := if crlf then [] else [b] }))
  else if k.bytes.isEmpty && b != 0x24#8 && b != 0x21#8 then (true, s)
  else if 82 < k.bytes.length + 1 then
    let s := failFrame s x
    (true, modStock s x (fun k => { k with skip := !crlf, bytes := if crlf then [] else [b] }))
  else match putByte s x b with
    | .wait s => (false, s)
    | .drop s => (true, failFrame s x)
    | .ok s =>
      let all := k.bytes ++ [b]
      let s := modStock s x (fun k => { k with bytes := all })
      (true, if !crlf then s else if nmeaOk all then holdFrameCells s x else failFrame s x)

/-- The DNP3 CRC of Table 9-9. -/
def crcDnp3 (bs : List Byte) : Nat := ((crcR 0xA6BC#32 0#32 bs) ^^^ 0xFFFF#32).toNat

/-- Bytes that end in their DNP3 CRC, low byte first. -/
def dnp3Block (bs : List Byte) : Bool :=
  let n := bs.length
  decide (2 ≤ n) && crcDnp3 (bs.take (n - 2)) == ((bs[n - 2]?).getD 0#8).toNat + 256 * ((bs[n - 1]?).getD 0#8).toNat

/-- Every data block checks: 16 bytes and a CRC each, the last shorter. -/
def dnp3Data : Nat → List Byte → Bool
  | 0, _ => true
  | f + 1, bs => bs.isEmpty || (dnp3Block (bs.take 18) && dnp3Data f (bs.drop 18))

/-- The length of a DNP3 frame of length byte `l` ≥ 5. -/
def dnp3Total (l : Nat) : Nat := 10 + (l - 5) + 2 * ((l - 5 + 15) / 16)

/-- A candidate fails on L or its header's CRC: the search resumes at the byte after its 0x05. -/
def retryDnp3 (s : State) (x : Nat) (all : List Byte) : State :=
  modStock (failFrame s x) x (fun k => { k with replay := all.drop 1 ++ k.replay })

/-- Write bytes of a frame in order; the first that must wait or fails decides. -/
def putAll (x : Nat) : List Byte → State → PutOut
  | [], s => .ok s
  | b :: t, s => match putByte s x b with
    | .ok s => putAll x t s
    | r => r

/-- Feed one byte to the DNP3 program. Nothing is built before both start bytes are there. -/
def feedDnp3 (s : State) (x : Nat) (b : Byte) : Bool × State :=
  let k := (s.ctx x).stock
  let all := k.bytes ++ [b]
  let keep (s : State) (l : List Byte) : State := modStock s x (fun k => { k with bytes := l })
  if k.bytes.isEmpty then (true, if b == 0x05#8 then keep s all else s)
  else if k.bytes.length = 1 ∧ b ≠ 0x64#8 then (true, keep s (if b == 0x05#8 then [b] else []))
  else match putAll x (if k.bytes.length = 1 then all else [b]) s with
    | .wait s => (false, s)
    | .drop s => (true, failFrame s x)
    | .ok s =>
      let n := all.length
      let l := ((all[2]?).getD 5#8).toNat
      if n = 3 ∧ l < 5 then (true, retryDnp3 s x all)
      else if n = 10 ∧ dnp3Block all = false then (true, retryDnp3 s x all)
      else if n < 10 ∨ n < dnp3Total l then (true, keep s all)
      else (true, if dnp3Data 17 (all.drop 10) then holdFrameCells (keep s all) x else failFrame s x)

/-- Count held frames, and forget them. -/
def countFrames (s : State) (x : Nat) (passed : Bool) : State :=
  let n := (s.ctx x).stock.frames
  modStock (s.countBy (xAddr x 5) (if passed then 0 else 16) 16 n) x (fun k => { k with frames := 0 })

/-- The frame in progress and the held frames are lost with their source. -/
def lostSource (s : State) (x : Nat) : State :=
  let s := countFrames s x false
  let k := (s.ctx x).stock
  let s := modCtx (dropBuilt s x) x (fun k => { k with rcur := .empty })
  modStock (if k.skip || k.bytes.isEmpty then s else cnt1 s x) x (fun _ => {})

/-- Run a copying program. `f` bounds the bytes fed. -/
def runCopy (p : StockProg) (x : Nat) : Nat → State → State
  | 0, s => s
  | f + 1, s =>
    if !ctxAlive s x then s
    else
      let s := if (s.ctx x).stock.lost then failFrame s x else s
      match (s.ctx x).rcur with
      | .lost => runCopy p x f (lostSource s x)
      | .empty =>
        match (s.circ x).inbox with
        | [] => s
        | i :: t =>
          if portCell s i then
            runCopy p x f (modCtx (s.setCirc x { s.circ x with inbox := t }) x (fun k => { k with rcur := .held i 0 true }))
          else runCopy p x f (passCell s x i)
      | .held i off _ =>
        let k := (s.ctx x).stock
        let next := match k.replay with
          | b :: _ => some b
          | [] => if off < (s.cell i).payload.length then some (cellByteAt s i off) else none
        match next with
        | none =>
          let v := giveVerdict s x i
          if !ctxAlive v.2 x then v.2
          else if v.1 then
            runCopy p x f (countFrames (releaseCell (modCtx v.2 x (fun k => { k with rcur := .empty })) i) x true)
          else runCopy p x f (lostSource v.2 x)
        | some b =>
          let t := if k.replay.isEmpty then modCtx s x (fun k => { k with rcur := .held i (off + 1) true })
            else modStock s x (fun k => { k with replay := k.replay.drop 1 })
          match (if p == .nmea then feedNmea t x b else feedDnp3 t x b) with
          | (true, t) => runCopy p x f t
          | (false, t) =>
            -- the byte is fed again when the ALLOC event comes
            if k.replay.isEmpty then modCtx t x (fun k => { k with rcur := .held i off true })
            else modStock t x (fun k => { k with replay := b :: k.replay })

/-! ## Waking (R312) -/

/-- A stock program meets an uncorrectable error in its run: in a register of its context, or in a ROM word from its entry up to the next
program's (R290; DESIGN CHOICE, log entry 43). -/
def stockBad (s : State) (x : Nat) : Bool :=
  let a := progAddr (s.ctx x)
  !(s.ctx x).gBad.isEmpty || s.pool.romBad.any (fun w => decide (a ≤ w) && decide (w < a + 0x100))

/-- Run a stock program over what its context has, and wait again. Its registers and mask are not given. An uncorrectable error on its way
is a context fault of code 4 (R290, Table 9-5). -/
def stockRun (s : State) (x : Nat) (p : StockProg) : State :=
  if stockBad s x then ctxFaultC s x 4 else
  let tmo := (s.ctx x).ep.getLsbD 2
  let s := modCtx s x (fun k => { k with ep := k.ep &&& 0xFDEB#16 })
  let n := (s.circ x).inbox.length
  let s := match p with
    | .pipe => runPipe s x
    | .modbus => runDelim .modbus x (3 * n + 4) tmo s
    | .nine => runDelim .nine x (3 * n + 4) tmo s
    | .nmea => runCopy .nmea x (300 * (n + 2)) s
    | .dnp3 => runCopy .dnp3 x (300 * 300 * (n + 2)) s
  if !ctxAlive s x then s
  else
    let regs := (List.range 16).foldl (fun g r => fset (fun _ => 0#32) g r (Config.stockReg x s.fresh r)) []
    let em := Config.stockMask x s.fresh
    { (modCtx s x (fun k => { k with st := .wait, g := regs, em := em })) with fresh := s.fresh + 1 }

/-- WAIT_WAKE (R312): an enabled event is pending for a waiting context: it becomes eligible and receives the events. A stock
program runs instead. -/
def execWaitWake (x : CircId) (s : State) : Res :=
  let x := x.val
  let k := s.ctx x
  if s.power.relock || s.power.st == .dormant || !ctxAlive s x then .next s
  else match stockAt (progAddr k) with
    | some p => .next (stockRun s x p)
    | none =>
      if k.st == .wait && k.ep &&& k.em != 0#16 then
        .next (modCtx (deliverEvents s x (regN k.waitReg)) x (fun k => { k with st := .run }))
      else .next s

end Sys2Proof.Machine
end

