-- ==== Sys2Proof/Machine/SeqCtl.lean ====
section
/-! DEFINITION. Sys2Proof/Machine/SeqCtl.lean: prefetch fills, image loads at run time, and the control of contexts (R303,
R306–R308, R318–R322, R331, R588). -/
namespace Sys2Proof.Machine

/-! ## Control strobes (R306–R308, R588) -/

/-- A context halts at its instruction boundary. -/
def haltNow (s : State) (x : Nat) : State :=
  modCtx s x (fun k => { clearLost k with st := .halted, back := if k.st == .wait then .wait else .run, haltReq := false, portWait := none })
/-- HALT: at once in WAIT and at an instruction boundary; a context that waits for a fill halts when the fill completes. -/
def doHalt (s : State) (x : Nat) : State :=
  match (s.ctx x).st with
  | .wait => haltNow s x
  | .run => if (s.ctx x).cutReq then s else if (s.ctx x).fill.isSome then modCtx s x (fun k => { k with haltReq := true }) else haltNow s x
  | _ => s
def execHalt (x : CircId) (s : State) : Res := .next (viaHost s (fun s => doHalt s x.val))
/-- RESUME: back to the state the halt left; ignored unless HALTED. -/
def doResume (s : State) (x : Nat) : State :=
  if (s.ctx x).st == .halted then modCtx s x (fun k => { k with st := k.back }) else s
def execResume (x : CircId) (s : State) : Res := .next (viaHost s (fun s => doResume s x.val))
/-- START acts in RUN, WAIT and HALTED (R306). -/
def startActs (s : State) (x : Nat) : Bool :=
  !(s.ctx x).cutReq && ((s.ctx x).st == .run || (s.ctx x).st == .wait || (s.ctx x).st == .halted)
/-- START: at the next instruction boundary; `sig` says that SIGNAL was strobed with it. -/
def doStartSig (s : State) (x : Nat) (sig : Bool) : State :=
  if !startActs s x then (if sig then ctxEvent s x 11 else s)
  else if (s.ctx x).fill.isSome then modCtx s x (fun k => { k with startReq := some sig, haltReq := false })
  else
    let s := startCtx s x
    if sig then ctxEvent s x 11 else s
def doStart (s : State) (x : Nat) : State := doStartSig s x false
def execStart (x : CircId) (s : State) : Res := .next (viaHost s (fun s => doStart s x.val))
/-- SIGNAL: EP bit 11. -/
def doSignal (s : State) (x : Nat) : State := ctxEvent s x 11
def execSignal (x : CircId) (s : State) : Res := .next (viaHost s (fun s => doSignal s x.val))

/-- A write of SEQ_Cnn_CTL with several bits (R588): a START that acts takes precedence; else RESUME over HALT; SIGNAL at the
write, or after the start. -/
def doSeqCtl (s : State) (x : Nat) (halt resume start signal : Bool) : State :=
  if start && startActs s x then doStartSig s x signal
  else
    let s := if resume then doResume s x else if halt then doHalt s x else s
    if signal then doSignal s x else s

/-! ## Prefetch fills (R319–R322) -/

/-- The LDP that context `x` has issued completes (R341, R342): its word enters the destination and the program goes on. Where the line
is gone again it waits for another fill. -/
def endLdp (s : State) (x d a : Nat) : State :=
  match fetchWord s a with
  | .word w =>
    let s := setGreg (touchLine s a) x (BitVec.ofNat 4 d).toFin w
    advance (modCtx s x (fun k => { k with ldp := none })) x (progAddr (s.ctx x) + 1)
  | .fault c => ctxFaultC s x c
  | .miss la => waitFill s x la

/-- The instruction boundary after a fill: the stop of a circuit disabled meanwhile, then a START with its SIGNAL, else a HALT acts. -/
def atFillEnd (s : State) (x : Nat) : State :=
  let k := s.ctx x
  let s := if k.cutReq then modCtx (stopCtx s x) x (fun c => { c with startReq := k.startReq }) else s
  match k.startReq with
  | some sig =>
    let s := startCtx (modCtx s x (fun c => { c with startReq := none })) x
    if sig then ctxEvent s x 11 else s
  | none => if k.haltReq then haltNow s x else s

/-- A context's fill has completed (R320, R342): an LDP that waited for it completes; then what waited for the instruction boundary
acts. -/
def fillReady (s : State) (x : Nat) : State :=
  let s := modCtx s x (fun k => { k with fill := none })
  let s := match (s.ctx x).ldp with
    | some (d, a) => endLdp s x d a
    | none => s
  if (s.ctx x).fill.isSome then s else atFillEnd s x

/-- The circuit contexts that wait for a line. -/
def lineWaiters (s : State) (la : Nat) : List Nat := (List.range 64).filter (fun x => (s.ctx x).fill == some la)

/-- A pending XIPINV acts once no fill is in progress (R322). -/
def settleInv (s : State) : State :=
  if s.seq.inv && !fillBusy s then { s with seq := { s.seq with inv := false, lines := [] } } else s

/-- How a fill ended. -/
abbrev FillOut := Fin 3

/-- The fill of line address `la` ended: 0 read whole, 1 reported failed, 2 with a parity error. A bad fill is repeated; the
third in a row faults every context that waits on the line with code 11 (R321). -/
def fillDone (s : State) (la : Nat) (r : FillOut) : State :=
  if r.val = 0 then
    let l : Line := { addr := la, words := (List.range 8).map (fun i => BitVec.ofNat 32 (flashNat s (32 * la + 4 * i) 4)) }
    let lines := l :: (s.seq.lines.filter (fun m => m.addr != la)).take 7
    let s := { s with seq := { s.seq with lines := lines, fails := 0 } }
    settleInv (forList (lineWaiters s la) fillReady (s.count 0x2407 0 16))
  else if s.seq.fails + 1 < 3 then
    let s := { s with seq := { s.seq with fails := s.seq.fails + 1 }, mem := { s.mem with fills := la :: s.mem.fills } }
    if r.val = 2 then s.count 0x2407 16 16 else s
  else
    let s := { s with seq := { s.seq with fails := 0 } }
    let fail (s : State) (x : Nat) : State := if (s.ctx x).cutReq then atFillEnd s x else ctxFaultC s x 11
    settleInv (forList (lineWaiters s la) fail (s.setBit 0x2408 5))

/-- XIPINV (R322). -/
def doXipinv (s : State) : State := settleInv { s with seq := { s.seq with inv := true } }
def execXipinv (s : State) : Res := .next (viaHost s (fun s => doXipinv s))

/-! ## Loads at run time (R331) -/

/-- An address in instruction RAM or the XIP window. -/
def inLoadable (a : Nat) : Bool := decide (a < 0x4000) || decide (0x400000 ≤ a)

/-- LOAD: ignored during a load; with no flash it only sets LOADFAIL (R325); else it halts the contexts whose PC or ENTRY
lies in instruction RAM or the XIP window. -/
def doLoad (s : State) : State :=
  if s.bit 0x2400 0 then s
  else if !s.bit 0x3001 0 then s.setBit 0x2408 1
  else
    let l := (List.range 64).filter (fun x =>
      ctxAlive s x && (inLoadable (progAddr (s.ctx x)) || inLoadable (s.fld (xAddr x 0) 0 23)))
    let s := forList l doHalt s
    { s.setBit 0x2400 0 with seq := { s.seq with loadHalted := l }, mem := { s.mem with imageReq := true } }
def execLoad (s : State) : Res := .next (viaHost s (fun s => doLoad s))

/-- Apply one context table entry as a host write committed at once (R331): ENTRY now, which the next start uses, TAP at the circuit's
cell boundary (Table 9-16). -/
def putEntry (s : State) (e : Nat × Word) : State :=
  let a := xAddr e.1 0
  let s := (s.setShad a e.2).setFld a 0 23 (getF e.2 0 23)
  doCtxApply (strobeInst [] (ctxEvent s e.1 12) (.ctx e.1)) e.1

/-- A load that runs waits for a context to reach its instruction boundary (R331). -/
def loadWaits (s : State) : Bool := s.seq.loadHalted.any (fun x => (s.ctx x).haltReq)

/-- RELOAD_DONE: the load that runs has read its image, which it begins once the contexts have halted. -/
def execReloadDone (s : State) : Res :=
  if !s.bit 0x2400 0 || s.mem.active == some .image || !s.boot.live || loadWaits s then .next s
  else
    let halted := s.seq.loadHalted
    let s := { s.setBit 0x2400 0 false with seq := { s.seq with loadHalted := [] }, mem := { s.mem with imageReq := false } }
    match loadImage false s (s.fld 0x2401 4 2) with
    | (some k, s) =>
      let t := ctxTable s k
      let s := (forList t.1 putEntry t.2).countWrap 0x409
      let s := doXipinv s
      .next (forList halted (fun s x =>
        if (s.ctx x).st == .halted then startCtx s x else s) s)
    | (none, s) => .next (if authReq s then (s.setBit 0x2400 6).setBit 0x2408 4 else s)

/-! ## System contexts and utilisation -/

/-- A start of system context Sk at its ROM entry (R305): all it holds is cleared, G15 is 0x100 + k. -/
def startSys (s : State) (k : Nat) : State :=
  let c : Ctx := { st := .wait, g := fset (fun _ => 0#32) [] 15 (BitVec.ofNat 32 (0x100 + k)), issued := (s.ctx (64 + k)).issued }
  s.setCtx (64 + k) (setProg c (0x4800 + (Config.sysEntry k).val))

/-- System contexts start (R335). -/
def startSystem (s : State) : State := forEach 8 startSys s

/-- SYSTEM_CONTEXT_RESTART (R318): a faulted system context starts at its ROM entry; the control packets of its core that have waited
for it go on. -/
def execSystemContextRestart (k : Fin 8) (s : State) : Res :=
  if (s.ctx (64 + k.val)).st == .faulted then .next (forEach s.ctlWait.length (fun s _ => serveSysWait s) (startSys s k.val)) else .next s

/-- UTILISATION_UPDATE (R303): what the ROM programs issued is not given (log entry 15). -/
def execUtilisationUpdate (s : State) : Res :=
  let v (i : Nat) : Nat := min 98304 ((s.seq.issued[i]?).getD 0 + Config.romIssued i s.fresh % 98305) * 255 / 98304
  let w (i : Nat) : Word := ofFields [(0, v i), (8, v (i + 1)), (16, v (i + 2)), (24, v (i + 3))]
  let s := { s with seq := { s.seq with issued := [0, 0, 0, 0, 0, 0, 0, 0] }, fresh := s.fresh + 1 }
  .next ((s.setReg 0x240A (w 0)).setReg 0x240B (w 4))

end Sys2Proof.Machine
end

