-- ==== Sys2Proof/Machine/Mailbox.lean ====
section
/-! DEFINITION. Sys2Proof/Machine/Mailbox.lean: the mailbox (R158–R162): its selectors, what each item holds, and what a WRITE
does to the items that take one. -/
namespace Sys2Proof.Machine

/-- A 64-bit value and a time value as the four data words (R160). -/
def words64 (v : Nat) : List Word := [BitVec.ofNat 32 (v / 2 ^ 32), BitVec.ofNat 32 v, 0#32, 0#32]
def wordsTime (t : Time) : List Word :=
  [BitVec.ofNat 32 (t.toNat / 2 ^ 64), BitVec.ofNat 32 (t.toNat / 2 ^ 32), BitVec.ofNat 32 t.toNat, 0#32]

/-- The selectors that name an item (Tables 5-5, 6-10, 7-14, 8-9, 9-15, 11-15, 12-16, 13-11, 14-11, 15-8, 16-9). The selectors of an
absent port name none (DESIGN CHOICE, log entry 63: R162 does not say). -/
def mbxNames (s : State) (sel : Nat) : Bool :=
  let i := sel % 4096
  match sel / 4096 with
  | 0x0 => i == 1 || i == 2 || i == 3
  | 0x3 => i == 1 || i == 2 || i == 3
  | 0x4 => i == 1
  | 0x5 => (i % 256 == 1 || i % 256 == 2) && present s (i / 256)
  | 0x6 => decide (1 ≤ i % 64) && decide (i % 64 ≤ 4)
  | 0x7 => i == 1 || i == 2 || i == 3
  | 0x8 => decide (i / 16 < 72) && decide (1 ≤ i % 16) && decide (i % 16 ≤ 5)
  | 0x9 => i == 0x001 || i == 0x101
  | 0xA => i == 1 || i == 2 || (decide (0x100 ≤ i) && decide (i < 0x280)) || (decide (0x300 ≤ i) && decide (i < 0x380))
  | 0xB => decide (1 ≤ i) && decide (i ≤ 4)
  | 0xC => i == 1 || i == 2 || (decide (0x100 ≤ i) && decide (i < 0x180))
  | 0xD => i == 1 || i == 2 || (decide (0x100 ≤ i) && decide (i < 0x180))
  | _ => false

/-- Item `sel` takes no WRITE (MBX_CTL.RO). -/
def mbxRo (s : State) (sel : Nat) : Bool :=
  let i := sel % 4096
  match sel / 4096 with
  | 0x8 => !(decide (i / 16 < 64) && decide (1 ≤ i % 16) && decide (i % 16 ≤ 4) && (s.ctx (i / 16)).st == .halted)
  | 0xB => i != 2
  | 0xC => !(decide (0x100 ≤ i) && decide (i < 0x180) && oOn s 0 (i - 0x100) && oTx s 0 (i - 0x100) && !oCircKind s 0 (i - 0x100))
  | 0xD => !(decide (0x100 ≤ i) && decide (i < 0x180) && oOn s 1 (i - 0x100) && oTx s 1 (i - 0x100) && !oCircKind s 1 (i - 0x100))
  | _ => true

/-- A general register as the mailbox shows it: a free value where a ROM program runs (log entries 15 and 16). -/
def seenReg (s : State) (x r : Nat) : Word :=
  if sysLive s x then Config.sysReg x r s.fresh s.now
  else if (stockAt (progAddr (s.ctx x))).isSome then Config.stockReg x r s.fresh
  else fget (fun _ => 0#32) (s.ctx x).g r

/-- The instructions a context has issued since reset. -/
def seenIssued (s : State) (x : Nat) : Nat :=
  if sysLive s x || (stockAt (progAddr (s.ctx x))).isSome then (Config.romTotal x s.fresh s.now).toNat else (s.ctx x).issued

/-- Seconds from `a` to now, and tenths of seconds. -/
def sinceSec (s : State) (a : Time) : Nat := (s.now.toNat - a.toNat) / 2 ^ 32
def since100ms (s : State) (a : Time) : Nat := (s.now.toNat - a.toNat) * 10 / 2 ^ 32

/-- Route entry `i` (Table 14-11). -/
def routeItem (s : State) (i : Nat) : List Word :=
  let r := s.route i
  let st := match r.st with | .empty => 0 | .valid => 1 | .hold => 2
  let left := if r.st == .hold then min 255 (s.fld 0x4005 0 8 - sinceSec s r.held) else 0
  let alt := match r.alt with | some p => (p.hop, p.metric, p.trunk) | none => (0, 0, 15)
  if r.st == .empty then [0#32, 0#32, 0#32, 0#32]
  else [ofFields [(20, r.dst), (16, r.best.metric % 16), (12, st), (8, r.best.trunk), (0, left)],
    ofFields [(20, r.best.hop), (16, alt.2.1 % 16), (12, alt.2.2), (0, alt.1)],
    ofFields [(16, r.tag), (0, min 65535 (sinceSec s r.fresh))], 0#32]

/-- Neighbour `j` (Table 14-11). -/
def nbrItem (s : State) (j : Nat) : List Word :=
  let n := s.nbr j
  let st := match n.st with | .empty => 0 | .pending => 1 | .fresh => 2 | .plain => 3
  if n.st == .empty then [0#32, 0#32, 0#32, 0#32]
  else [ofFields [(20, n.addr), (16, n.trunk), (14, st), (0, min 16383 (since100ms s n.last))],
    BitVec.ofNat 32 (n.uid.toNat / 2 ^ 32), BitVec.ofNat 32 n.uid.toNat, BitVec.ofNat 32 n.high]

/-- Reorder context `r` (Table 14-11). -/
def orderItem (s : State) (r : Nat) : List Word :=
  let x := s.order r
  if !x.used then [0#32, 0#32, 0#32, 0#32]
  else
    let n := countCells s (fun y => y.owner == .circ x.dcirc && y.origin == originOf x.src x.scirc)
    [ofFields [(20, x.src), (14, x.scirc), (8, x.dcirc), (0, x.held.length)], ofFields [(16, x.next), (0, x.tomb)], BitVec.ofNat 32 n, 0#32]

/-- The frame of object `i` (Table 13-11): a transmit object's from its configuration, DLC and data; a receive object's as
stored. -/
def objItem (s : State) (ch i : Nat) : List Word :=
  let o := s.obj ch i
  let f := if oTx s ch i && !oCircKind s ch i then cfgFrame s ch i o.frame.dlc o.frame.data else o.frame
  let d (k : Nat) : Byte := (o.frame.data[k]?).getD 0#8
  [ofFields [(31, b2n f.xtd), (30, b2n f.rtr), (29, b2n f.fdf), (0, f.id % 2 ^ 29)],
   ofFields [(28, o.frame.dlc % 16), (27, b2n f.brs), (26, b2n f.esi), (25, b2n (s.bit (oAddr ch i 4) 12)),
     (24, b2n (s.bit (oAddr ch i 4) 13)), (0, o.ts % 2 ^ 24)],
   wordOf4 (d 0) (d 1) (d 2) (d 3), wordOf4 (d 4) (d 5) (d 6) (d 7)]

/-- A CAN channel's item. -/
def canItem (s : State) (ch i : Nat) : List Word :=
  if i = 1 then wordsTime (s.can ch).boTime
  else if i = 2 then wordsTime (s.can ch).mark
  else objItem s ch (i - 0x100)

/-- The four words that a capture of item `sel` takes (R159, R160); zero where `sel` names none (R162). -/
def mbxRead (s : State) (sel : Nat) : List Word :=
  let i := sel % 4096
  if !mbxNames s sel then [0#32, 0#32, 0#32, 0#32]
  else match sel / 4096 with
  | 0x0 => if i = 1 then words64 s.chip.uid.toNat else if i = 2 then wordsTime s.commit.doneTime else wordsTime s.commit.liveTime
  | 0x3 => if i = 1 then wordsTime s.sup.stormTime else if i = 2 then wordsTime s.sup.auditTime
           else wordsTime ((s.hold.brownTimes.getLast?).getD 0#80)
  | 0x4 => wordsTime s.host.frameTime
  | 0x5 => if i % 256 = 1 then wordsTime (s.port (i / 256)).brkTime else wordsTime (s.port (i / 256)).timeoutTime
  | 0x6 =>
    let c := s.circ (i / 64)
    if i % 64 = 1 then words64 c.closedCnt else if i % 64 = 2 then words64 c.doneCnt
    else if i % 64 = 3 then wordsTime c.faultTime else wordsTime c.stallTime
  | 0x7 => if i = 1 then words64 s.pool.egressOk else if i = 2 then wordsTime s.pool.sleeveTime else wordsTime s.pool.uncorrTime
  | 0x8 =>
    let x := i / 16
    if i % 16 = 5 then words64 (seenIssued s x)
    else (List.range 4).map (fun j => seenReg s x (4 * (i % 16 - 1) + j))
  | 0x9 => if i = 1 then wordsTime s.mem.collTime else words64 s.jwrite.committed
  | 0xA =>
    if i = 1 then wordsTime s.fab.ownTime else if i = 2 then wordsTime s.fab.bestTime
    else if i < 0x200 then routeItem s (i - 0x100)
    else if i < 0x300 then nbrItem s (i - 0x200)
    else orderItem s (i - 0x300)
  | 0xB =>
    if i = 1 then wordsTime s.now
    else if i = 2 then (match s.tim.setSec with | some n => wordsTime (BitVec.ofNat 80 (n * 2 ^ 32)) | none => wordsTime 0#80)
    else if i = 3 then wordsTime s.tim.tpi else wordsTime s.tim.stepTime
  | 0xC => canItem s 0 i
  | _ => canItem s 1 i

/-- What a capture does to its item: a capture of an object's frame clears NEWDAT and LOST (R451). -/
def mbxTaken (s : State) (sel : Nat) : State :=
  let i := sel % 4096
  let ch := sel / 4096 - 12
  if (sel / 4096 = 12 ∨ sel / 4096 = 13) ∧ 0x100 ≤ i ∧ i < 0x180 then
    (s.setBit (oAddr ch (i - 0x100) 4) 12 false).setBit (oAddr ch (i - 0x100) 4) 13 false
  else s

/-- The bytes of a list of words. -/
def bytesOfWords (ws : List Word) : List Byte := ws.flatMap (fun w => bytesBE 4 w.toNat)

/-- Move the four words into item `sel` (R161): seconds to load (R526), four general registers of a halted context, the DLC
and data of a transmit object (R453). -/
def mbxStore (s : State) (sel : Nat) (ws : List Word) : State :=
  let i := sel % 4096
  let w (k : Nat) : Word := (ws[k]?).getD 0#32
  match sel / 4096 with
  | 0x8 =>
    let x := i / 16
    forEach 4 (fun s j => setGreg s x (BitVec.ofNat 4 (4 * (i % 16 - 1) + j)).toFin (w j)) s
  | 0xB => { s with tim := { s.tim with setSec := some ((w 0).toNat % 2 ^ 16 * 2 ^ 32 + (w 1).toNat) } }
  | 0xC | 0xD =>
    let ch := sel / 4096 - 12
    let o := s.obj ch (i - 0x100)
    let n := getF (w 1) 28 4
    s.setObj ch (i - 0x100) { o with frame := { o.frame with dlc := n, data := (bytesOfWords [w 2, w 3]).take (min n 8) } }
  | _ => s

/-! ## The commands (R159, R161, R162) -/

/-- A write to MBX_SEL: a selector that names no item clamps to 0x0000; VALID clears; the capture starts, and one that runs is
abandoned. -/
def doMbxSelect (s : State) (sel : Nat) : State :=
  let ok := sel == 0 || mbxNames s sel
  let s := s.setFld 0x20 0 16 (if ok then sel else 0)
  let s := if ok then s else noteClamp s 0x20
  { s.setBit 0x21 0 false with mbx := { capturing := true } }
/-- MAILBOX_SELECT. -/
def execMailboxSelect (sel : BitVec 16) (s : State) : Res := .next (viaHost s (fun s => doMbxSelect s sel.toNat))

/-- RECAPTURE: VALID clears and the item is captured again. -/
def doMbxRecapture (s : State) : State := { s.setBit 0x21 0 false with mbx := { capturing := true } }
/-- MAILBOX_RECAPTURE. -/
def execMailboxRecapture (s : State) : Res := .next (viaHost s (fun s => doMbxRecapture s))

/-- Put four words into MBX_DAT0 to MBX_DAT3. -/
def putDat (s : State) (ws : List Word) : State := forEach 4 (fun s j => s.setReg (0x22 + j) ((ws[j]?).getD 0#32)) s

/-- The capture lands, whole, and VALID is set. A write of MBX_DAT or a WRITE while it is in progress does not stop it: what it puts into
MBX_DAT0 to MBX_DAT3 comes last (R161 says nothing of it; DESIGN CHOICE, log entry 63). -/
def doMbxCapture (s : State) : State :=
  if !s.mbx.capturing then s
  else
    let sel := s.fld 0x20 0 16
    let s := mbxTaken (putDat s (mbxRead s sel)) sel
    { s.setBit 0x21 0 with mbx := { capturing := false }, fresh := s.fresh + 1 }
/-- MAILBOX_CAPTURE_DONE. -/
def execMailboxCaptureDone (s : State) : Res := .next (doMbxCapture s)

/-- A write to MBX_DATi: the word is stored and VALID clears. -/
def doMbxData (s : State) (i : Nat) (w : Word) : State := (s.setReg (0x22 + i) w).setBit 0x21 0 false
/-- MAILBOX_DATA_WRITE. -/
def execMailboxDataWrite (i : Fin 4) (w : Word) (s : State) : Res := .next (viaHost s (fun s => doMbxData s i.val w))

/-- A WRITE strobe moves the four words into the selected item, or sets MBXERR for a read-only one; nothing else changes. -/
def doMbxWrite (s : State) : State :=
  let sel := s.fld 0x20 0 16
  if mbxRo s sel then s.setBit 0x0B 4
  else mbxStore s sel ((List.range 4).map (fun j => s.reg (0x22 + j)))
/-- MAILBOX_WRITE. -/
def execMailboxWrite (s : State) : Res := .next (viaHost s (fun s => doMbxWrite s))

end Sys2Proof.Machine
end

