-- ==== Sys2Proof/Machine/Derived.lean ====
section
/-! DEFINITION. Sys2Proof/Machine/Derived.lean: what a read of a register word returns (R153–R155, R163–R166). Most words are
held as they stand; words that report an engine's state are put together here. -/
namespace Sys2Proof.Machine

/-! ## GLB: pending commits and events (R148, R163) -/

/-- The instances with a staged commit or a queued strobe, and those with a queued strobe. -/
def busyInsts (s : State) : List Inst := s.commit.staged.map (·.inst) ++ s.commit.queued.map (·.inst)
def queuedInsts (s : State) : List Inst := s.commit.queued.map (·.inst)

/-- A mask with the bits that `f` gives the elements of a list. -/
def maskBy {α : Type} (f : α → Nat) (l : List α) : Nat := l.foldl (fun m x => Nat.lor m (2 ^ f x)) 0

/-- GLB_COMMIT_PEND: during start-up it shows the held groups (R119). -/
def commitPend (s : State) : Word :=
  ofFields [(0, Nat.lor (maskBy instGroup (busyInsts s)) (heldGroups s)), (8, maskBy instGroup (queuedInsts s))]

/-- GLB_PENDP, and GLB_PENDC0 and GLB_PENDC1 together. -/
def pendPorts (s : State) : Nat :=
  (busyInsts s).foldl (fun m i => match i with | .port n => Nat.lor m (2 ^ n) | _ => m) 0
def pendCircs (s : State) : Nat :=
  (busyInsts s).foldl (fun m i => match i with | .circ c => Nat.lor m (2 ^ c) | .ctx c => Nat.lor m (2 ^ c) | _ => m) 0

/-- Some event bit of word `e` is set and enabled by word `en`. -/
def evOn (s : State) (e en : Nat) : Bool := (s.reg e &&& s.reg en) != 0#32

/-- Port `n`, circuit `c` contributes to its summary bit. -/
def portEvOn (s : State) (n : Nat) : Bool := present s n && evOn s (pAddr n 0x13) (pAddr n 0x14)
def circEvOn (s : State) (c : Nat) : Bool := evOn s (cAddr c 0x0D) (cAddr c 0x0E)

/-- The ports and the circuits that contribute, as masks. -/
def evtPorts (s : State) : Nat := wordOfBits ((List.range 16).map (portEvOn s))
def evtCircs (s : State) (base : Nat) : Nat := wordOfBits ((List.range 32).map (fun i => circEvOn s (base + i)))

/-- GLB_EVTSUM (R163). -/
def evtSum (s : State) : Word :=
  BitVec.ofNat 32 (wordOfBits [evOn s 0x0B 0x0C, s.reg 0x113 != 0#32, s.reg 0x205 != 0#32, evOn s 0x302 0x303, evOn s 0x402 0x403,
    evtPorts s != 0, evOn s 0x2006 0x2007 || evOn s 0x201C 0x201D, evtCircs s 0 != 0 || evtCircs s 32 != 0, evOn s 0x2408 0x2409,
    evOn s 0x3034 0x3035 || evOn s 0x3109 0x310A, evOn s 0x4010 0x4011, evOn s 0x480D 0x480E, evOn s 0x5008 0x5009,
    evOn s 0x5808 0x5809])

/-- The host port mode in force (STR_PROFILE.HOSTMODE): 0 framed, 1 chain, 2 absent. -/
def hostMode (s : State) : Nat := s.fld 0x105 9 2

/-- HIRQ_N is driven low (R164, R165). It is released in reset and in factory test (Table 3-2, R76) and where the host port is absent;
in DORMANT it holds its level. -/
def hirq (s : State) : Bool :=
  if s.boot.factory || !s.boot.strapped then false
  else if s.power.st == .dormant then s.host.irqHeld
  else (evtSum s &&& s.reg 0x0E) != 0#32 && hostMode s != 2

/-! ## Other status words -/

/-- A trunk is enabled (FAB_TRK.CANA, FAB_TRK.CANB, FAB_UTk.EN). -/
def anyTrunk (s : State) : Bool := s.bit 0x4003 0 || s.bit 0x4003 1 || [2, 3, 4, 5].any (fun k => s.bit (utAddr k) 0)

/-- SUP_STAT.STATPAT (Table 16-3). -/
def statPat (s : State) : Nat :=
  if s.power.st == .dormant then 1
  else if !s.boot.live then 0
  else if anyTrunk s && s.fld 0x4000 12 2 != 2 then 2
  else if s.hold.quality != .locked then 3 else 4

/-- TIM_STAT (Table 15-6). -/
def timStat (s : State) : Word :=
  ofFields [(0, qCode s.hold.quality), (2, srcCode s.tim.sel), (5, b2n (s.tim.sel != 0 && (s.tref s.tim.sel).qual)),
    (6, b2n (s.tim.p != 0)), (8, s.hold.stratum % 16), (12, b2n s.tim.tpoOn), (13, b2n s.tim.setSec.isSome)]

/-- CEL_STAT, CEL_SHARE, CEL_SYS (Table 7-15). -/
def celStat (s : State) : Word := ofFields [(0, (poolFree s).toNat), (16, sysUsed s)]
def celShare (s : State) : Word :=
  ofFields [(0, ofInt 16 (sharedFree s)), (16, (List.range 64).foldl (fun t c => t + cReserve s c) 0)]
def celSys (s : State) : Word :=
  ofFields [(0, sysHeld s .ctl), (8, sysHeld s .relay), (16, sysHeld s .jnl), (24, sysHeld s .other)]

/-- Context states (Table 9-2). -/
def ctxCode : CtxSt → Nat
  | .idle => 0 | .run => 1 | .wait => 2 | .halted => 3 | .faulted => 4

/-- A context's STAT, PC and EVENTS words. What a system context does between two reads is not given (log entry 16). -/
def ctxStat (s : State) (x : Nat) : Word :=
  let st := (s.ctx x).st
  let code := if 64 ≤ x && st == .wait then (if Config.sysRuns x s.fresh s.now then 1 else 2) else ctxCode st
  setF (s.reg (xAddr x 2)) 0 3 code
def ctxPc (s : State) (x : Nat) : Word := BitVec.ofNat 32 (seenAddr s x % 2 ^ 23)
def ctxEvents (s : State) (x : Nat) : Word :=
  if sysLive s x then Config.sysEvents x s.fresh s.now
  else
    let em := if (stockAt (progAddr (s.ctx x))).isSome then (Config.stockMask x s.fresh).toNat else (s.ctx x).em.toNat
    ofFields [(0, (s.ctx x).ep.toNat), (16, em)]

/-- MEM_STAT: BUSY, PARKED and ERASING are the port's own state, OTHER what the selects last showed (R96, R372). -/
def memStat (s : State) : Word :=
  setF (s.reg 0x3001) 4 4 (wordOfBits [s.mem.active.isSome, s.mem.parked.isSome, s.mem.erasing.isSome, s.mem.other])

/-- FAB_STAT.ROUTES and FAB_TSTAT. -/
def fabStat (s : State) : Word := setF (s.reg 0x4000) 16 9 (s.fab.routes.filter (fun e => e.2.st != .empty)).length
def fabTstat (s : State) : Word :=
  ofFields [(0, wordOfBits ((List.range 6).map (fun k => (s.trunk k).up))),
    (8, wordOfBits ((List.range 4).map (fun k => (s.trunk (k + 2)).lock == .locked))),
    (16, (s.fab.nbrs.filter (fun e => e.2.st != .empty)).length)]

/-- CANx_STAT. -/
def canStat (s : State) (ch : Nat) : Word :=
  let c := s.can ch
  setF (setF (setF (setF (s.reg (chAddr ch 7)) 0 3 (canStCode c.st)) 4 2 (canRoleCode c.role)) 16 8 c.tec) 24 8 c.rec_

/-- CANx_TXPENDj and CANx_RXNEWj. -/
def canPend (s : State) (ch j : Nat) : Word :=
  BitVec.ofNat 32 (wordOfBits ((List.range 32).map (fun b => (s.obj ch (32 * j + b)).pend)))
def canNew (s : State) (ch j : Nat) : Word :=
  BitVec.ofNat 32 (wordOfBits ((List.range 32).map (fun b => s.bit (oAddr ch (32 * j + b) 4) 12)))

/-- CANx_OBJi_STAT.STATE: idle, pending, on the bus. -/
def objStat (s : State) (ch i : Nat) : Word :=
  let on := match (s.can ch).onBus with | some (.obj k, _) => k == i | _ => false
  setF (s.reg (oAddr ch i 4)) 0 2 (if on then 2 else if (s.obj ch i).pend then 1 else 0)

/-- HST_STAT: APEND while the command that A answers has not finished; a chain command that waits is one. -/
def hstStat (s : State) : Word :=
  let pend := (s.host.running && s.host.next.isNone) || s.host.cmd.isSome
  setF (setF (setF (s.reg 0x400) 0 2 (hostMode s)) 2 1 (b2n s.host.selected)) 3 1 (b2n pend)

/-- SUP_PGLnn: REMAIN is the glove time left, in whole seconds begun (R556; log entry 30). -/
def pglWord (s : State) (n : Nat) : Word :=
  let p := s.port n
  setF (s.reg (pglAddr n)) 16 9 (if p.gloved then min 256 ((p.gloveEnd - s.now.toNat + 2 ^ 32 - 1) / 2 ^ 32) else 0)

/-- The word at offset `o` of block GLB, CLK, SUP, HST or CEL. -/
def liveLow (s : State) (a : Nat) : Word :=
  match a with
  | 0x00 => setF (s.reg 0) 8 8 s.chip.grade
  | 0x04 => commitPend s
  | 0x05 => BitVec.ofNat 32 (maskBy instBlock (busyInsts s))
  | 0x06 => BitVec.ofNat 32 (pendPorts s)
  | 0x07 => BitVec.ofNat 32 (pendCircs s)
  | 0x08 => BitVec.ofNat 32 (pendCircs s / 2 ^ 32)
  | 0x0D => evtSum s
  | 0x0F => BitVec.ofNat 32 (evtPorts s)
  | 0x10 => BitVec.ofNat 32 (evtCircs s 0)
  | 0x11 => BitVec.ofNat 32 (evtCircs s 32)
  | 0x21 => setF (s.reg 0x21) 1 1 (b2n (mbxRo s (s.fld 0x20 0 16)))
  | 0x200 => setF (s.reg 0x200) 2 2 (b2n (s.power.st == .quiet))
  | 0x207 => rstCause s
  | 0x300 => setF (s.reg 0x300) 16 3 (statPat s)
  | 0x304 => setF (s.reg 0x304) 16 8 s.hold.wdlast
  | 0x322 => setF (s.reg 0x322) 16 16 s.hold.brown
  | 0x400 => hstStat s
  | 0x40B => setF (s.reg 0x40B) 0 7 s.host.tokens.length
  | 0x2000 => celStat s
  | 0x2001 => celShare s
  | 0x2003 => celSys s
  | 0x2400 => setF (s.reg 0x2400) 5 1 (b2n s.chip.imageKey.isSome)
  | 0x3001 => memStat s
  | 0x310B => BitVec.ofNat 32 s.jnl.staged.length
  | 0x4000 => fabStat s
  | 0x400C => fabTstat s
  | 0x4800 => timStat s
  | 0x480A => s.hold.hfreq
  | 0x480C => BitVec.ofNat 32 s.hold.holdSec
  | _ => s.reg a

/-- The applied value of word `a`, as a read sees it (R153, R155); 0 for an absent port (R6) and a reserved word (R17). -/
def liveWord (s : State) (a : Nat) : Word :=
  if absentPort s a then 0#32
  else if 0x310 ≤ a ∧ a < 0x320 then pglWord s (a - 0x310)
  else if 0x800 ≤ a ∧ a < 0xC00 ∧ a % 64 = 0x12 then portStat s ((a - 0x800) / 64)
  else if 0x1000 ≤ a ∧ a < 0x2000 ∧ a % 64 = 8 then circStat s ((a - 0x1000) / 64)
  else if 0x1000 ≤ a ∧ a < 0x2000 ∧ a % 64 = 9 then circQstat s ((a - 0x1000) / 64)
  else if 0x1000 ≤ a ∧ a < 0x2000 ∧ a % 64 = 0xA then circSeqWord s ((a - 0x1000) / 64)
  else if 0x2C00 ≤ a ∧ a < 0x2C80 ∧ a % 16 = 0 then BitVec.ofNat 32 (0x4800 + (Config.sysEntry ((a - 0x2800) / 16)).val)
  else if 0x2800 ≤ a ∧ a < 0x2C80 ∧ a % 16 = 2 then ctxStat s ((a - 0x2800) / 16)
  else if 0x2800 ≤ a ∧ a < 0x2C80 ∧ a % 16 = 3 then ctxPc s ((a - 0x2800) / 16)
  else if 0x2800 ≤ a ∧ a < 0x2C80 ∧ a % 16 = 4 then ctxEvents s ((a - 0x2800) / 16)
  else if 0x5000 ≤ a ∧ a < 0x6000 then
    let ch := (a - 0x5000) / 0x800
    let o := a % 0x800
    if 0x400 ≤ o then (if o % 8 = 4 then objStat s ch ((o - 0x400) / 8) else s.reg a)
    else if o = 7 then canStat s ch
    else if 0x18 ≤ o ∧ o < 0x1C then canPend s ch (o - 0x18)
    else if 0x1C ≤ o ∧ o < 0x20 then canNew s ch (o - 0x1C)
    else s.reg a
  else liveLow s a

/-- The bits of word `a` that the RB fields cover take the shadow's value when GLB_CTL.SHADOW is 1 (R153). -/
def viewWord (s : State) (a : Nat) : Word :=
  let w := liveWord s a
  if s.bit 0x02 0 && !absentPort s a then (w &&& ~~~ accMask .rb a) ||| (s.shad a &&& accMask .rb a) else w

/-- Clear the RC bits of word `a` that `w` returned, and only those (R15, R16). -/
def clearRc (s : State) (a : Nat) (w : Word) : State := s.setReg a (s.reg a &&& ~~~ (w &&& accMask .rc a))

/-- A normal read (R15, R16, R153, R154): the word, and the state with the RC bits it returned cleared, unless the shadow view
is selected. A read of a system context's words draws a free value. -/
def normalRead (s : State) (a : Nat) : Word × State :=
  let w := viewWord s a
  let t := if s.bit 0x02 0 || absentPort s a then s else clearRc s a w
  (w, if 0x2800 ≤ a ∧ a < 0x2C80 then { t with fresh := t.fresh + 1 } else t)

end Sys2Proof.Machine
end

