-- ==== Sys2Proof/Machine/Journal.lean ====
section
/-! DEFINITION. Sys2Proof/Machine/Journal.lean: the journal ring: its place, its records, the writer's steps, the boot scan and
FORMAT (R379–R393). Memory 1 is the flash, memory 2 the FRAM, as JNL_STAT.MEM codes them. -/
namespace Sys2Proof.Machine

/-! ## Bytes of the attached memories -/

/-- A byte of memory `m`; an unwritten byte reads 0xFF (log entry 6). -/
def memByte (s : State) (m a : Nat) : Byte := if m = 2 then fget (fun _ => 0xFF#8) s.ext.fram a else flashByte s a
/-- `n` bytes of memory `m` from `a`. -/
def memBytes (s : State) (m a n : Nat) : List Byte := (List.range n).map (fun j => memByte s m (a + j))
/-- A number in memory, most significant byte first. -/
def memNat (s : State) (m a n : Nat) : Nat := natBE (memBytes s m a n)
/-- Write a byte: an FRAM takes it; a flash program only clears bits. -/
def putMemByte (s : State) (m a : Nat) (b : Byte) : State :=
  if m = 2 then { s with ext := { s.ext with fram := fset (fun _ => 0xFF#8) s.ext.fram a b } }
  else { s with ext := { s.ext with flash := fset (fun _ => 0xFF#8) s.ext.flash a (flashByte s a &&& b) } }
/-- Write bytes in order. -/
def putMem (s : State) (m a : Nat) (bs : List Byte) : State :=
  ((bs.zip (List.range bs.length)).foldl (fun s e => putMemByte s m (a + e.2) e.1) s)
/-- Erase `n` bytes of the flash from `a`. -/
def eraseFlash (s : State) (a n : Nat) : State :=
  { s with ext := { s.ext with flash := s.ext.flash.filter (fun e => decide (e.1 < a) || decide (a + n ≤ e.1)) } }

/-- The size of memory `m` in bytes. -/
def memSize (s : State) (m : Nat) : Nat :=
  if m = 2 then (if s.bit 0x3001 1 then 65536 else 0) else flashBytes s

/-! ## Header slots and rings (R379, R380, Tables 11-2, 11-3) -/

/-- The first byte of a header slot. -/
def slotAddr (s : State) (m slot : Nat) : Nat :=
  if m = 2 then 0x40 * slot else flashBytes s - 0x1000 * (slot + 1)
/-- The bytes a header slot takes up: 64 in FRAM, a sector in flash. -/
def slotSize (m : Nat) : Nat := if m = 2 then 0x40 else 0x1000
/-- The default ring of a slot: first byte of unit 0, units. -/
def defaultRing (s : State) (m slot : Nat) : Nat × Nat :=
  if m = 2 then (if slot = 0 then 0x1000 else 0x9000, 7) else (flashBytes s - 0x12000 - 0x10000 * slot, 16)
/-- The UID, BASE and UNITS of a slot's header where MAGIC and SEAL check. -/
def readHeader (s : State) (m slot : Nat) : Option (Nat × Nat × Nat) :=
  let a := slotAddr s m slot
  if memNat s m a 4 = 0x4A524E47 ∧ (crc32c (memBytes s m a 56)).toNat = memNat s m (a + 56) 4 then
    some (memNat s m (a + 8) 8, memNat s m (a + 16) 4, memNat s m (a + 20) 2)
  else none
/-- A header's bytes. -/
def headerBytes (m : Nat) (uid : BitVec 64) (base units : Nat) : List Byte :=
  let b := bytesBE 4 0x4A524E47 ++ [1#8, BitVec.ofNat 8 (m - 1), 0#8, 0#8] ++ bytesBE 8 uid.toNat ++ bytesBE 4 base ++ bytesBE 2 units ++
    List.replicate 34 0#8
  b ++ bytesBE 4 (crc32c b).toNat ++ [0xFF#8, 0xFF#8, 0xFF#8, 0xFF#8]

/-- The memory, ring base and units in use (JNL_STAT, JNL_GEOM). -/
def jMem (s : State) : Nat := if s.bit 0x3100 6 then 0 else s.fld 0x3100 0 2
def jBase (s : State) : Nat := s.fld 0x3101 0 12 * 4096
def jUnits (s : State) : Nat := s.fld 0x3101 16 9
def jUnit (s : State) : Nat := s.fld 0x3102 0 8
def jRec (s : State) : Nat := s.fld 0x3102 8 6
/-- The address of record `i` of unit `u` (R383). -/
def recAddr (s : State) (u i : Nat) : Nat := jBase s + 4096 * u + 64 * i
/-- Set the head. -/
def setHead (s : State) (u i : Nat) : State := (s.setFld 0x3102 0 8 u).setFld 0x3102 8 6 i
/-- The unit after the head's. -/
def nextUnit (s : State) : Nat := if jUnit s + 1 < jUnits s then jUnit s + 1 else 0

/-! ## Records (R383–R385, Tables 11-4, 11-5) -/

/-- Bytes 0 to 59 of a record: what the first phase writes. GROUP is member index × 16 + size − 1. -/
def recBytes (s : State) (seq : Nat) (r : JRec) : List Byte :=
  let p := (r.payload ++ List.replicate 38 0#8).take 38
  let b := bytesBE 4 seq ++ [BitVec.ofNat 8 r.typ, BitVec.ofNat 8 r.group] ++ bytesBE 2 r.source ++ recordForm r.time ++
    [BitVec.ofNat 8 r.tq, BitVec.ofNat 8 s.hold.resets] ++ p
  b ++ bytesBE 4 (crc32c b).toNat

/-- Record states (R384). -/
inductive RecSt where
  | erased | void | body | sealed | committed
  deriving DecidableEq, Repr

/-- The state of the record at an address, judged in order (R384). -/
def recState (s : State) (m a : Nat) : RecSt :=
  if (memBytes s m a 64).all (· == 0xFF#8) then .erased
  else if memNat s m (a + 62) 2 ≠ 0xFFFF then .void
  else if (crc32c (memBytes s m a 56)).toNat ≠ memNat s m (a + 56) 4 then .body
  else if memNat s m (a + 60) 2 = 0xFFFF then .sealed
  else .committed

/-- A record that carries meaning. -/
def recValid (s : State) (m a : Nat) : Bool := recState s m a == .sealed || recState s m a == .committed

/-- Payload of a last-known-good strap record (Table 11-5). -/
def lkgPayload (l : Lkg) : List Byte :=
  bytesBE 3 l.levels ++ [BitVec.ofNat 8 l.aux] ++ bytesBE 2 l.chainLen ++ bytesBE 32 l.chain.toNat
/-- A strap payload read back. -/
def lkgOf (bs : List Byte) : Lkg :=
  { levels := natBE (bs.take 3), aux := natBE ((bs.drop 3).take 1), chainLen := natBE ((bs.drop 4).take 2),
    chain := BitVec.ofNat 256 (natBE ((bs.drop 6).take 32)) }

/-- The high-water mark of a circuit as a checkpoint carries it (R386): its TXSEQ as it then stands, which no number it has used exceeds
(DEDUCED, log entry 64). -/
def markOf (s : State) (c : Nat) : Nat := (s.circ c).txseq % 65536

/-- Member `k` of a checkpoint group (R386): 0 the straps, 1 to 4 the marks. With no last-known-good copy the straps are a free
value (log entry 24). -/
def ckptMember (s : State) (k : Nat) : JRec :=
  let p := if k = 0 then
      (match s.strap.lkg with | some l => lkgPayload l | none => (List.range 38).map (Config.noLkg s.fresh))
    else ((List.range 19).filterMap (fun j => if 19 * (k - 1) + j < 64 then some (bytesBE 2 (markOf s (19 * (k - 1) + j))) else none)).flatten
  { typ := if k = 0 then 1 else 2, group := k * 16 + 4, source := 0, time := s.now, tq := qCode s.hold.quality, payload := p }

/-! ## The writer (R385–R389, R392) -/

/-- PFI holds records back (R389). -/
def pfiHolds (s : State) : Bool := s.power.pfiLow || s.power.pfiWait

/-- A clear of the unit at `a` is still to be done. -/
def clearPending (s : State) (a : Nat) : Bool :=
  s.jwrite.jobs.any (fun j => match j with | .clear b _ => b == a | _ => false)

/-- Two byte ranges overlap. -/
def overlap (a n b m : Nat) : Bool := decide (a < b + m) && decide (b < a + n)

/-- Flash bytes that the device neither programs nor erases while authentication is required: slots A and B and the loaded XIP section
(R327). -/
def flashGuarded (s : State) (a n : Nat) : Bool :=
  authReq s && (overlap a n 0 0x40000 ||
    (s.fld 0x2400 1 2 != 0 && s.reg 0x2405 != 0#32 && overlap a n (s.reg 0x2405).toNat (s.reg 0x2406).toNat))

/-- What a piece of the writer's maintenance would write is guarded. -/
def jobGuarded (s : State) : JJob → Bool
  | .mend a _ => flashGuarded s a 64
  | .clear a _ => flashGuarded s a 4096
  | .header slot _ _ => flashGuarded s (slotAddr s 1 slot) 4096
  | .fmtDone _ _ _ => false

/-- The writer may not touch its flash: its ring or its next work lies in guarded bytes (R327). Records then stay staged. -/
def jGuarded (s : State) : Bool :=
  jMem s == 1 && (flashGuarded s (jBase s) (4096 * jUnits s) || s.jwrite.jobs.any (jobGuarded s))

/-- The writer may do something: it has memory that it may write, ports are live (R392), and no operation waits for its retry (R368). -/
def jOn (s : State) : Bool := jMem s != 0 && s.boot.live && s.mem.retry.isNone && !jGuarded s

/-- A second phase is due: of a sealed record, or of a group whose every member is sealed (R385). -/
def wantSecond (s : State) : Bool :=
  jOn s && (s.jwrite.sealed.isSome || (match s.jwrite.ckpt with | some (5, _) => true | _ => false))

/-- A record or a checkpoint member can be started: the head's unit is clear (R386). -/
def recOpen (s : State) : Bool :=
  s.jwrite.ckpt.isSome ||
    (!clearPending s (recAddr s (jUnit s) 0) && (!s.jwrite.ckptDone || !s.jnl.staged.isEmpty))

/-- First-phase work is due, which PFI holds back (R389): maintenance first. A clear is first-phase work in FRAM; in flash it
is an erase, and records of a clear unit go on. -/
def wantFirst (s : State) : Bool :=
  jOn s && !wantSecond s && !pfiHolds s &&
  (match s.jwrite.jobs with
   | .clear _ _ :: _ => jMem s == 2 || recOpen s
   | .mend _ _ :: _ => true
   | .header _ _ _ :: _ => true
   | _ => recOpen s)

/-- The sector that the writer wants erased. -/
def wantErase (s : State) : Option Nat :=
  match s.jwrite.jobs with
  | .clear a _ :: _ => if jOn s && !pfiHolds s && jMem s == 1 && s.mem.erasing.isNone then some a else none
  | _ => none

/-- The flash is programming: after a program it is busy until a poll says otherwise. -/
def programmed (s : State) : State := if jMem s = 1 then { s with mem := { s.mem with progBusy := true } } else s

/-- Drop the first job; an end of a format that comes first takes effect (R382). -/
def popJob (s : State) : State :=
  let s := { s with jwrite := { s.jwrite with jobs := s.jwrite.jobs.drop 1 } }
  match s.jwrite.jobs with
  | .fmtDone slot base units :: rest =>
    let s := { s with jwrite := { s.jwrite with jobs := rest, ckptDone := false, ckpt := none, fmtDue := true } }
    let s := (s.setBit 0x3100 2 (slot == 1)).setReg 0x3101 (ofFields [(0, base / 4096), (16, units)])
    setHead s 0 0
  | _ => s

/-- The head moves to the next record slot; a new unit needs its checkpoint (R386). -/
def advanceHead (s : State) : State :=
  if jRec s + 1 < 64 then setHead s (jUnit s) (jRec s + 1)
  else { setHead s (nextUnit s) 0 with jwrite := { s.jwrite with ckptDone := false } }

/-- Write a record's first phase at the head and take the next SEQ. -/
def sealAtHead (s : State) (r : JRec) : State :=
  let t := putMem s (jMem s) (recAddr s (jUnit s) (jRec s)) (recBytes s (s.reg 0x3103).toNat r)
  programmed (t.setReg 0x3103 (s.reg 0x3103 + 1#32))

/-- A first-phase step: a mend, a chunk of a clear, a header, a checkpoint member, or a record (R385, R386, R392). -/
def firstPhase (s : State) : State :=
  let w := s.jwrite
  let record (s : State) : State :=
    match w.ckpt with
    | some (k, c) =>
      let s := sealAtHead s (ckptMember s k)
      advanceHead { s with jwrite := { s.jwrite with ckpt := some (k + 1, c) } }
    | none =>
      if !w.ckptDone then
        -- a checkpoint that does not fit in the head unit goes to the next (R392)
        if 64 < jRec s + 5 then setHead s (nextUnit s) 0
        else
          let s := sealAtHead s (ckptMember s 0)
          advanceHead { s with jwrite := { s.jwrite with ckpt := some (1, 0) }, fresh := s.fresh + 1 }
      else match s.jnl.staged with
        | [] => s
        | (r, _) :: _ =>
          let a := recAddr s (jUnit s) (jRec s)
          let s := sealAtHead s r
          { s with jwrite := { s.jwrite with sealed := some a } }
  match w.jobs with
  | .mend a m :: _ =>
    let s := putMem s (jMem s) (match m with | .void => a + 62 | .commit => a + 60) [0#8, 0#8]
    popJob (programmed s)
  | .header slot base units :: _ =>
    let s := putMem s (jMem s) (slotAddr s (jMem s) slot) (headerBytes (jMem s) s.chip.uid base units)
    popJob (programmed s)
  | .clear a d :: rest =>
    if jMem s = 1 then record s
    else
      let s := putMem s 2 (a + 64 * d) (List.replicate 64 0xFF#8)
      if d + 1 < 64 then { s with jwrite := { s.jwrite with jobs := .clear a (d + 1) :: rest } } else popJob s
  | _ => record s

/-- A record is committed: counted; its staging cell is freed. -/
def countCommitted (s : State) : State :=
  { s.count 0x3107 0 16 with jwrite := { s.jwrite with committed := s.jwrite.committed + 1 } }

/-- A second phase: COMMIT of the sealed record, or of the next member of a sealed group (R385). After the last member the next
unit is cleared (R386); a format is then done (R382). -/
def secondPhase (s : State) : State :=
  let m := jMem s
  match s.jwrite.sealed with
  | some a =>
    let s := programmed (putMem s m (a + 60) [0#8, 0#8])
    let s := advanceHead (countCommitted { s with jwrite := { s.jwrite with sealed := none } })
    match s.jnl.staged with
    | (_, i) :: rest => releaseCell { s with jnl := { s.jnl with staged := rest } } i
    | [] => s
  | none =>
    match s.jwrite.ckpt with
    | some (5, c) =>
      -- the five members end just before the head
      let head := 64 * jUnit s + jRec s
      let pos := if head < 5 then 64 * jUnits s + head - 5 else head - 5
      let a := recAddr s ((pos + c) / 64) ((pos + c) % 64)
      let s := countCommitted (programmed (putMem s m (a + 60) [0#8, 0#8]))
      if c + 1 < 5 then { s with jwrite := { s.jwrite with ckpt := some (5, c + 1) } }
      else
        let job := JJob.clear (recAddr s (if jRec s = 0 then jUnit s else nextUnit s) 0) 0
        let s := if s.jwrite.fmtDue then s.setBit 0x3109 1 else s
        { s with jwrite := { s.jwrite with ckpt := none, ckptDone := jRec s != 0, jobs := s.jwrite.jobs ++ [job], fmtDue := false } }
    | _ => s

/-- A flash sector has been erased: its job is done. -/
def erased (s : State) (a : Nat) : State :=
  let s := eraseFlash { s with mem := { s.mem with erasing := none } } a 4096
  match s.jwrite.jobs with
  | .clear b _ :: _ => if a = b then popJob s else s
  | _ => s

/-! ## FORMAT (R382) and JNL_CTL.CLRCNT -/

/-- The new ring of JNL_FMT may not be taken (R382). -/
def formatBad (s : State) : Bool :=
  let m := jMem s
  let base := s.fld 0x3104 0 12 * 4096
  let len := s.fld 0x3104 16 9 * 4096
  let slot := s.fld 0x3104 28 1
  m == 0 || decide (memSize s m < base + len) ||
  [0, 1].any (fun k => overlap base len (slotAddr s m k) (slotSize m)) ||
  (m == 1 && (overlap base len 0 0x40000 ||
    (s.fld 0x2400 1 2 != 0 && overlap base len (s.reg 0x2405).toNat (s.reg 0x2406).toNat))) ||
  (match readHeader s m (1 - slot) with
   | some (_, b, u) => overlap base len b (4096 * u)
   | none => false)

/-- FORMAT: refused with FMTREF, or the header and every unit of the new ring are written, then the journal moves there. -/
def doFormat (s : State) : State :=
  if formatBad s then s.setBit 0x3109 2
  else
    let base := s.fld 0x3104 0 12 * 4096
    let units := s.fld 0x3104 16 9
    let slot := s.fld 0x3104 28 1
    let hdr := if jMem s = 1 then [JJob.clear (slotAddr s 1 slot) 0, .header slot base units] else [JJob.header slot base units]
    let jobs := hdr ++ (List.range units).map (fun u => JJob.clear (base + 4096 * u) 0) ++ [.fmtDone slot base units]
    { s with jwrite := { s.jwrite with jobs := jobs } }
def execFormat (s : State) : Res := .next (viaHost s (fun s => doFormat s))
/-- JNL_CLRCNT: zero JNL_CNT. -/
def doJnlClrcnt (s : State) : State := s.setReg 0x3107 0#32
def execJnlClrcnt (s : State) : Res := .next (viaHost s (fun s => doJnlClrcnt s))
/-- JOURNAL_BUCKET_REFILL (R388): a token, at most 64. -/
def execJournalBucketRefill (s : State) : Res :=
  if s.fld 0x3106 0 16 = 0 then .next s else .next { s with jnl := { s.jnl with tokens := min 64 (s.jnl.tokens + 1) } }

/-! ## The boot scan (R391) -/

/-- A group's members stand together: size `g` from address `a0`, indexes and SEQs consecutive, every one valid. -/
def groupWhole (s : State) (m a0 g : Nat) : Bool :=
  (List.range g).all (fun k =>
    let a := a0 + 64 * k
    recValid s m a && memNat s m (a + 5) 1 == k * 16 + (g - 1) && memNat s m a 4 == memNat s m a0 4 + k)

/-- What the scan makes of the record at `a` (Table 11-7): void it, commit it, or leave it; whether it carries meaning; which
counter of JNL_BOOT it counts in. -/
def judgeRec (s : State) (m a : Nat) : Option Mend × Bool × Option Nat :=
  let grp := memNat s m (a + 5) 1
  let g := grp % 16 + 1
  let whole := g = 1 ∨ (64 * (grp / 16) ≤ a ∧ groupWhole s m (a - 64 * (grp / 16)) g)
  match recState s m a with
  | .erased => (none, false, none)
  | .void => (none, false, none)
  | .body => (some .void, false, some 0)
  | .sealed => if whole then (some .commit, true, some 8) else (some .void, false, some 0)
  | .committed =>
    if whole then (if memNat s m (a + 60) 2 = 0 then (none, true, none) else (some .commit, true, some 16))
    else (some .void, false, some 0)

/-- What a scan gathers: the copy, the marks, whether a complete checkpoint was found, the highest SEQ, the mends and their
counters. -/
structure Scan where
  lkg : Option Lkg := none
  marks : FMap (Option Nat) := []
  ckpt : Bool := false
  seq : Option Nat := none
  mends : List (Nat × Mend) := []
  counts : List Nat := []
  deriving DecidableEq, Repr

/-- Take one record into the scan, in SEQ order. A record in BODY state uses up the SEQ after the one before it. -/
def scanRec (s : State) (m : Nat) (t : Scan) (a : Nat) : Scan :=
  let j := judgeRec s m a
  let st := recState s m a
  let seq := if st == .erased then t.seq
    else if st == .body then t.seq.map (· + 1)
    else some (max (memNat s m a 4) (t.seq.getD 0))
  let t := { t with seq := seq, mends := t.mends ++ (match j.1 with | some x => [(a, x)] | none => []),
                    counts := t.counts ++ (match j.2.2 with | some x => [x] | none => []) }
  if !j.2.1 then t
  else
    let typ := memNat s m (a + 4) 1
    let p := memBytes s m (a + 18) 38
    let k := memNat s m (a + 5) 1 / 16
    let put (mk : FMap (Option Nat)) (c v : Nat) : FMap (Option Nat) := fset (fun _ => none) mk c (some v)
    if typ = 1 ∨ typ = 3 then { t with lkg := some (lkgOf p), ckpt := t.ckpt || typ == 1 }
    else if typ = 2 then
      { t with marks := (List.range 19).foldl (fun mk j =>
          let c := 19 * (k - 1) + j
          if c < 64 then put mk c (natBE ((p.drop (2 * j)).take 2)) else mk) t.marks }
    else if typ = 4 then { t with marks := put t.marks (natBE (p.take 1)) (natBE ((p.drop 1).take 2)) }
    else t

/-- The newest unit of a ring: its record 0 valid with the highest SEQ. -/
def newestUnit (s : State) (m base units : Nat) : Option Nat :=
  (List.range units).foldl (fun b u =>
    let a := base + 4096 * u
    if !recValid s m a then b
    else match b with
      | some v => if memNat s m (base + 4096 * v) 4 < memNat s m a 4 then some u else b
      | none => some u) none

/-- The slot after the last record of a unit that is not ERASED. -/
def afterLast (s : State) (m a : Nat) : Nat :=
  (List.range 64).foldl (fun n i => if recState s m (a + 64 * i) == .erased then n else i + 1) 0

/-- Scan a ring: what was gathered, the head, and whether the head's unit holds a complete checkpoint. -/
def scanRing (s : State) (m base units : Nat) : Scan × (Nat × Nat) × Bool :=
  match newestUnit s m base units with
  | none => ({}, (0, 0), false)
  | some n =>
    let prev := if n = 0 then units - 1 else n - 1
    let addrs (u : Nat) : List Nat := (List.range 64).map (fun i => base + 4096 * u + 64 * i)
    let t := (addrs prev ++ addrs n).foldl (scanRec s m) {}
    let e := afterLast s m (base + 4096 * n)
    let whole := ((addrs n).foldl (scanRec s m) {}).ckpt
    if e < 64 then (t, (n, e), whole) else (t, (if n + 1 < units then n + 1 else 0, 0), false)

/-- Put what a scan found into the machine: the copy, the marks, JNL_BOOT, CKPTOK, the next SEQ. -/
def takeScan (s : State) (t : Scan) : State :=
  let s := { s with strap := { s.strap with lkg := t.lkg }, jwrite := { s.jwrite with marks := t.marks } }
  let s := s.setBit 0x3100 4 t.ckpt
  let s := forList t.counts (fun s lo => s.count 0x3108 lo 8) s
  let s := if t.counts.isEmpty then s else s.setBit 0x3109 4
  s.setReg 0x3103 (match t.seq with | some q => BitVec.ofNat 32 (q + 1) | none => 0#32)

/-- Use memory `m`, slot `slot`, with a ring; the journal is available (Table 16-4, code 8). -/
def useRing (s : State) (m slot base units : Nat) : State :=
  (((clearFault s 8).setFld 0x3100 0 2 m).setBit 0x3100 2 (slot == 1)).setReg 0x3101 (ofFields [(0, base / 4096), (16, units)])

/-- Claim slot `slot` of memory `m` with its default ring (R380): its sector is to be erased in flash, the header to be written, its
verification is awaited, and unit 0 is cleared before its checkpoint. -/
def claimSlot (s : State) (m slot : Nat) : State :=
  let r := defaultRing s m slot
  let s := (useRing s m slot r.1 r.2).setBit 0x3100 3
  let hdr := (if m = 1 then [JJob.clear (slotAddr s 1 slot) 0] else []) ++ [JJob.header slot r.1 r.2]
  let w := { s.jwrite with verify := some slot, jobs := hdr ++ [.clear r.1 0], ckpt := none, ckptDone := false }
  setHead { s with jwrite := w } 0 0

/-- The journal runs without memory (R380): fault 8 (Table 16-4). -/
def noSlot (s : State) : State :=
  raiseFault (((s.setFld 0x3100 0 2 0).setBit 0x3100 6).setBit 0x3109 3) 8

/-- A header waits to be written. -/
def headerDue (s : State) : Bool := s.jwrite.jobs.any (fun j => match j with | .header _ _ _ => true | _ => false)

/-- Write a claimed slot's header at once (R380); while PFI holds records back it waits among the writer's work (R120, R389). A slot whose
bytes, or whose ring's, are guarded cannot be claimed (R327). -/
def settleClaim (s : State) : State :=
  match s.jwrite.verify with
  | none => s
  | some slot =>
    if !headerDue s then s
    else if jGuarded s then
      noSlot ({ s with jwrite := { s.jwrite with jobs := [], verify := none } }.setBit 0x3100 3 false)
    else if pfiHolds s then s
    else
      let m := jMem s
      let s := if m = 1 then eraseFlash s (slotAddr s 1 slot) 4096 else s
      let s := putMem s m (slotAddr s m slot) (headerBytes m s.chip.uid (jBase s) (jUnits s))
      { s with jwrite := { s.jwrite with jobs := [.clear (jBase s) 0] } }

/-- The slot that holds this device's header. -/
def ownSlot (s : State) (m : Nat) : Option (Nat × Nat × Nat) :=
  match readHeader s m 0, readHeader s m 1 with
  | some (u, b, n), o => if u = s.chip.uid.toNat then some (0, b, n) else
      (match o with | some (v, b, n) => if v = s.chip.uid.toNat then some (1, b, n) else none | none => none)
  | none, some (v, b, n) => if v = s.chip.uid.toNat then some (1, b, n) else none
  | none, none => none

/-- The first slot without a valid header. -/
def freeSlot (s : State) (m : Nat) : Option Nat :=
  if (readHeader s m 0).isNone then some 0 else if (readHeader s m 1).isNone then some 1 else none

/-- The flash serves the journal: present, with a 4 KiB erase (R365). -/
def flashJournal (s : State) : Bool :=
  s.bit 0x3001 0 && (match s.ext.sfdp with | some (e, _) => e | none => true)

/-- The boot scan's journal part (R379–R381, R391, R392): the ring is found or claimed, scanned, and its mends are put to the
writer, to be made after step 9 together with the clearing of the next unit. -/
def scanJournal (s : State) : State :=
  let m := if s.bit 0x3001 1 then 2 else if flashJournal s then 1 else 0
  if m = 0 then noSlot s
  else match ownSlot s m with
    | some (slot, base, units) =>
      let r := scanRing s m base units
      let s := takeScan (useRing s m slot base units) r.1
      let s := setHead s r.2.1.1 r.2.1.2
      -- the unit after the newest one; it is the head's own where the newest is full, or where none was found
      let clear := JJob.clear (recAddr s (if r.2.1.2 = 0 then jUnit s else nextUnit s) 0) 0
      { s with jwrite := { s.jwrite with jobs := r.1.mends.map (fun e => JJob.mend e.1 e.2) ++ [clear], ckptDone := r.2.2 } }
    | none =>
      let s := if m = 2 && flashJournal s then
          (match ownSlot s 1 with
           | some (_, b, u) => takeScan s (scanRing s 1 b u).1
           | none => s)
        else s
      match freeSlot s m with
      | some slot => claimSlot s m slot
      | none => noSlot s

/-- JOURNAL_CLAIM_VERIFY (R380): 10 ms after a claim's header was written it is read again; where it shows the UID of another device, the
other slot is tried. -/
def execJournalClaimVerify (uid : BitVec 64) (s : State) : Res :=
  match s.jwrite.verify with
  | none => .next s
  | some slot =>
    if headerDue s then .next s else
    let s := { s with jwrite := { s.jwrite with verify := none } }
    if uid = s.chip.uid then .next s
    else
      let m := jMem s
      let r := defaultRing s m slot
      let s := putMem (if m = 1 then eraseFlash s (slotAddr s 1 slot) 4096 else s) m (slotAddr s m slot) (headerBytes m uid r.1 r.2)
      .next (if slot = 0 ∧ (readHeader s m 1).isNone then settleClaim (claimSlot s m 1)
        else if slot = 1 ∧ (readHeader s m 0).isNone then settleClaim (claimSlot s m 0)
        else noSlot { s with jwrite := { s.jwrite with jobs := [] } })

end Sys2Proof.Machine
end

