-- ==== Sys2Proof/Machine/Memory.lean ====
section
/-! DEFINITION. Sys2Proof/Machine/Memory.lean: the memory port: its arbiter, its entries, collisions, the flash's busy times,
host entries and the extension chain's cycles (R360–R378). -/
namespace Sys2Proof.Machine

/-! ## The arbiter (R369, R371) -/

/-- The kinds in the arbiter's order, with the entry each waiting kind has. -/
def waitingKinds (s : State) : List (Option MemKind) :=
  [if wantSecond s then some .second else none,
   s.mem.fills.head?.map .xip,
   if wantFirst s then some .first else none,
   if s.mem.imageReq && !loadWaits s then some .image else none,
   if s.mem.chainReq then some .chain else none,
   if s.mem.hostReq then some .host else none,
   if (wantErase s).isSome then some .erase else none]

/-- The position of a kind in the arbiter's order. -/
def kindPos : MemKind → Nat
  | .second => 0 | .xip _ => 1 | .first => 2 | .image => 3 | .chain => 4 | .host => 5 | .erase => 6

/-- The memory that an entry goes to: 1 flash, 2 FRAM, 0 none (a chain cycle). -/
def kindMem (s : State) : MemKind → Nat
  | .second => jMem s | .xip _ => 1 | .first => jMem s | .image => 1 | .chain => 0
  | .host => if s.bit 0x3008 8 then 2 else 1 | .erase => 1

/-- An entry may run now: while the flash programs or erases no entry to it runs, but that an erase with suspend lets XIP
fills and the journal's phases pass (R371). -/
def mayRun (s : State) (k : MemKind) : Bool :=
  kindMem s k != 1 ||
    (!s.mem.progBusy && (s.mem.erasing.isNone ||
      (s.bit 0x3001 3 && (match k with | .xip _ => true | .first => true | .second => true | _ => false))))

/-- The entry served next: the one that collided; else one passed over 64 times; else the first in order. -/
def chooseEntry (s : State) : Option MemKind :=
  match s.mem.again with
  | some k => if mayRun s k then some k else none
  | none =>
    let l := (waitingKinds s).filterMap (fun o => o.filter (mayRun s))
    match l.find? (fun k => decide (64 ≤ (s.mem.passed[kindPos k]?).getD 0)) with
    | some k => some k
    | none => l.head?

/-- How long both selects must have been high before an entry starts, in MEM cycles (R372): the strap address decides, or the UID where
that is 0x000. -/
def startDelay (s : State) : Nat :=
  let a := s.fld 0x105 16 12
  32 + 16 * (if a = 0 then s.chip.uid.toNat % 2 else a % 2)

/-- MEMORY_ENTRY_START (R96, R369, R370, R372): the selects are sensed: `other` says that one reads low, `high` for how many MEM cycles
both have been high. After the delay of R372 the device asserts the select of the next entry; a park ends, but for a fill that follows
directly on the last byte read. Entries passed over are counted. -/
def execMemoryEntryStart (s : State) (other : Bool := false) (high : BitVec 8 := 0xFF#8) : Res :=
  if s.mem.active.isSome || s.power.relock || s.power.st == .dormant || !s.boot.memUp then .next s
  else
  let s := { s with mem := { s.mem with other := other } }
  if other || decide (high.toNat < startDelay s) then .next s
  else match chooseEntry s with
    | none => .next s
    | some k =>
      let w := (waitingKinds s).map Option.isSome
      let passed := (List.range 7).map (fun i =>
        if i = kindPos k then 0 else if (w[i]?).getD false then (s.mem.passed[i]?).getD 0 + 1 else 0)
      let fills := match k with | .xip la => s.mem.fills.filter (· != la) | _ => s.mem.fills
      .next { s with mem := { s.mem with active := some k, again := none, passed := passed, fills := fills, parked := none } }

/-- The period of MSCK in MEM cycles (R360): 8 from step 5 to step 8, 64 in a chain cycle, else as MEM_CFG.DIV selects. -/
def msckPeriod (s : State) : Nat :=
  if s.mem.active == some .chain then 64 else if !s.boot.mantled then 8 else 2 * (s.fld 0x3000 0 2 + 1)

/-- The entry that runs has ended. -/
def endEntry (s : State) : State := { s with mem := { s.mem with active := none, colls := 0 } }

/-! ## XIP fills (R320, R321, R370) -/

/-- XIP_FILL_DONE: `r` is 0 for a line read whole, 1 for a fill reported failed, 2 for a parity error. MSEL0_N stays asserted
where no other entry waits and PARK is not 0. -/
def execXipFillDone (r : Fin 3) (s : State) : Res :=
  match s.mem.active with
  | some (.xip la) =>
    let s := fillDone (endEntry s) la r
    let park := s.fld 0x3000 16 8 != 0 && (waitingKinds s).all Option.isNone && r.val != 1
    .next { s with mem := { s.mem with parked := if park then some (32 * la + 32) else none } }
  | _ => .next s

/-- PARK_EXPIRY. -/
def execParkExpiry (s : State) : Res := .next { s with mem := { s.mem with parked := none } }

/-! ## Host entries (R374, R375) -/

/-- Descriptor `j` (MEM_HDESC): width in bytes, in, continue. -/
def hdesc (s : State) (j : Nat) : Nat × Bool × Bool :=
  let d := getF (s.reg (0x3009 + j / 8)) (4 * (j % 8)) 4
  (d % 4 + 1, d.testBit 2, d.testBit 3)

/-- One word of a select period: its index, its bytes, in or out. -/
structure HWord where
  idx : Nat
  bytes : Nat
  input : Bool
  deriving DecidableEq, Repr

/-- The select periods of the host entry (R362): a word whose continue flag is clear ends its period. -/
def hostPeriods (s : State) : List (List HWord) :=
  let n := s.fld 0x3008 0 6
  let r := (List.range n).foldl (fun (t : List (List HWord) × List HWord) j =>
    let d := hdesc s j
    let cur := t.2 ++ [⟨j, d.1, d.2.1⟩]
    if d.2.2 && decide (j + 1 < n) then (t.1, cur) else (t.1 ++ [cur], [])) ([], [])
  r.1

/-- The bytes of an out-word: its top width bits, most significant byte first. -/
def outBytes (s : State) (w : HWord) : List Byte := (wordBytes (s.reg (0x3010 + w.idx))).take w.bytes

/-- A select period begins with a command that is refused (R375). `flash` is true for MSEL0_N. -/
def periodRefused (s : State) (flash : Bool) (p : List HWord) : Bool :=
  match p.find? (fun w => !w.input) with
  | none => false
  | some w =>
    let bs := outBytes s w
    let cmd := ((bs[0]?).getD 0#8).toNat
    let narrow := decide (w.bytes < 4)
    let addr := if flash then natBE ((bs.drop 1).take 3) else natBE ((bs.drop 1).take 2)
    let m := if flash then 1 else 2
    let mine := jMem s == m
    let inRing := mine && (overlap addr 1 (jBase s) (4096 * jUnits s) ||
      [0, 1].any (fun k => overlap addr 1 (slotAddr s m k) (slotSize m)))
    let inImages := authReq s && (decide (addr < 0x40000) || inXipSection s addr)
    let writes := if flash then cmd == 0x02 || cmd == 0x20 || cmd == 0x52 || cmd == 0xD8 else cmd == 0x02
    cmd == 0xC7 || cmd == 0x60 || cmd == 0x01 ||
    (writes && (if narrow then mine || (flash && authReq s) else inRing || (flash && inImages)))

/-- The host entry is refused (R375). -/
def hostRefused (s : State) : Bool := (hostPeriods s).any (periodRefused s (!s.bit 0x3008 8))

/-- GO (R374, R375): ignored while an entry waits or runs; DONE, REFUSED and ABORTED clear; the entry is refused or queued. -/
def doMemGo (s : State) : State :=
  if s.bit 0x3030 1 then s
  else
    let s := s.setReg 0x3030 0#32
    if hostRefused s then (s.setBit 0x3030 2).setBit 0x3034 2
    else { s.setBit 0x3030 1 with mem := { s.mem with hostReq := true } }
def execGo (s : State) : Res := .next (viaHost s (fun s => doMemGo s))

/-- What memory `m` answers at byte position `p` of a select period whose out-bytes begin with `cmd`, where the device's
memories define it: reads at an address (Table 11-1; PRESUMED from the JEDEC commands, log entry 25). -/
def answerByte (s : State) (m cmd addr p : Nat) : Option Byte :=
  let alen := if m = 2 then 2 else 3
  let fitted := if m = 2 then s.ext.framFitted else s.ext.flashFitted
  if !fitted then none
  else if cmd = 0x03 ∧ 1 + alen ≤ p then some (memByte s m (addr + p - 1 - alen))
  else if cmd = 0x0B ∧ m = 1 ∧ 5 ≤ p then some (memByte s 1 (addr + p - 5))
  else if cmd = 0x9F ∧ 1 ≤ p ∧ p ≤ 3 then some (BitVec.ofNat 8 ((if m = 2 then s.ext.framId else s.ext.flashId) / 2 ^ (8 * (3 - p))))
  else none

/-- The effect of a write command of a select period on memory `m` at its release (PRESUMED, log entry 25). -/
def periodWrites (s : State) (m cmd addr : Nat) (dat : List Byte) : State :=
  let wel := if m = 2 then s.mem.wel1 else s.mem.wel0
  let setWel (s : State) (b : Bool) : State :=
    { s with mem := if m = 2 then { s.mem with wel1 := b } else { s.mem with wel0 := b } }
  let eop := s.fld 0x3002 16 8
  if cmd = 0x06 then setWel s true
  else if cmd = 0x04 then setWel s false
  else if !wel then s
  else if m = 2 then (if cmd = 0x02 then setWel (putMem s 2 addr dat) false else s)
  else if cmd = 0x02 then
    let page := 2 ^ s.fld 0x3002 8 4
    let put := (dat.zip (List.range dat.length)).foldl (fun s e =>
      putMemByte s 1 (addr / page * page + (addr + e.2) % page) e.1) s
    setWel put false
  else if cmd = eop ∨ cmd = 0x20 then setWel (eraseFlash s (addr / 4096 * 4096) 4096) false
  else if cmd = 0x52 then setWel (eraseFlash s (addr / 32768 * 32768) 32768) false
  else if cmd = 0xD8 then setWel (eraseFlash s (addr / 65536 * 65536) 65536) false
  else s

/-- The bytes that the device drives in a select period: its out-words up to the first in-word, after which it drives MSIO no more until
the select is released (R361). -/
def drivenBytes (s : State) (p : List HWord) : List Byte := (p.takeWhile (fun w => !w.input)).flatMap (outBytes s)

/-- Run one select period; `din` gives what the wire showed in each word's place, used where the memories do not define it. -/
def runPeriod (m : Nat) (din : List Word) (s : State) (p : List HWord) : State :=
  let outs := drivenBytes s p
  let cmd := ((outs[0]?).getD 0xFF#8).toNat
  let addr := if m = 2 then natBE ((outs.drop 1).take 2) else natBE ((outs.drop 1).take 3)
  let dat := outs.drop (if m = 2 then 3 else 4)
  let r := p.foldl (fun (t : Nat × State) w =>
    if w.input then
      let seen : Word := (din[w.idx]?).getD 0#32
      let bs := (List.range w.bytes).map (fun j =>
        (answerByte s m cmd addr (t.1 + j)).getD (BitVec.ofNat 8 (seen.toNat / 2 ^ (8 * (w.bytes - 1 - j)))))
      (t.1 + w.bytes, t.2.setReg (0x3010 + w.idx) (BitVec.ofNat 32 (natBE bs)))
    else (t.1 + w.bytes, t.2)) (0, s)
  periodWrites r.2 m cmd addr dat

/-- The host entry runs (R362, R374). It is judged again before it runs, on the words as they stand now (R375). -/
def runHostEntry (s : State) (din : List Word) : State :=
  let m := if s.bit 0x3008 8 then 2 else 1
  let s := { s with mem := { s.mem with hostReq := false } }
  if hostRefused s then (s.setReg 0x3030 4#32).setBit 0x3034 2
  else (((hostPeriods s).foldl (runPeriod m din) s).setReg 0x3030 1#32).setBit 0x3034 1

/-! ## Entries end (R362, R369, R376–R378) -/

/-- The output bits of a chain cycle, output bit 0 first: bit (31 − j) of MEM_CHOUTk for output bit 32k + j (R376). -/
def chainBits (s : State) : List Bool :=
  (List.range (min 256 (s.fld 0x3031 0 9))).map (fun j => (s.reg (0x3040 + j / 32)).getMsbD (j % 32))

/-- A chain cycle has run: the 256 input bits, bit (31 − j) of word k for input bit 32k + j (R378). -/
def chainDone (s : State) (din : List Word) : State :=
  let s := forEach 8 (fun s k => s.setReg (0x3038 + k) ((din[k]?).getD 0#32)) s
  { s with mem := { s.mem with chainReq := false } }.setBit 0x3034 4

/-- One chain cycle (R376): the strobe latches what the cycle before shifted out, or in the first cycle after a reset the OUTLEN zero bits
driven before it (R377); the input bits are read; the output bits are shifted out. -/
def chainCycle (s : State) (din : List Word) : State :=
  let out := chainBits s
  let latched := if s.mem.chainRan then s.mem.chainShift else List.replicate out.length false
  chainDone { s with mem := { s.mem with chainRan := true, chainShift := out, chainOut := latched } } din

/-- MEM_ENTRY_DONE: the entry that runs ends and its owner receives its data. `din` is what the wire showed: the input bits of
a chain cycle, the in-words of a host entry. A fill ends by XIP_FILL_DONE. -/
def execMemEntryDone (din : List Word) (s : State) : Res :=
  if s.power.relock then .next s
  else match s.mem.active with
  | none => .next s
  | some (.xip _) => .next s
  | some .second => .next (if wantSecond s then secondPhase (endEntry s) else endEntry s)
  | some .first => .next (if wantFirst s then firstPhase (endEntry s) else endEntry s)
  | some .image => .next (endEntry s)
  | some .chain => .next (chainCycle (endEntry s) din)
  | some .host => .next (runHostEntry (endEntry s) din)
  | some .erase =>
    let a := wantErase s
    let s := endEntry s
    .next { s with mem := { s.mem with erasing := a } }

/-! ## The flash's busy times (R367, R368) -/

/-- FLASH_STATUS_POLL: `busy` is what the status shows. A program has ended, or an erase, whose sector is clear then. A poll is an entry
to the flash, so none runs beside the entry in progress (R369). -/
def execFlashStatusPoll (busy : Bool) (s : State) : Res :=
  if busy || s.power.relock || s.mem.active.isSome then .next s
  else if s.mem.progBusy then .next { s with mem := { s.mem with progBusy := false } }
  else match s.mem.erasing with
    | some a => .next (erased s a)
    | none => .next s

/-- FLASH_BUSY_TIMEOUT (R368): BUSYTO, a flash-busy record with the operation (0 program, 1 erase) and the time in ms, and the
journal waits 1 s for its retry. -/
def execFlashBusyTimeout (s : State) : Res :=
  let op : Option (FlashOp × Nat × Nat) :=
    if s.mem.progBusy then some (.program, 0, 5) else if s.mem.erasing.isSome then some (.erase, 1, 2000) else none
  match op with
  | none => .next s
  | some (o, code, ms) =>
    if s.mem.retry.isSome then .next s
    else
      let s := { s with mem := { s.mem with retry := some o } }
      .next (journal (s.setBit 0x3034 3) 0x61 (srcOf 7 3) (BitVec.ofNat 8 code :: bytesBE 2 ms))

/-- FLASH_RETRY (R368): 1 s later the operation runs again. -/
def execFlashRetry (s : State) : Res :=
  match s.mem.retry with
  | some .program => .next { s with mem := { s.mem with retry := none, progBusy := true } }
  | some .erase => .next { s with mem := { s.mem with retry := none, erasing := none } }
  | none => .next s

/-! ## Collisions (R373) -/

/-- The first command byte of an entry: a read of flash, a write enable, the host's own; a chain cycle has none. -/
def firstCommand (s : State) : MemKind → Nat
  | .xip _ => 0x0B
  | .image => 0x0B
  | .chain => 0
  | .host =>
    match (hostPeriods s).flatten.find? (fun w => !w.input) with
    | some w => (((outBytes s w)[0]?).getD 0#8).toNat
    | none => 0
  | _ => 0x06

/-- A collision is counted: COUNT, COLL, its time; the other master holds its select. -/
def noteCollision (s : State) : State :=
  let s := (s.count 0x3048 0 16).setBit 0x3034 0
  { s with mem := { s.mem with collTime := s.now, other := true } }

/-- MEM_COLLISION: the device stops and lets go; COUNT, COLL; the entry is retried, and abandoned after 8 in a row, its owner
receiving a failure. A parked port masters MSEL0_N with no entry running: it only lets go. -/
def execMemCollision (s : State) : Res :=
  match s.mem.active with
  | none => .next (if s.mem.parked.isSome then
      let s := noteCollision s
      { s with mem := { s.mem with parked := none } } else s)
  | some k =>
    let s := noteCollision s
    let s := { s with mem := { s.mem with colls := s.mem.colls + 1 } }
    if s.mem.colls < 8 then .next { s with mem := { s.mem with active := none, again := some k } }
    else
      let sel := if kindMem s k = 1 then 0 else 1
      let s := journal (s.count 0x3048 16 16) 0x60 (srcOf 7 (3 + sel)) [BitVec.ofNat 8 sel, BitVec.ofNat 8 (firstCommand s k)]
      let s := endEntry s
      .next (match k with
        | .xip la => fillDone s la 1
        | .host => { s with mem := { s.mem with hostReq := false } }.setReg 0x3030 8#32
        | .chain => { s with mem := { s.mem with chainReq := false } }
        | _ => s)

/-! ## Chain cycles and counters -/

/-- CHAINGO (R378): after start-up, while PERIOD is 0. -/
def doChaingo (s : State) : State :=
  if s.fld 0x3031 16 8 = 0 ∧ s.boot.live then { s with mem := { s.mem with chainReq := true } } else s
def execChaingo (s : State) : Res := .next (viaHost s (fun s => doChaingo s))
/-- CHAIN_PERIOD_EXPIRY (R378): after start-up, while PERIOD is not 0. -/
def execChainPeriodExpiry (s : State) : Res :=
  if s.fld 0x3031 16 8 ≠ 0 ∧ s.boot.live then .next { s with mem := { s.mem with chainReq := true } } else .next s
/-- MEM_CLRCNT: zero MEM_COLL. -/
def doMemClrcnt (s : State) : State := s.setReg 0x3048 0#32
def execMemClrcnt (s : State) : Res := .next (viaHost s (fun s => doMemClrcnt s))

/-! ## Identification (R364, R365) -/

/-- Identify the attached memories: MEM_STAT, MEM_FLASH, MEM_ID, MEM_FRAMID. -/
def identify (s : State) : State :=
  let e := s.ext
  let id := e.flashId
  let n := id % 256
  let flash : Option (Nat × Nat × Nat × Bool × Bool) :=
    if !e.flashFitted then none
    else match e.sfdp with
      | some (erase, op, four, dens, page, susp) =>
        if four then none else some (min dens 24, page, if erase then op.toNat else 0, true, susp)
      | none => if 17 ≤ n ∧ n ≤ 24 then some (n, 8, 0x20, false, false) else none
  let first := e.framId / 2 ^ 16 % 256
  let fram := e.framFitted && e.framId == e.framAgain && first != 0 && first != 0xFF
  let s := match flash with
    | some (d, p, op, sf, su) =>
      ((((s.setBit 0x3001 0).setBit 0x3001 2 sf).setBit 0x3001 3 su).setReg 0x3002 (ofFields [(0, d), (8, p), (16, op)])).setReg 0x3003
        (BitVec.ofNat 32 id)
    | none => s
  if fram then (s.setBit 0x3001 1).setReg 0x3004 (BitVec.ofNat 32 e.framId) else s

/-- Attach the memories that a start-up finds. -/
def attach (s : State) (f : MemFit) : State :=
  let put (l : List (Nat × Byte)) (lim : Nat) : FMap Byte :=
    l.foldl (fun m e => if e.1 < lim then fset (fun _ => 0xFF#8) m e.1 e.2 else m) []
  { s with ext := { flashFitted := f.flash, framFitted := f.fram, flashId := f.flashId.toNat, framId := f.framId.toNat, framAgain := f.framAgain.toNat,
                    sfdp := f.sfdp, flash := put f.flashData (2 ^ 24), fram := put f.framData 65536 } }

end Sys2Proof.Machine
end

