-- ==== Sys2Proof/Machine/Power.lean ====
section
/-! DEFINITION. Sys2Proof/Machine/Power.lean: supply, reset, the strap passes and the first steps of start-up
(chapters 2, 3 and 4), and the power states' strobes. -/
namespace Sys2Proof.Machine

/-! ## Resets (R113–R116) -/

/-- The PLL stops: the count lives in HOLD, and LOCKED is reported as HOLDOVER from that moment (R524, R525). -/
def holdTakes (h : Hold) : Hold :=
  { h with inTime := false, quality := if h.quality == .locked then .holdover else h.quality,
           holdStart := if h.quality == .locked then h.count else h.holdStart }

/-- The words whose reset value has one bit per port: the bits of absent ports are 0 (R578). -/
def gradeRegs (grade : Nat) : FMap Word :=
  [0x203, 0x309].foldl (fun m a => fset resetWord m a (resetWord a &&& ~~~ BitVec.ofNat 32 (65536 - 2 ^ grade))) []

/-- Reset is asserted: until its release, and while the ROOT start is retried (R104). -/
def inReset (s : State) : Bool := !s.boot.started || s.boot.retrying

/-- Assert reset for `cause` (R113, R114): every register, cell memory, instruction RAM and all context state are
cleared; the HOLD domain, OTP and the external memories survive. A cause that comes while reset is asserted, which it still is
while the ROOT start is retried (R104), extends it and the sequence starts again, but the first cause is the one reported, and a
brownout reset stays one. HSEL_N stays as the host drives it; the frame it belongs to is lost (R430). -/
def assertReset (s : State) (cause : Nat) : State :=
  let first := !inReset s
  let h := holdTakes s.hold
  { pending := s.pending, chip := s.chip, fresh := s.fresh, ext := s.ext,
    host := { selected := s.host.selected, early := s.host.selected },
    regs := gradeRegs s.chip.grade, shadow := gradeRegs s.chip.grade,
    hold := if first then { h with resets := satInc 16 h.resets } else h,
    boot := { brownout := !first && s.boot.brownout },
    power := { st := if s.power.low then .off else .run, low := s.power.low, released := s.power.released, pinLow := s.power.pinLow, batOk := s.power.batOk,
               pfiLow := s.power.pfiLow, vlow := s.power.vlow, cause := if first then cause else s.power.cause } }

/-- Reset for `cause`; `same` says that it came in the SUPV cycle in which reset was asserted: of such causes the lowest code is
reported (R114). -/
def coincidentReset (s : State) (cause : Nat) (same : Bool) : State :=
  let t := assertReset s cause
  if same && inReset s then { t with power := { t.power with cause := min t.power.cause cause } } else t

/-- The supply monitor's reset: OFF (R115, R122). -/
def supplyReset (s : State) (same : Bool) : State :=
  let t := coincidentReset s 0 same
  { t with power := { t.power with low := true, released := false, st := .off } }

/-- SUPPLY_BELOW_BROWNOUT (R115). -/
def execSupplyBelow (s : State) (same : Bool := false) : Res := .next (supplyReset s same)

/-- An outage of VDDIO (R84, R115): the HOLD domain records it where it is powered from VBAT; with the battery absent it
loses its power, and with it the run marker, the validity marker and everything it kept. -/
def execVddioOutage (s : State) : Res :=
  .next { s with hold := if s.power.batOk then { s.hold with outage := true } else {} }

/-- HOLD_SWITCHOVER (R83): the HOLD domain draws from the other supply; the time count is not disturbed. -/
def execHoldSwitchover (toVbat : Bool) (s : State) : Res := .next { s with hold := { s.hold with onVbat := toVbat } }

/-- VDDIO rises above the brownout rising threshold: the device leaves OFF and the 1 ms count starts (R115, R129). -/
def execSupplyAbove (s : State) : Res :=
  if s.power.low then .next { s with power := { s.power with low := false, released := false, st := .run } } else .next s

/-- POWER_ON_RELEASE (R115, R116): the supply monitor releases its reset. `bat` says that VBAT is at 1.8 V or above and
not tied to VDDIO (R84), `xtal` that the HOLD oscillator has its crystal, without which the battery counts as absent (R93); `kept`
that the HOLD domain kept power (R525). A supply monitor reset is a brownout reset when
the run marker is intact and no outage came since; the HOLD domain counts brownout resets and keeps their times, and
three within 600 s make the supply fault active (R550). -/
def execPowerOnRelease (bat kept : Bool) (s : State) (xtal : Bool := true) : Res :=
  if s.power.low || s.power.released then .next s
  else
    let h := if kept then s.hold else {}
    let supply := decide (s.power.cause ≤ 1)
    let brown := supply && h.runMarker && !h.outage
    let h := if brown then { h with brown := satInc 16 h.brown, brownTimes := (h.brownTimes ++ [h.count]).drop (h.brownTimes.length - 2) }
             else h
    let s := { s with hold := h,
                      power := { s.power with released := true, batOk := bat && xtal, cause := if supply then b2n brown else s.power.cause },
                      boot := { s.boot with brownout := brown } }
    let recent := h.brownTimes.filter (fun t => withinSeconds 600 t h.count)
    .next (if brown && decide (3 ≤ recent.length) then
        journal (raiseFault s 2) 0x24 0 (bytesBE 2 h.brown) else s)

/-- PIN_RESET (R89, R113): cause 2. In OFF the device stays in OFF (R122, R129). -/
def execPinReset (s : State) (same : Bool := false) : Res :=
  let t := coincidentReset s 2 same
  .next { t with power := { t.power with pinLow := true } }

/-- RESET_RELEASE (R40, R76, R100): the strap first pass begins with AUX sample 1, and the ROOT oscillator is enabled. A
high TMODE enters factory test: no straps are read and no port starts. -/
def execResetRelease (tmode : Bool) (aux : BitVec 8) (s : State) : Res :=
  if s.power.low || !s.power.released || s.boot.started then .next s
  else
    let s := { s with power := { s.power with pinLow := false }, boot := { s.boot with started := true, factory := tmode } }
    .next (if tmode then s else { s with strap := { s.strap with auxSamples := [aux], auxPins := aux } })

/-! ## Strap levels (Table 2-1, R38–R42, R45) -/

/-- The windows of Table 2-1: low end, high end, nominal voltage, in mV. Level 15 has no upper limit. -/
def levelTable : List (Nat × Nat × Nat) :=
  [(0, 40, 0), (111, 138, 125), (233, 266, 250), (355, 395, 375), (477, 523, 500), (594, 646, 620), (721, 779, 750),
   (838, 902, 870), (965, 1035, 1000), (1091, 1169, 1130), (1203, 1287, 1245), (1325, 1415, 1370), (1457, 1553, 1505),
   (1569, 1671, 1620), (1686, 1794, 1740), (1900, 4095, 2000)]

/-- The level whose window holds a reading, if any (R38). -/
def levelOf (mv : Nat) : Option Nat :=
  (List.range 16).find? (fun l => match levelTable[l]? with | some (a, b, _) => decide (a ≤ mv) && decide (mv ≤ b) | none => false)

/-- The lower candidate of a boundary reading: the highest level whose window ends below it (R45). -/
def lowerCand (mv : Nat) : Nat :=
  (List.range 16).foldl (fun m l => match levelTable[l]? with | some (_, b, _) => if b < mv then l else m | none => m) 0

/-- The nominal voltage of a level. -/
def nominal (l : Nat) : Nat := match levelTable[l]? with | some (_, _, n) => n | none => 0

/-- The nearer of two neighbouring levels to a reading, the lower on a tie (R45). -/
def nearerLevel (mv : Nat) : Nat :=
  let a := lowerCand mv
  if mv - nominal a ≤ nominal (a + 1) - mv then a else a + 1

/-- Settle a reading (R41, R45): its level, and whether the boundary rule applied. -/
def settleLevel (mv : Nat) (lkg : Option Nat) : Nat × Bool :=
  match levelOf mv with
  | some l => (l, false)
  | none =>
    let a := lowerCand mv
    match lkg with
    | some k => if k == a || k == a + 1 then (k, true) else (nearerLevel mv, true)
    | none => (nearerLevel mv, true)

/-- The value an AUX pin takes from six samples, and whether it was unstable (R42). -/
def auxSettle (samples : List (BitVec 8)) (pin : Nat) : Bool × Bool :=
  let ones := (samples.filter (fun b => b.getLsbD pin)).length
  (decide (4 ≤ ones), decide (ones = 3))

/-- The AUX bits after the sixth slot: settled value and unstable mask. -/
def auxLatch (samples : List (BitVec 8)) : Nat × Nat :=
  (wordOfBits ((List.range 8).map (fun p => (auxSettle samples p).1)),
   wordOfBits ((List.range 8).map (fun p => (auxSettle samples p).2)))

/-- Latch the provisional readings in STR_RAW_AB to STR_RAW_EF and STR_FLAGS (R40). -/
def latchStraps (s : State) : State :=
  let r (k : Nat) : Nat := (s.strap.mv[k]?).getD 0
  let bound := wordOfBits ((List.range 6).map (fun k => (levelOf (r k)).isNone))
  let s := (s.setFld 0x101 16 12 (r 0)).setFld 0x101 0 12 (r 1)
  let s := (s.setFld 0x102 16 12 (r 2)).setFld 0x102 0 12 (r 3)
  let s := (s.setFld 0x103 16 12 (r 4)).setFld 0x103 0 12 (r 5)
  let s := (s.setFld 0x104 0 6 bound).setBit 0x104 24 (s.strap.auxUnst != 0)
  let s := s.setBit 0x104 27 s.boot.brownout
  { s with boot := { s.boot with strapped := true } }

/-- A pin's reading: the mean of its eight conversions (R38), cut to whole mV (DEDUCED, log entry 51). -/
def meanOf (c : Conversions) : Nat := (c.take 8).foldl (fun t v => t + v.toNat) 0 / 8

/-- STRAP_SLOT_END (R38, R40–R42): the conversions of the slot's pin; the next AUX sample; after the sixth slot the AUX bits are
settled and the pins with a boundary reading are measured again; after the last slot the readings are latched. -/
def execStrapSlotEnd (conv : Conversions) (aux : BitVec 8) (s : State) : Res :=
  let mv := meanOf conv
  if !s.boot.started || s.boot.strapped || s.boot.factory then .next s
  else
    let st := s.strap
    if st.slot < 6 then
      let mvs := listSet st.mv st.slot mv
      if st.slot < 5 then
        .next { s with strap := { st with mv := mvs, slot := st.slot + 1, auxSamples := st.auxSamples ++ [aux], auxPins := aux } }
      else
        let a := auxLatch st.auxSamples
        let again := (List.range 6).filter (fun k => (levelOf ((mvs[k]?).getD 0)).isNone)
        let s := { s with strap := { st with mv := mvs, slot := 6, aux := a.1, auxUnst := a.2, again := again } }
        .next (if again.isEmpty then latchStraps s else s)
    else match st.again with
      | [] => .next s
      | k :: t =>
        let s := { s with strap := { st with mv := listSet st.mv k mv, again := t } }
        .next (if t.isEmpty then latchStraps s else s)

/-! ## ROOT and PLL at start-up (R100–R104) -/

/-- ROOT_VALID: 4096 good ROOT cycles counted; the PLL is started (R100, R101). In DORMANT ROOT is stopped until a wake (R122). -/
def execRootValid (s : State) : Res :=
  if s.boot.started && (s.power.st != .dormant || s.power.waking) then .next (s.setBit 0x200 0) else .next s

/-- ROOT_START_RETRY (R104, R567): the device stays in reset, the oscillator is restarted, the root-clock fault shows. -/
def execRootStartRetry (s : State) : Res :=
  if s.boot.started && !s.boot.hostUp then
    let s := { s with boot := { s.boot with retrying := true, retries := s.boot.retries + 1 } }
    .next (raiseFault ((s.setBit 0x200 0 false).setBit 0x200 1 false) 1)
  else .next s

/-- HOLD_HANDOVER (R524, R525): at a HOLD tick the count passes to TIME where the PLL is locked, else to HOLD, with at most
one TIME tick of error: `err` is 0, 1 or 2 for one tick less, none, one tick more. Where the validity marker is lost the
count starts at zero with quality UNSET. -/
def execHoldHandover (err : Fin 3) (s : State) : Res :=
  let tick : Nat := 2 ^ 32 / 1024000
  if s.bit 0x200 1 then
    if s.hold.inTime then .next s
    else if s.hold.valid then
      let c := (s.hold.count.toNat + tick * err.val - tick)
      .next { s with hold := { s.hold with inTime := true, count := BitVec.ofNat 80 c } }
    else
      .next { s with hold := { s.hold with inTime := true, valid := true, count := 0#80, rem := 0, quality := .unset, stratum := 15 } }
  else .next { s with hold := holdTakes s.hold }

/-! ## Strobes of CLK_CTL (R113, R125) -/

/-- RSTARM: arm the software reset for 64 µs. -/
def doRstarm (s : State) : State := { s with power := { s.power with rstArmed := true } }
def execRstarm (s : State) : Res := .next (viaHost s (fun s => doRstarm s))
/-- RSTARM_EXPIRY: the window ends. -/
def execRstarmExpiry (s : State) : Res := .next { s with power := { s.power with rstArmed := false } }
/-- RSTGO: a software reset while armed (cause 4); ignored otherwise. -/
def doRstgo (s : State) : State := if s.power.rstArmed then assertReset s 4 else s
def execRstgo (s : State) : Res := .next (viaHost s (fun s => doRstgo s))
/-- CLOCK_FAIL_RESET (R103): cause 5. -/
def execClockFailReset (s : State) : Res := if s.power.relock then .next (assertReset s 5) else .next s
/-- DORMANT: the request is pending in CLK_STAT.DREQ (R125). -/
def doDormant (s : State) : State := s.setBit 0x200 4
def execDormant (s : State) : Res := .next (viaHost s (fun s => doDormant s))
/-- DCANCEL cancels a pending request (R125). -/
def doDcancel (s : State) : State := s.setBit 0x200 4 false
def execDcancel (s : State) : Res := .next (viaHost s (fun s => doDcancel s))

/-! ## Power-fail input (R120, R389, R554) -/

/-- PFI_FALL: SUP_EVT.PFI, JNL_STAT.PFI, and a power-dip record is staged; it waits while PFI_N is low. -/
def execPfiFall (s : State) : Res :=
  let s := { s with power := { s.power with pfiLow := true, pfiWait := false } }
  .next (journal ((s.setBit 0x302 4).setBit 0x3100 5) 0x27 0 [])
/-- PFI_RISE: JNL_STAT.PFI clears and the 10 ms count begins. `us` is how long PFI_N was low, in µs: the payload of the
staged power-dip record. -/
def execPfiRise (us : BitVec 32) (s : State) : Res :=
  if s.power.pfiLow then
    let fix (r : JRec) : JRec := if r.typ == 0x27 && r.payload.isEmpty then { r with payload := bytesBE 4 us.toNat } else r
    let s := { s with power := { s.power with pfiLow := false, pfiWait := true },
                      jnl := { s.jnl with staged := s.jnl.staged.map (fun (e : JRec × Nat) => (fix e.1, e.2)), waiting := s.jnl.waiting.map fix } }
    .next (s.setBit 0x3100 5 false)
  else .next s
/-- PFI_RECOVER: PFI_N has been high for 10 ms; deferred and staged records may be written. -/
def execPfiRecover (s : State) : Res := .next { s with power := { s.power with pfiWait := false } }

end Sys2Proof.Machine
end

