-- ==== Sys2Proof/Machine/Strap.lean ====
section
/-! DEFINITION. Sys2Proof/Machine/Strap.lean: settling the straps against the last-known-good copy, the extension chain and
the strap registers (R45–R61, Tables 2-4, 2-5, 2-14 to 2-18). -/
namespace Sys2Proof.Machine

/-! ## Levels and AUX codes (R45–R49) -/

/-- The last-known-good level of pin `k`: STRAP_A stands in bits 23:20. -/
def lkgLevel (l : Lkg) (k : Nat) : Nat := l.levels / 2 ^ (4 * (5 - k)) % 16

/-- Settle the reading `mv` of pin `k` by the boundary, drift and change rules, with their STR_FLAGS bits and records. A level
that the boundary rule settles is not judged by the other two (DEDUCED, log entry 26). -/
def settlePin (s : State) (k mv : Nat) : Nat × State :=
  let old := s.strap.lkg.map (fun l => lkgLevel l k)
  let r := settleLevel mv old
  if r.2 then (r.1, journal (s.setBit 0x104 k) 0x10 (srcOf 6 k) (bytesBE 2 mv ++ [BitVec.ofNat 8 r.1]))
  else match old with
    | none => (r.1, s)
    | some o =>
      if r.1 = o then (o, s)
      else if s.boot.brownout && (r.1 == o + 1 || r.1 + 1 == o) then
        (o, journal (s.setBit 0x104 (8 + k)) 0x11 (srcOf 6 k) (bytesBE 2 mv ++ [BitVec.ofNat 8 r.1, BitVec.ofNat 8 o]))
      else (r.1, journal (s.setBit 0x104 (16 + k)) 0x12 (srcOf 6 k) [BitVec.ofNat 8 o, BitVec.ofNat 8 r.1])

/-- Settle six readings: the levels packed as in STR_LEVELS 23:0. -/
def settlePins (s : State) (mvs : List Nat) : Nat × State :=
  (List.range 6).foldl (fun (r : Nat × State) k =>
    let p := settlePin r.2 k ((mvs[k]?).getD 0)
    (r.1 * 16 + p.1, p.2)) (0, s)

/-- Pins that were unstable take their last-known-good bit, or 0, with a record each (R42). -/
def settleUnstable (s : State) : Nat × State :=
  let old := (s.strap.lkg.map (·.aux)).getD 0
  (List.range 8).foldl (fun (r : Nat × State) p =>
    if s.strap.auxUnst.testBit p then
      (r.1 + (if old.testBit p then 2 ^ p else 0), journal r.2 0x13 (srcOf 6 (8 + p)) [BitVec.ofNat 8 (b2n (old.testBit p))])
    else (r.1 + (if s.strap.aux.testBit p then 2 ^ p else 0), r.2)) (0, s)

/-- A group code that differs from the last-known-good one (R46, R47): kept after a brownout reset with AUXDRIFT, else
accepted; a record names each pin that differs (DEDUCED, log entry 26). -/
def settleCodes (s : State) (aux : Nat) : Nat × State :=
  match s.strap.lkg with
  | none => (aux, s)
  | some l =>
    let drop := s.boot.brownout
    let s := (List.range 8).foldl (fun s p =>
      if aux.testBit p = l.aux.testBit p then s
      else
        let o := BitVec.ofNat 8 (b2n (l.aux.testBit p))
        let n := BitVec.ofNat 8 (b2n (aux.testBit p))
        if drop then journal s 0x11 (srcOf 6 (8 + p)) [0#8, 0#8, n, o] else journal s 0x12 (srcOf 6 (8 + p)) [o, n]) s
    if aux % 256 = l.aux % 256 then (aux, s) else if drop then (l.aux % 256, s.setBit 0x104 25) else (aux, s)

/-! ## The extension chain (R57–R61, Table 2-5) -/

/-- Bits `lo` to `lo + wd − 1` of a chain read, bit 0 the first bit shifted in, most significant bit first. -/
def chainField (v : BitVec 256) (lo wd : Nat) : Nat := natOfBitsBE ((List.range wd).map (fun i => v.getMsbD (lo + i)))

/-- A chain read cut to its first `n` bits. -/
def chainCut (v : BitVec 256) (n : Nat) : BitVec 256 := if 256 ≤ n then v else (v >>> (256 - n)) <<< (256 - n)

/-- How many of the first `n` bits of a chain vector are 1. -/
def chainOnes (v : BitVec 256) (n : Nat) : Nat := ((List.range n).filter (fun j => v.getMsbD j)).length

/-- Read the chain from two cycles: bits that differ take their last-known-good value, or 0 (R60); the length comes from the
settled bits; preamble and trailer are judged in each read (R59). A length code above 7 names more bits than a read takes:
the trailer does not match (DEDUCED, log entry 27). -/
def resolveChain (s : State) (a b : BitVec 256) : State :=
  let diff := a ^^^ b
  let keep := match s.strap.lkg with | some l => l.chain | none => 0#256
  let bits := (a &&& ~~~diff) ||| (keep &&& diff)
  let code := chainField bits 8 4
  let len := min 256 (32 * (code + 1))
  let dis := min 255 (chainOnes diff len)
  let pre := chainField a 0 8 == 0xA5 && chainField b 0 8 == 0xA5
  let trl := decide (code < 8) && chainField a (len - 8) 8 == 0x5A && chainField b (len - 8) 8 == 0x5A
  let word (k : Nat) : Word := BitVec.ofNat 32 (chainField (chainCut bits len) (32 * k) 32)
  let s := forEach 8 (fun s k => s.setReg (0x108 + k) (word k)) s
  let s := ((s.setFld 0x107 0 9 len).setBit 0x107 12 pre).setBit 0x107 13 trl
  let s := s.setBit 0x107 14 (pre && trl && s.fld 0x105 0 4 != 0)
  let s := (s.setBit 0x107 15 (dis != 0 && s.strap.lkg.isSome)).setFld 0x107 16 8 dis
  let s := if dis = 0 then s else journal s 0x18 0 [BitVec.ofNat 8 dis]
  if pre && trl then s
  else journal s 0x17 0
    ([chainField a 0 8, chainField a (len - 8) 8, chainField b 0 8, chainField b (len - 8) 8].map (BitVec.ofNat 8))

/-- The chain in force, bit 0 first: STR_CHAIN0 to STR_CHAIN7. -/
def strapChain (s : State) : BitVec 256 :=
  (List.range 8).foldl (fun v k => (v <<< 32) ||| (s.reg (0x108 + k)).setWidth 256) 0#256

/-! ## Decoding (R51, R52, Table 2-4) -/

/-- Decode the six levels into STR_PROFILE. The radio trunk runs where a profile is in force and its port is present (R9,
R37). -/
def decodeLevels (s : State) (lv : Nat) : State :=
  let p (k : Nat) : Nat := lv / 2 ^ (4 * (5 - k)) % 16
  let addr := lv / 16 % 4096
  let port := 8 + p 1 % 8
  let on := decide (8 ≤ p 1) && present s port && p 0 != 0
  let mode := if p 5 % 4 = 3 then 0 else p 5 % 4
  let w := ((p 0) + 16 * (p 1 % 8) + 128 * (p 1 / 8) + 256 * b2n on + 512 * mode + 2048 * (p 5 / 4 % 2) + 4096 * (p 5 / 8) +
    65536 * (if addr = 0xFFF then 0 else addr))
  let s := s.setReg 0x105 (BitVec.ofNat 32 w)
  if addr = 0xFFF then journal s 0x14 0 [] else s

/-- CLK_PGSEL as the AUX bits give it (R44, R106): each group's code plus 2. -/
def auxCodes (aux : Nat) : Word :=
  BitVec.ofNat 32 ((List.range 4).foldl (fun t g => t + (aux / 4 ^ g % 4 + 2) * 16 ^ g) 0)

/-- Put the AUX codes into CLK_PGSEL and the groups: they are its reset value (R106). A field that the host has written keeps
its shadow (R119). -/
def putCodes (s : State) (aux : Nat) : State :=
  let w := auxCodes aux
  let m := fget (fun _ => 0#32) s.commit.marks 0x201
  let s := (s.setReg 0x201 w).setShad 0x201 ((s.shad 0x201 &&& m) ||| (w &&& ~~~m))
  let g (k : Nat) (x : Group) : Group := { x with code := getF w (4 * k) 3, target := getF w (4 * k) 3 }
  { s with power := { s.power with groups := s.power.groups.mapIdx g } }

/-- The requested address is the strap address (Table 14-8). -/
def putReq (s : State) : State :=
  let a := s.fld 0x105 16 12
  let s := s.setFld 0x4001 0 12 a
  if getF (fget (fun _ => 0#32) s.commit.marks 0x4001) 0 12 = 0 then s.setShad 0x4001 (setF (s.shad 0x4001) 0 12 a) else s

/-- Resolve the straps (R48): pins, AUX, decoding and the chain. -/
def resolveStraps (s : State) (a b : BitVec 256) : State :=
  let old := s.strap.lkg
  let s := s.setBit 0x104 26 old.isSome
  let r := settlePins s s.strap.mv
  let u := settleUnstable r.2
  let x := settleCodes u.2 u.1
  let s := x.2
  let s := s.setReg 0x100 (BitVec.ofNat 32 (x.1 * 2 ^ 24 + r.1))
  let s := s.setReg 0x106 (match old with | some l => BitVec.ofNat 32 (l.aux % 256 * 2 ^ 24 + l.levels) | none => 0#32)
  let s := putReq (putCodes (decodeLevels s r.1) x.1)
  let s := s.setBit 0x2400 3 (s.bit 0x105 12)
  if s.bit 0x105 11 then resolveChain s a b else s

/-! ## The last-known-good copy (R50) -/

/-- The resolved set: levels, AUX bits, chain length and chain bits. -/
def resolvedSet (s : State) : Lkg :=
  { levels := s.fld 0x100 0 24, aux := s.fld 0x100 24 8, chainLen := s.fld 0x107 0 9, chain := strapChain s }

/-- A new last-known-good record is written (R50). -/
def wantsLkg (s : State) : Bool :=
  s.strap.lkg != some (resolvedSet s) && s.fld 0x104 0 6 == 0 && s.fld 0x104 8 6 == 0 && s.fld 0x104 24 2 == 0 &&
  s.fld 0x107 16 8 == 0 && (!s.boot.brownout || s.fld 0x320 0 2 == 1 || s.fld 0x320 0 2 == 2)

/-- Write it where the journal has a memory: the copy follows. -/
def writeLkg (s : State) : State :=
  if wantsLkg s && jMem s != 0 then
    let l := resolvedSet s
    let s := journalStruct s 0x03 0 (lkgPayload l)
    { s with strap := { s.strap with lkg := some l } }.setReg 0x106 (BitVec.ofNat 32 (l.aux * 2 ^ 24 + l.levels))
  else s

/-! ## On-demand measurement (R577, Table 2-20) -/

/-- MEASURE: ignored while a measurement runs. -/
def doMeasure (s : State) : State := { s with strap := { s.strap with measuring := true } }
def execMeasure (s : State) : Res := .next (viaHost s (fun s => doMeasure s))

/-- MEASURE_DONE: the conversions of the six pins; each reading is settled by the nearer-voltage test alone. -/
def execMeasureDone (conv : List Conversions) (s : State) : Res :=
  if !s.strap.measuring then .next s
  else
    let r (k : Nat) : Nat × Bool := settleLevel (meanOf ((conv[k]?).getD [])) none
    let lv := (List.range 6).foldl (fun t k => t * 16 + (r k).1) 0
    let fl := wordOfBits ((List.range 6).map (fun k => (r k).2))
    let s := { s with strap := { s.strap with measuring := false } }
    let s := (s.setReg 0x112 (BitVec.ofNat 32 (fl * 2 ^ 24 + lv))).setBit 0x113 0
    .next (if lv = s.fld 0x100 0 24 then s else s.setBit 0x113 2)

end Sys2Proof.Machine
end

