-- ==== Sys2Proof/Machine/Mantle.lean ====
section
/-! DEFINITION. Sys2Proof/Machine/Mantle.lean: the Mantle layer: profiles, chain refinements and the strap radio trunk as
register settings, their application at step 8, and the hand-back (R33–R37, R55, R56, R61–R72, R119, Tables 2-6 to 2-12). -/
namespace Sys2Proof.Machine

/-- Port roles (Table 2-10). -/
inductive PortRole where
  | t232 | t485 | m485 | a485 | b485 | d232 | n232
  deriving DecidableEq, Repr

/-- The role of port `n` in a profile (Table 2-12). -/
def roleOf (prof n : Nat) : Option PortRole :=
  if 16 ≤ n then none
  else match prof with
    | 1 => some .t232 | 2 => some .t232 | 3 => some .t485 | 4 => some .m485
    | 5 => some (if n < 4 then .a485 else .m485)
    | 7 => some .t485 | 8 => some .m485 | 9 => some .d232
    | 10 => some (if n = 0 then .n232 else .m485)
    | 11 => if n < 4 then some .b485 else none
    | 12 => some .m485 | 14 => some .t485 | 15 => some .t232
    | _ => none

/-- ENTRY and TAP of a role's program (Tables 2-10, 9-8). -/
def roleProgram : PortRole → Nat
  | .t232 => 0x4000 | .t485 => 0x4000 | .m485 => 0x1004100 | .a485 => 0x1004100 | .b485 => 0x1004200 | .d232 => 0x1004400
  | .n232 => 0x1004300

/-- The class of a role (Table 2-10). -/
def roleClass : PortRole → Nat
  | .t232 => 2 | .t485 => 2 | .m485 => 1 | .a485 => 1 | .b485 => 1 | .d232 => 1 | .n232 => 3

/-- Where a profile binds a circuit (Table 2-11). -/
inductive MBind where
  | port (n : Nat)
  | peer (c : Nat)
  | head (c : Nat)
  | host
  deriving DecidableEq, Repr

/-- What a profile makes of a circuit: the port and match entry that feed it, its binding, and the port whose role gives its
class. -/
structure MCirc where
  feed : Option (Nat × Option Nat)
  bind : MBind
  port : Option Nat
  deriving DecidableEq, Repr

/-- Circuits C(16 + n), bound Pn. -/
def egressCirc (c : Nat) : Option MCirc :=
  if 16 ≤ c ∧ c < 32 then some ⟨none, .port (c - 16), some (c - 16)⟩ else none

/-- The circuits of a profile (Tables 2-11, 2-12; R69). -/
def circOf (prof c : Nat) : Option MCirc :=
  let low (b : MBind) : Option MCirc := if c < 16 then some ⟨some (c, none), b, some c⟩ else egressCirc c
  let split : Option MCirc :=
    if 32 ≤ c ∧ c < 64 then some ⟨some ((c - 32) / 8, some ((c - 32) % 8)), .head c, some ((c - 32) / 8)⟩ else none
  match prof with
  | 1 => if c < 16 then some ⟨some (c, none), .port (Nat.xor c 1), some c⟩ else none
  | 2 => low (.peer (16 + c)) | 3 => low (.peer (16 + c)) | 4 => low (.peer (16 + c))
  | 5 => if c < 4 then none else if c < 32 then low (.head c) else split
  | 6 => some ⟨none, .host, none⟩
  | 7 => low (.head c) | 8 => low (.head c) | 9 => low (.head c) | 10 => low (.head c) | 12 => low (.head c)
  | 11 => if 16 ≤ c ∧ c < 20 then egressCirc c else split
  | 14 => if c = 48 then some ⟨none, .head 48, none⟩ else low (.head c)
  | 15 => low .host
  | _ => none

/-- Baud rates of Table 2-7. -/
def baudOf : Nat → Nat
  | 1 => 300 | 2 => 1200 | 3 => 2400 | 4 => 4800 | 5 => 9600 | 6 => 19200 | 7 => 38400 | 8 => 57600 | 9 => 115200 | 10 => 230400
  | 11 => 460800 | 12 => 921600 | 13 => 14400 | 14 => 28800 | 15 => 76800 | _ => 0

/-- A strap group clock in Hz (Table 4-3, codes 2 to 5). -/
def strapClock (code : Nat) : Nat :=
  match code with | 2 => 29491200 | 3 => 24576000 | 4 => 18432000 | _ => 14745600

/-- The strap clock of port `n`. -/
def portClock (s : State) (n : Nat) : Nat := strapClock (getF (auxCodes (s.fld 0x100 24 8)) (4 * (n / 4)) 3)

/-- The divider for a rate where the clock divides exactly (R63). -/
def exactDiv (hz rate : Nat) : Option Nat := if rate ≠ 0 ∧ hz % (16 * rate) = 0 then some (hz / (16 * rate)) else none

/-- The chain is applied, and a field of it: one that reaches the trailer reads 0 (R61). -/
def chainOn (s : State) : Bool := s.bit 0x107 14
def chainCode (s : State) (lo wd whole : Nat) : Nat :=
  if chainOn s && decide (lo + whole ≤ s.fld 0x107 0 9 - 8) then chainField (strapChain s) lo wd else 0

/-- The global chain codes, a reserved one counting as 0 (R64). -/
def chainStall (s : State) : Nat := let v := chainCode s 12 4 4; if v < 14 then v else 0
def chainRadio (s : State) : Nat := chainCode s 16 4 4
def chainCan (s : State) (ch : Nat) : Nat := let v := chainCode s (20 + 4 * ch) 4 4; if v < 13 then v else 0
def chainTime (s : State) : Nat := let v := chainCode s 28 4 4; if v < 9 then v else 0

/-- The part of port `n`'s field at offset `o` (Table 2-6): the whole field reads 0 where any of it reaches the trailer. -/
def chainPort (s : State) (n o wd : Nat) : Nat :=
  if chainOn s && decide (32 + 12 * n + 12 ≤ s.fld 0x107 0 9 - 8) then chainField (strapChain s) (32 + 12 * n + o) wd else 0

/-- The strap profile, address, and the port of the radio trunk where it runs. -/
def sProf (s : State) : Nat := s.fld 0x105 0 4
def sAddr (s : State) : Nat := s.fld 0x105 16 12
def radioPort (s : State) : Option Nat := if s.bit 0x105 8 then some (8 + s.fld 0x105 4 3) else none

/-- Port `n` is disabled by its chain field; the trunk port's field is ignored (R62), and an absent port's is not applied (R8). -/
def chainDisabled (s : State) (n : Nat) : Bool := present s n && radioPort s != some n && chainPort s n 8 1 == 1

/-- One register setting: address, low bit, width, value. -/
abbrev Setting := Nat × Nat × Nat × Nat

/-! ## Ports -/

/-- DATA, PARITY, STOP and NINE of Pnn_FMT for a format code (Table 2-6); code 7 is the 9-bit format. -/
def fmtBits : Nat → Nat
  | 1 => 0b000011 | 2 => 0b000111 | 3 => 0b001011 | 4 => 0b010011 | 5 => 0b000110 | 6 => 0b001010 | _ => 0b100011

/-- The format code in force on a port (R62): the role's own, refined by the chain. -/
def portFormat (s : State) (n : Nat) (r : PortRole) : Nat :=
  let own := match r with | .m485 => 2 | .a485 => 2 | .b485 => 7 | _ => 1
  let code := chainPort s n 9 3
  if r = .b485 then own else if code = 0 ∨ code = 7 then own else code

/-- The divider of a port (R63, R65): its chain baud code where it divides exactly, else the role's rate. -/
def portDiv (s : State) (n : Nat) (r : PortRole) : Nat :=
  let hz := portClock s n
  let own := hz / (16 * (if r = .n232 then 4800 else 9600))
  (exactDiv hz (baudOf (chainPort s n 0 4))).getD own

/-- The settings of port `n` (Tables 2-9, 2-10). -/
def portSettings (s : State) (n : Nat) : List Setting :=
  match radioPort s == some n, roleOf (sProf s) n with
  | true, _ =>
    let hz := portClock s n
    let div := (exactDiv hz (baudOf (chainRadio s))).getD (hz / (16 * 9600))
    [(pAddr n 0, 0, 1, 1), (pAddr n 0, 1, 1, 1), (pAddr n 0, 2, 2, 2), (pAddr n 1, 0, 16, div), (pAddr n 2, 0, 6, 0b000011),
     (pAddr n 4, 0, 2, 0), (pAddr n 6, 0, 8, 48), (pAddr n 6, 8, 8, 2)]
  | false, none => []
  | false, some r =>
    let de := r == .t485 || r == .m485 || r == .a485 || r == .b485
    let table := r == .a485 || r == .b485
    let base := chainPort s n 4 4
    let feed := (List.range 64).find? (fun c => (circOf (sProf s) c).any (fun m => m.feed == some (n, none)))
    [(pAddr n 0, 0, 1, b2n (!chainDisabled s n)), (pAddr n 0, 1, 1, 1), (pAddr n 0, 2, 2, if de then 2 else 1),
     (pAddr n 1, 0, 16, portDiv s n r), (pAddr n 2, 0, 6, fmtBits (portFormat s n r)),
     (pAddr n 3, 0, 8, if r == .m485 || r == .a485 then 7 else 4),
     (pAddr n 3, 8, 6, feed.getD 0), (pAddr n 3, 15, 1, b2n feed.isSome),
     (pAddr n 4, 0, 2, if r == .t232 && sProf s != 15 then 1 else 0), (pAddr n 4, 4, 12, 96), (pAddr n 4, 16, 12, 64),
     (pAddr n 6, 0, 8, 1), (pAddr n 6, 8, 8, 1),
     (pAddr n 8, 0, 2, if r == .a485 then 1 else if r == .b485 then 2 else 0), (pAddr n 8, 4, 1, b2n (r == .b485))] ++
    (if table then (List.range 8).flatMap (fun e =>
        [(pAddr n (9 + e), 0, 8, if base = 0 then e + 1 else 8 * (base - 1) + 1 + e), (pAddr n (9 + e), 8, 8, 0xFF),
         (pAddr n (9 + e), 16, 6, 32 + 8 * n + e), (pAddr n (9 + e), 31, 1, 1)])
      else [])

/-! ## Circuits -/

/-- The remote device of a binding: 1 for the head-end, the own address XOR 1 for the peer; 0 while the own address is not
known (R66, R67). The peer of a strapped device is that of its strap address, also where it is defeated and later owns another one
(DESIGN CHOICE, log entry 29: R66 speaks of the own address, R70 of a copy that stays). -/
def bindDev (s : State) (b : MBind) : Nat :=
  match b with
  | .head _ => 1
  | .peer _ => if sAddr s = 0 then 0 else Nat.xor (sAddr s) 1
  | _ => 0

/-- The binding is to the device itself (R67). -/
def bindSelf (s : State) (b : MBind) : Bool :=
  match b with
  | .head _ => sAddr s == 1
  | _ => false

/-- A binding that ends nowhere: an absent port (R8), the device itself (R67), or a peer address that is no device's (R258). -/
def bindGone (s : State) (b : MBind) : Bool :=
  match b with
  | .port n => !present s n
  | .peer _ => sAddr s != 0 && (bindDev s b == 0 || bindDev s b == 0xFFF)
  | _ => bindSelf s b

/-- The ports that a circuit is fed from and bound to. -/
def circPorts (m : MCirc) : List Nat :=
  (match m.feed with | some (n, _) => [n] | none => []) ++ (match m.bind with | .port n => [n] | _ => [])

/-- The radio trunk takes a port of the circuit (R55). -/
def takenByRadio (s : State) (m : MCirc) : Bool := match radioPort s with | some n => (circPorts m).contains n | none => false

/-- The settings of circuit `c`: every circuit takes the reserve, and the chain's stall timer (Table 2-9; DEDUCED, log entry
28); those of the pattern their class, binding, enable and program. -/
def circSettings (s : State) (c : Nat) : List Setting :=
  let stall := chainStall s
  let common := [(cAddr c 2, 0, 8, if sProf s = 6 then 62 else 8), (cAddr c 2, 16, 12, 128),
    (cAddr c 0, 8, 4, if stall = 0 then 6 else stall), (cAddr c 0, 12, 2, 1)]
  match circOf (sProf s) c with
  | none => common
  | some m =>
    let role := m.port.bind (roleOf (sProf s))
    let gone := bindGone s m.bind
    let en := !gone && !takenByRadio s m && !(circPorts m).any (chainDisabled s)
    let bind : List Setting := if gone then [(cAddr c 1, 0, 2, 0)] else match m.bind with
      | .port n => [(cAddr c 1, 0, 2, 1), (cAddr c 1, 4, 4, n)]
      | .host => [(cAddr c 1, 0, 2, 3)]
      | .head r => [(cAddr c 1, 0, 2, 2), (cAddr c 1, 8, 6, r), (cAddr c 1, 16, 12, 1), (cAddr c 3, 0, 8, 2)]
      | .peer r => [(cAddr c 1, 0, 2, 2), (cAddr c 1, 8, 6, r), (cAddr c 1, 16, 12, bindDev s m.bind)] ++
          (if bindDev s m.bind = 1 then [(cAddr c 3, 0, 8, 2)] else [])
    let cls := match role with | some r => roleClass r | none => if m.bind = .head 48 then 3 else 2
    let prog := match m.feed, role with | some _, some r => roleProgram r | _, _ => 0x4000
    common ++ [(cAddr c 0, 0, 1, b2n en), (cAddr c 0, 4, 2, cls), (xAddr c 0, 0, 25, prog)] ++ bind

/-! ## CAN channels, fabric and time -/

/-- NQDIV, NQFRAC, NPRE, NPOST and NJUMP of a CAN rate code (Table 13-1). -/
def nominalOf : Nat → Nat × Nat × Nat × Nat
  | 1 => (25, 0x999A, 83, 12) | 2 => (12, 0xCCCD, 83, 12) | 3 => (5, 0x1EB8, 83, 12) | 4 => (2, 0x0C4A, 83, 12)
  | 6 => (1, 0x0625, 41, 6) | 9 => (1, 0x0625, 41, 6) | 10 => (1, 0x0625, 41, 6) | 7 => (1, 0x0625, 25, 4)
  | 8 => (1, 0x0625, 20, 3) | 11 => (1, 0x0625, 20, 3) | _ => (1, 0x0625, 83, 12)

/-- FPRE, FPOST and SSPOFS of a code with a data rate (Table 13-2); FJUMP equals FPOST. -/
def dataOf : Nat → Option (Nat × Nat × Nat)
  | 9 => some (8, 3, 9) | 10 => some (4, 1, 5) | 11 => some (3, 1, 4) | _ => none

/-- The profile makes channel `ch` a trunk (Tables 2-9, 2-12), unless the chain turns it off. -/
def canIsTrunk (s : State) (ch : Nat) : Bool := (ch == 0 || sProf s == 6 || sProf s == 13) && chainCan s ch != 12

/-- The reference role and priority of channel `ch` (Tables 2-8, 2-9, 2-12): 1 follower, 2 master; only on a trunk. A time-master code
that names a channel which the profile makes no trunk leaves the trunk channel a follower (DESIGN CHOICE, log entry 58: R64 does not
say what it then is). -/
def canTime (s : State) (ch : Nat) : Nat × Nat :=
  let t := chainTime s
  let m (on : Bool) (p : Nat) : Nat × Nat := if on then (2, p) else (1, 0)
  if !canIsTrunk s ch then (0, 0)
  else match t with
    | 1 => (1, 0) | 2 => (1, 0)
    | 3 => m (ch == 0) 1 | 4 => m (ch == 0) 2 | 5 => m (ch == 1) 1 | 6 => m (ch == 1) 2 | 7 => (2, 1) | 8 => (2, 2)
    | _ => if sProf s = 6 then (2, 1) else if sProf s = 13 then (2, 2) else if sProf s = 10 then m (ch == 0) 1 else (1, 0)

/-- The settings of channel `ch` (R64, R69). A rate code with a data rate makes a trunk send FD frames (DEDUCED, log entry
28). -/
def canSettings (s : State) (ch : Nat) : List Setting :=
  let code := chainCan s ch
  let q := nominalOf code
  let timing := [(chAddr ch 1, 0, 7, q.1), (chAddr ch 1, 16, 16, q.2.1), (chAddr ch 2, 0, 9, q.2.2.1), (chAddr ch 2, 16, 8, q.2.2.2),
    (chAddr ch 2, 24, 8, q.2.2.2)]
  let fast := match dataOf code with
    | some (a, b, o) => [(chAddr ch 0, 4, 1, 1), (chAddr ch 3, 0, 5, 1), (chAddr ch 3, 8, 6, a), (chAddr ch 3, 16, 5, b),
        (chAddr ch 3, 24, 5, b), (chAddr ch 4, 0, 7, o)]
    | none => []
  let t := canTime s ch
  let listen := ch == 1 && sProf s == 14 && code != 12
  timing ++ fast ++
  (if canIsTrunk s ch then
    [(chAddr ch 0, 0, 2, 1), (chAddr ch 0, 8, 1, 0), (chAddr ch 5, 0, 2, t.1), (chAddr ch 5, 4, 3, t.2), (0x4003, ch, 1, 1),
     (0x4003, 2 + ch, 1, b2n (dataOf code).isSome)]
  else if listen then
    [(chAddr ch 0, 0, 2, 2), (chAddr ch 0, 4, 1, 1)] ++ (List.range 128).flatMap (fun i =>
      [(oAddr ch i 0, 0, 1, 1), (oAddr ch i 0, 1, 1, 0), (oAddr ch i 0, 2, 2, 1), (oAddr ch i 0, 16, 6, 48), (oAddr ch i 0, 24, 1, 1),
       (oAddr ch i 0, 25, 1, 1), (oAddr ch i 2, 0, 29, 0), (oAddr ch i 2, 31, 1, 0)])
  else [])

/-- The key of slot 0 is programmed (R56). -/
def radioKey (s : State) : Bool := ((s.chip.trunkKeys[0]?).getD none).isSome

/-- The radio trunk's slot UT0, and TPO (R55, R56, R64, R489). -/
def plainSettings (s : State) : List Setting :=
  (match radioPort s with
   | some n => [(0x4008, 0, 1, 1), (0x4008, 4, 4, n), (0x4008, 8, 1, b2n (radioKey s)), (0x4008, 12, 2, 0)]
   | none => []) ++ [(0x4802, 0, 1, b2n (chainTime s != 1))]

/-- Every setting of the profile and the chain; none for profile 0 (R37) and for an absent port (R8). -/
def mantleSettings (s : State) : List Setting :=
  if sProf s = 0 then []
  else (List.range 16).flatMap (fun n => if present s n then portSettings s n else []) ++
    (List.range 64).flatMap (circSettings s) ++ canSettings s 0 ++ canSettings s 1 ++ plainSettings s

/-- Lay settings over words: unlisted words are reset values (R33). -/
def layOver (m : FMap Word) (l : List Setting) : FMap Word :=
  l.foldl (fun m t => fset resetWord m t.1 (setF (fget resetWord m t.1) t.2.1 t.2.2.1 t.2.2.2)) m

/-- Compute the layer (step 6): the strap reset values, the profile and the chain. The circuits bound to a peer or the
head-end are remembered for the claim's outcome (R67). -/
def computeMantle (s : State) : State :=
  let base := fset resetWord (fset resetWord (gradeRegs s.chip.grade) 0x201 (s.reg 0x201)) 0x4001 (setF (resetWord 0x4001) 0 12 (sAddr s))
  let far := (List.range 64).filter (fun c => match circOf (sProf s) c with
    | some m => (match m.bind with | .head _ => true | .peer _ => true | _ => false) | none => false)
  { s with strap := { s.strap with mantle := layOver base (mantleSettings s), selfTarget := far } }

/-! ## Application (R119) -/

/-- The records that the layer raises: the strap radio trunk's (R9, R55, R56), inexact baud codes (R63), circuits bound to the
device itself (R67). -/
def mantleRecords (s : State) : State :=
  let prof := sProf s
  let want := 8 + s.fld 0x105 4 3
  let s := if s.bit 0x105 7 && !present s want then journal s 0x15 (srcOf 1 want) [] else s
  let s := match radioPort s with
    | none => s
    | some n =>
      let s := if radioKey s then s else journal s 0x1C (srcOf 5 2) [0#8]
      if (roleOf prof n).isSome then
        let mask := (List.range 64).foldl (fun t c => match circOf prof c with
          | some m => if takenByRadio s m then t + 2 ^ c else t | none => t) 0
        journal s 0x16 (srcOf 1 n) (bytesBE 8 mask)
      else s
  if prof = 0 then s
  else
    let s := forEach 16 (fun s n =>
      let code := if radioPort s == some n then chainRadio s else if (roleOf prof n).isSome then chainPort s n 0 4 else 0
      if present s n && code != 0 && (exactDiv (portClock s n) (baudOf code)).isNone
      then journal s 0x19 (srcOf 1 n) [BitVec.ofNat 8 code] else s) s
    forEach 64 (fun s c => match circOf prof c with
      | some m => if bindSelf s m.bind then journal s 0x1A (srcOf 2 c) [] else s
      | none => s) s

/-- Put the layer into the applied copies, and into the shadow of every RB field that the host has not written (R119). -/
def putMantle (s : State) : State :=
  forList s.strap.mantle (fun s e =>
    let rb := accMask .rb e.1
    let m := fget (fun _ => 0#32) s.commit.marks e.1
    let s := s.setReg e.1 ((s.reg e.1 &&& ~~~rb) ||| (e.2 &&& rb))
    s.setShad e.1 ((s.shad e.1 &&& (m ||| ~~~rb)) ||| (e.2 &&& rb &&& ~~~m))) s

/-- Stage one held commit as a GLB_COMMIT write of its recorded fields (R119): an instance whose recorded fields all hold
already, with nothing staged before it, has nothing to apply. -/
def stageHeld (s : State) (h : HeldCommit) : State :=
  let w := s.commit.nextWrite
  let s := { s with commit := { s.commit with nextWrite := w + 1 } }
  let s := forList h.parts (fun s p =>
    let differs := p.2.any (fun t => (s.reg t.1 &&& t.2.1) != (t.2.2 &&& t.2.1))
    if p.2.isEmpty || !(differs || isStaged s p.1) then s
    else { s with commit := { s.commit with staged := s.commit.staged ++ [{ inst := p.1, writes := [w], words := p.2 }] } }) s
  doneCheck s w

/-- Start-up starts an epoch of every circuit, at its start-up sequence number (R268, R270), which no epoch advance has reached, so no
high-water mark is due (R269; DEDUCED, log entry 64). One that the layer enables enters RUN; its context starts at step 9. -/
def mantleRun (s : State) (c : Nat) : State :=
  let s := if cEn s c then s.setCirc c { s.circ c with st := .run } else s
  stallWatch (startEpoch s c true) c

/-- Group clocks start (Table 4-6 step 8, R10, R112). -/
def startGroups (s : State) : State :=
  forEach 4 (fun s g =>
    let code := s.fld 0x201 (4 * g) 3
    s.setGroup g { running := groupPresent s g, code := code, target := code }) s

/-- MANTLE_APPLY (step 8): after the image, and after the audit where one is due (R117). -/
def execMantleApply (s : State) : Res :=
  if !(s.boot.imaged && !s.boot.mantled && (!s.boot.brownout || s.boot.audited) && !s.power.relock) then .next s
  else
    let s := putMantle (mantleRecords s)
    let held := s.commit.held
    let prof := sProf s
    let s := { s with boot := { s.boot with mantled := true },
                      strap := { s.strap with mantleOn := prof != 0, standby := prof == 12, twinWait := prof == 12 } }
    let s := { s with commit := { s.commit with held := [], marks := [] } }
    let s := putCts (startGroups (forEach 64 mantleRun s))
    let s := if prof != 0 || s.fld 0x2400 1 2 != 0 then s.countWrap 0x409 else s
    .next (settleAll (forList held stageHeld (watchPool s)))

/-! ## Hand-back (R72) -/

/-- Hand the groups of STR_HANDBACK back: every RB field of their blocks takes its Mantle-layer value in the shadow, and the
groups are committed; HST_GEN counts it (R421). The timer stops until the next valid host frame. -/
def doHandback (s : State) : State :=
  let groups := s.fld 0x110 8 8
  let s := forList (strobedInsts s groups) (fun s i =>
    forList (instAddrs i) (fun s a =>
      let rb := accMask .rb a
      s.setShad a ((s.shad a &&& ~~~rb) ||| (layerWord s a &&& rb))) s) s
  let s := { s with strap := { s.strap with handbackRun := false } }
  let s := journal (s.setBit 0x113 1) 0x1B 0 [BitVec.ofNat 8 groups]
  let s := doCommit (s.countWrap 0x409) groups
  { s with strap := { s.strap with handbackRun := false } }
/-- HANDBACK: a strobe of STR_CTL.HANDBACK. -/
def execHandback (s : State) : Res := .next (viaHost s (fun s => doHandback s))
/-- HANDBACK_TIMER_EXPIRY (R71, R72). -/
def execHandbackTimerExpiry (s : State) : Res := if s.strap.handbackRun then .next (doHandback s) else .next s

/-- A valid host frame restarts the hand-back timer (R71). -/
def restartHandback (s : State) : State := afterStr s

/-- TWIN_NOROUTE_EXPIRY (R68): 10 s after the layer was applied no route to the twin has existed. -/
def execTwinNorouteExpiry (s : State) : Res :=
  if s.strap.twinWait then .next { s with strap := { s.strap with standby := false, twinWait := false } } else .next s

end Sys2Proof.Machine
end

