-- ==== Sys2Proof/Machine/Circuits.lean ====
section
/-! DEFINITION. Sys2Proof/Machine/Circuits.lean: the commands on cells and circuits (chapter 7) and the scrubber
(chapter 8). -/
namespace Sys2Proof.Machine

/-! ## The allocator (R235–R243, R249) -/

/-- The circuit that a request is for; none for the system reserve. -/
def reqCirc : Requester → Option Nat
  | .port _ c => some c.val
  | .can _ _ c => some c.val
  | .push c => some c.val
  | .fabric _ _ c => some c.val
  | .ctx x => some x.val
  | _ => none

/-- The requester may ask for such a cell (R235): a CELL-mode receiver for a circuit it feeds and has no open cell of (R195), a receive
object for the circuit it is bound to, a context whose write cursor is empty, the fabric unless the circuit's system context is FAULTED
(R318); a PUSH and the system reserve as they are. -/
def mayAsk (s : State) : Requester → Bool
  | .port n c => present s n.val && pEn s n.val && pCell s n.val && isFed s n.val c.val && (openRx s n.val c.val).isNone
  | .can ch i c => oOn s ch.val i.val && !oTx s ch.val i.val && oCircKind s ch.val i.val && oCirc s ch.val i.val == c.val
  | .fabric _ _ c => !sysDown s c.val
  | .ctx x => !s.cells.any (fun e => e.2.holder == .wcur x.val)
  | _ => true

/-- The request served among those pending in one cycle (R237, R25): the system reserve first, then the highest class with aging, then
round-robin. -/
def chooseReq (s : State) (l : List Requester) : Option Requester :=
  match l.find? (fun r => (reqCirc r).isNone) with
  | some r => some r
  | none =>
    let circ (r : Requester) : Nat := (reqCirc r).getD 0
    let key (r : Requester) : Nat := agedClass (cClass s (circ r)) (s.circ (circ r)).allocLoss
    let turn (r : Requester) : Nat := afterServed ((s.pool.allocLast[key r]?).getD 63) (circ r)
    l.foldl (fun b r => match b with
      | none => some r
      | some m => if key r < key m ∨ (key r = key m ∧ turn r < turn m) then some r else some m) none

/-- Request `r` has been chosen among `l`: its circuit is the last served of its class, the circuits of the others have lost once more. -/
def noteServed (s : State) (l : List Requester) (r : Requester) : State :=
  let s := match reqCirc r with
    | some c => { s with pool := { s.pool with allocLast := listSet s.pool.allocLast (agedClass (cClass s c) (s.circ c).allocLoss) c } }
    | none => s
  forEach 64 (fun s c =>
    if reqCirc r == some c then s.setCirc c { s.circ c with allocLoss := 0 }
    else if l.any (fun q => reqCirc q == some c) then s.setCirc c { s.circ c with allocLoss := (s.circ c).allocLoss + 1 } else s) s

/-- Serve an allocation request: Table 7-5 for a circuit, Table 7-6 for the system reserve. -/
def allocFor (s : State) : Requester → State
  | .port n c => (allocCirc s c.val true (8 * 16 + n.val) (.portRx n.val)).2
  | .can ch i c => (allocCirc s c.val true (3 * 2 ^ 22 + 0x3F) (.canRx ch.val i.val)).2
  | .push c => (allocCirc s c.val true (2 * 2 ^ 22) .push).2
  | .fabric dev rc c => (allocCirc s c.val true (2 ^ 22 + dev.toNat * 64 + rc.val) .fabric).2
  | .ctx x => (allocCirc s x.val false (3 * 2 ^ 22 + x.val) (.wcur x.val)).2
  | .control => (allocSys s .ctl).2
  | .relay => (allocSys s .relay).2
  | .journal => (allocSys s .jnl).2
  | .other => (allocSys s .other).2

/-- CELL_ALLOCATE (R237, R243, R249): one of the requests pending in a cycle is served; the others go on waiting. -/
def execCellAllocate (rs : List Requester) (s : State) : Res :=
  let l := rs.filter (mayAsk s)
  match chooseReq s l with
  | none => .next s
  | some r => .next (allocFor (noteServed s l r) r)

/-- CELL_FREE (R239, R241): `r` is the circuit, or 64 + k for system context Sk. -/
def execCellFree (i : CellId) (r : CtxId) (s : State) : Res :=
  .next (if r.val < 64 then freeByCirc s r.val i.val else freeBySys s (r.val - 64) i.val)

/-! ## Credits (R253, R255) -/

/-- CREDIT_TABLE_TIMER (R253): 20 ms after its first credit the entry of an origin endpoint is sent; `owner` is the circuit it names. -/
def execCreditTableTimer (dev : BitVec 12) (rc owner : CircId) (s : State) : Res :=
  let mine (e : CreditEntry) : Bool := e.dev == dev.toNat && e.circ == rc.val && e.owner == owner.val
  match s.credits.find? mine with
  | some e => .next (sendCredit { s with credits := s.credits.filter (fun x => !mine x) } e e.owed 0)
  | none => .next s

/-- CREDIT_PROBE_TIMER (R255, R507): a Steel probe carrying TOMB, counted in Cnn_CREDCNT.SYNC, where a valid route exists. While the
circuit's system context is FAULTED none is built (R318). -/
def execCreditProbeTimer (c : CircId) (s : State) : Res :=
  let c := c.val
  let k := s.circ c
  if cKind s c == 2 && !boundLocal s c && k.st != .disabled && k.credits == 0 && !k.queue.isEmpty && ownAddr s != 0 && !sysDown s c &&
      (bestPath s (cRdev s c)).isSome then
    .next (sendCtl (s.count (cAddr c 0x14) 0 16) 2 (cRdev s c) (cRcirc s c) c (bytesBE 2 k.tombSeq))
  else .next s

/-! ## Stall timer, CUT, FAULT (R261–R266) -/

/-- The cells of circuit `c` that wait, or are held for a verdict (R261, R262). -/
def stalledCells (s : State) (c : Nat) : List Nat :=
  let k := s.circ c
  let cur := match (s.ctx c).rcur with | .held i _ _ => [i] | _ => []
  let taken := (s.cells.filter (fun e => e.2.owner == .circ c && e.2.st == .taken && e.2.holder != .fabric && !e.2.abandon)).map (·.1)
  k.queue ++ k.inbox ++ cur ++ (s.ctx c).heldCells ++ (s.ctx c).stock.parts ++ taken

/-- The stall timer of circuit `c` stands still: the PLL relocks, or the group clock of its bound port is frozen (R107, R261). -/
def stallHeld (s : State) (c : Nat) : Bool :=
  s.power.relock || (cKind s c == 1 && ((s.port (cPort s c)).frozen || (s.group (pGroup (cPort s c))).stopped))

/-- STALL_TIMER_EXPIRY (R262). A cell being taken is abandoned at its egress's next decision point. -/
def execStallTimerExpiry (c : CircId) (s : State) : Res :=
  let c := c.val
  if !(s.circ c).stallRun || stallHeld s c then .next s
  else
    let act := cStallAct s c
    let cells := stalledCells s c
    let freed := if act = 0 then 0 else if act = 1 then cells.length else heldBy s c
    let s := (s.setBit (cAddr c 0x0D) 0).setCirc c { s.circ c with stallTime := s.now }
    let s := journal s 0x42 (srcOf 2 c) (BitVec.ofNat 8 act :: bytesBE 2 freed)
    .next (if act = 0 then s
      else if act = 1 then stallWatch ((forList cells letGo s).countBy (cAddr c 0x13) 0 16 freed) c
      else cutCirc s c)

/-- CUT (R264): the shadow of EN takes 0; on a circuit that is not DISABLED the steps of a CUT. -/
def doCut (s : State) (c : Nat) : State :=
  if (s.circ c).st == .disabled then s.setShad (cAddr c 0) (setF (s.shad (cAddr c 0)) 0 1 0) else cutCirc s c
def execCut (c : CircId) (s : State) : Res := .next (viaHost s (fun s => doCut s c.val))

/-- RESTART (R266). -/
def doRestart (s : State) (c : Nat) : State := leaveFault s c
def execRestart (c : CircId) (s : State) : Res := .next (viaHost s (fun s => doRestart s c.val))

/-- FRESTART_EXPIRY (R266). -/
def execFrestartExpiry (c : CircId) (s : State) : Res :=
  if (s.circ c.val).frestart then .next (leaveFault s c.val) else .next s

/-- CIRCUIT_CLRCNT: the counters of Table 7-13; PEAK takes HELD. -/
def doCircuitClrcnt (s : State) (c : Nat) : State :=
  (forEach 5 (fun s i => s.setReg (cAddr c (0x10 + i)) 0#32) s).setFld (cAddr c 0x0B) 0 12 (heldBy s c)
def execCircuitClrcnt (c : CircId) (s : State) : Res := .next (viaHost s (fun s => doCircuitClrcnt s c.val))

/-! ## Scrubbing (R290–R299) -/

/-- The memory a scrub word lies in (CEL_ECCLAST.MEM) and its index there (R297). -/
def scrubWhere (w : Nat) : Nat × Nat :=
  if w < 131072 then (0, w) else if w < 135168 then (1, w - 131072) else (2, w - 135168)

/-- Retire cell `i` (R293): a free cell at once, an owned one when it is freed. -/
def retireCell (s : State) (i : Nat) : State :=
  let x := s.cell i
  if x.retired then s
  else if x.owner == .free then noteRetired (s.setCell i { retired := true })
  else s.setCell i { x with retire := true }

/-- The snapshot chunk of a reply not yet complete has lost a staging cell: it is refused as one for which no cell was free (DESIGN CHOICE,
log entry 67). -/
def loseChunk (s : State) (i : Nat) : State :=
  let bad (r : Reply) : Reply := { r with status := 9, data := [] }
  let h := { s.host with staging := s.host.staging.filter (· != i) }
  { s with host := (match h.next with
      | some r => { h with next := some (bad r) }
      | none => { h with a := bad h.a }) }

/-- Let go of what a system reserve cell held (R296): a packet in it is dropped; a staged record moves to another cell; a snapshot chunk is
lost. The cell retires for good (R293). -/
def dropSystem (s : State) (i : Nat) : State :=
  match s.outQ.find? (fun o => o.cell == i) with
  | some o => dropBad s o
  | none =>
    match s.jnl.staged.find? (fun e => e.2 == i) with
    | some e =>
      let s := { s with jnl := { s.jnl with staged := s.jnl.staged.filter (fun x => x.2 != i) } }
      stageRecord (releaseCell (markRetire s i) i) e.1
    | none => releaseCell (markRetire (if s.host.staging.contains i then loseChunk s i else s) i) i

/-- An uncorrectable error in a word of cell memory (R293, R296, R297): the cell is marked poisoned. -/
def poisonCell (s : State) (i w : Nat) : State :=
  let x := s.cell i
  match x.owner with
  | .free => retireCell s i
  | .sys _ => dropSystem s i
  | .circ _ => s.setCell i { x with poison := true, retire := true, bad := w :: x.bad }

/-- An uncorrectable error in a queue RAM word (Table 8-5): the cell is retired and its owner loses it, a point 4 failure. Cells held for
the verdict of a cell lost from a read cursor go with it and are counted beside it (R585). -/
def loseCell (s : State) (i : Nat) : State :=
  let x := s.cell i
  match x.owner with
  | .free => retireCell s i
  | .sys _ => dropSystem s i
  | .circ c =>
    let s := markRetire (sleeveFail s 4 c i true x.sleeve 0#32) i
    let mine := match (s.ctx c).rcur with | .held j _ _ => j == i | _ => false
    let held := if mine then (s.ctx c).heldCells else []
    let s := (forList held releaseCell s).countBy 0x2013 0 16 held.length
    letGo { s with outQ := s.outQ.filter (fun o => o.cell != i) } i

/-- A stuck bit in the word (R293, R294). -/
def noteStuck (s : State) (m a : Nat) : State :=
  let s := s.setBit 0x201C 3
  if m = 2 then journal s 0x48 (srcOf 7 2) (bytesBE 4 a)
  else
    let i := if m = 0 then a / 32 else a
    let s := retireCell s i
    journal s 0x46 (srcOf 7 m) (bytesBE 2 i ++ bytesBE 2 (s.fld 0x2004 0 12))

/-- The word was corrected before (R293, R294). -/
def correctedBefore (s : State) (m a : Nat) : Bool :=
  if m = 0 then (s.cell (a / 32)).corrected.contains (a % 32)
  else if m = 1 then (s.cell a).corrected.contains 32
  else s.pool.iramCorrected.contains a

/-- Remember a write-back. -/
def rememberCorrected (s : State) (m a : Nat) : State :=
  if m = 2 then { s with pool := { s.pool with iramCorrected := a :: s.pool.iramCorrected } }
  else
    let i := if m = 0 then a / 32 else a
    let x := s.cell i
    s.setCell i { x with corrected := (if m = 0 then a % 32 else 32) :: x.corrected }

/-- A scrub read has shown a correctable error (R291, R293, R294): a recurrence after a write-back is a stuck bit. Where traffic has
written the word before the write-back, nothing is written back (R298). -/
def scrubCorrect (s : State) (m a : Nat) (wrote : Bool) : State :=
  let s := noteEcc s m a false
  if correctedBefore s m a then noteStuck s m a else if wrote then s else rememberCorrected s m a

/-- One scrub read (R291–R298); only a full-speed pass reads a word again after its write-back (R299). -/
def scrubRead (s : State) (m a : Nat) (wrote : Bool) : EccRead → State
  | .sound => s
  | .corrected => scrubCorrect s m a wrote
  | .stuck =>
    if s.pool.fullPass && !wrote then noteStuck (noteEcc (noteEcc s m a false) m a false) m a else scrubCorrect s m a wrote
  | .uncorrectable =>
    let s := noteEcc s m a true
    if m = 0 then poisonCell s (a / 32) (a % 32)
    else if m = 1 then loseCell s a
    else { s with pool := { s.pool with iramBad := a :: s.pool.iramBad } }

/-- A memory error that has come about in a memory without a scrubber (Table 8-5): a general register or a stock ROM word, for the
context that reads it next (a system context, of whose program no step is given, faults at once); a CAN message object's word at once
(R468). The other memory that Table 8-5 names, the route table, is given no
effect by its chapter. -/
def takeUpset (s : State) : Upset → State
  | .greg x r => if sysLive s x.val then ctxFault s x.val 4 else modCtx s x.val (fun k => { k with gBad := r.val :: k.gBad.filter (· != r.val) })
  | .rom a => { s with pool := { s.pool with romBad := (0x4000 + a.val) :: s.pool.romBad.filter (· != 0x4000 + a.val) } }
  | .msg ch i word bad => canMemError s ch.val i.val word.val bad

/-- SCRUB_WORD (R297–R299): the scrubber reads its next word; `r` is what the read showed, `behind` that it is more than 256
words behind its rate, `wrote` that traffic writes the word between the read and a write-back. At the end of a pass PASSES counts, and a
full-speed pass ends. RATE 0 stops all but a full-speed pass. `hits` are the errors that have come about elsewhere since (log entry 43). -/
def execScrubWord (r : EccRead) (behind : Bool) (s : State) (wrote : Bool := false) (hits : List Upset := []) : Res :=
  let s := forList hits takeUpset s
  if s.fld 0x2019 0 8 = 0 ∧ s.pool.fullPass = false then .next s
  else
    let w := scrubWhere s.pool.scrubPos
    let s := scrubRead (s.setBit 0x201B 17 behind) w.1 w.2 wrote r
    let s := { s with pool := { s.pool with scrubPos := s.pool.scrubPos + 1 } }
    .next (if s.pool.scrubPos < 151552 then s
      else
        let s := { s with pool := { s.pool with scrubPos := 0, fullPass := false } }
        ((s.count 0x201B 0 16).setBit 0x201B 16 false).setBit 0x201C 4)

/-- FULL (R299): a full-speed pass from word 0; one that runs, be it a self-audit's, goes on. -/
def doFull (s : State) : State :=
  if s.bit 0x201B 16 then s
  else { s with pool := { s.pool with fullPass := true, scrubPos := 0 } }.setBit 0x201B 16
def execFull (s : State) : Res := .next (viaHost s (fun s => doFull s))

/-- INTEGRITY_CLRCNT (R297): CEL_SLVCNT0 to CEL_SLVCNT2 and CEL_ECC0 to CEL_ECC2. -/
def doIntegrityClrcnt (s : State) : State :=
  forList [0x2011, 0x2012, 0x2013, 0x2015, 0x2016, 0x2017] (fun s a => s.setReg a 0#32) s
def execIntegrityClrcnt (s : State) : Res := .next (viaHost s (fun s => doIntegrityClrcnt s))

end Sys2Proof.Machine
end

