-- ==== Sys2Proof/Machine/Supervise.lean ====
section
/-! DEFINITION. Sys2Proof/Machine/Supervise.lean: the supervisor: watchdog, supply, battery and temperature, storms and
gloving, the self-audit, and the fault pin (chapter 16). -/
namespace Sys2Proof.Machine

/-! ## Waking from DORMANT (R126, R553) -/

/-- A wake source is seen before ports are live: its CLK_WAKESRC bit; the first one begins the wake and clears what the last
wake recorded. A character lost before its port is armed counts in CLK_WAKESRC.LOST too (R128). -/
def noteWake (s : State) (bit : Nat) : State :=
  if s.power.st != .dormant then s
  else
    let s := if s.power.waking then s
      else forEach 16 (fun s n => if present s n && pEn s n then modPort s n (fun p => { p with wakeArm := true }) else s)
        { s.setReg 0x206 0#32 with power := { s.power with waking := true } }
    s.setBit 0x206 bit

/-! ## Watchdog (R548, R549) -/

/-- The watchdog counts: armed, the PLL locked, not in DORMANT. -/
def wdCounts (s : State) : Bool := s.sup.wdRun && !s.power.relock && s.power.st != .dormant

/-- WATCHDOG_WARNING: half of TIMEOUT has passed; `late` names the system contexts that had not marked progress. -/
def execWatchdogWarning (late : BitVec 8) (s : State) : Res :=
  if wdCounts s && late != 0#8 then
    let s := { s with sup := { s.sup with progress := 255 - late.toNat } }
    .next (journal ((s.setBit 0x302 0).count 0x322 0 16) 0x22 0 [late])
  else .next s

/-- WATCHDOG_RESET: TIMEOUT has passed; WDLAST is stored in HOLD, and reset is asserted with cause 3. -/
def execWatchdogReset (late : BitVec 8) (s : State) : Res :=
  if wdCounts s && late != 0#8 then .next (assertReset { s with hold := { s.hold with wdlast := late.toNat } } 3) else .next s

/-! ## Supply, battery, temperature (R550–R553) -/

/-- SUPPLY_WARNING: VDDIO crosses below VWARN. -/
def execSupplyWarning (s : State) : Res :=
  if s.power.vlow then .next s
  else
    let s := { s with power := { s.power with vlow := true } }
    let s := journal (s.setBit 0x302 1) 0x23 0 (bytesBE 4 (s.reg 0x305).toNat)
    .next (noteWake (raiseFault s 2) 19)

/-- SUPPLY_WARNING_RISE: VDDIO is back above the rising threshold; the 10 s begin. -/
def execSupplyWarningRise (s : State) : Res := .next { s with power := { s.power with vlow := false } }

/-- SUPPLY_FAULT_CLEAR: the 10 s have passed, and 600 s since the last brownout reset. -/
def execSupplyFaultClear (s : State) : Res :=
  let recent := match s.hold.brownTimes.getLast? with | some t => withinSeconds 600 t s.now | none => false
  if s.power.vlow || recent then .next s else .next (clearFault s 2)

/-- VOLTAGE_MEASURE: the two supplies in mV, when no strap measurement runs. -/
def execVoltageMeasure (vddio vbat : BitVec 12) (s : State) : Res :=
  if s.strap.measuring || !s.boot.strapped then .next s
  else
    let s := (s.setFld 0x305 0 12 vddio.toNat).setFld 0x305 16 12 vbat.toNat
    let lim := s.fld 0x307 16 12
    .next (if !s.power.batOk then s
      else if vbat.toNat < lim then
        (if s.sup.vbatArmed then
          journal ({ s with sup := { s.sup with vbatArmed := false } }.setBit 0x302 2) 0x25 0 (bytesBE 4 (s.reg 0x305).toNat)
        else s)
      else if lim + 100 ≤ vbat.toNat then { s with sup := { s.sup with vbatArmed := true } } else s)

/-- TEMPERATURE_MEASURE: a reading in °C. PEAK is the highest reading since reset (log entry 30). -/
def execTemperatureMeasure (t : BitVec 8) (s : State) : Res :=
  let peak : BitVec 8 := BitVec.ofNat 8 (s.fld 0x306 8 8)
  let top := if s.sup.tempSeen && decide (t.toInt ≤ peak.toInt) then peak else t
  let s := (s.setFld 0x306 0 8 t.toNat).setFld 0x306 8 8 top.toNat
  let s := { s with sup := { s.sup with tempSeen := true } }
  let lim : Int := s.fld 0x307 8 8
  .next (if lim ≤ t.toInt then
      noteWake (raiseFault (journal (s.setBit 0x302 3) 0x26 0 (bytesBE 4 (s.reg 0x306).toNat)) 3) 19
    else if t.toInt ≤ lim - 5 then clearFault s 3 else s)

/-! ## Storms and gloving (R555–R559, R563) -/

/-- STORM_DRAIN: a bucket loses one. -/
def execStormDrain (n : PortId) (s : State) : Res :=
  let b := s.fld (pglAddr n.val) 0 8
  let s := s.setFld (pglAddr n.val) 0 8 (b - 1)
  .next (if b ≤ 1 then modPort s n.val (fun p => { p with stormOf := [0, 0, 0, 0] }) else s)

/-- BREAK_STORM: a received break has lasted BRKMAX and the line is still at space. -/
def execBreakStorm (n : PortId) (s : State) : Res :=
  let p := s.port n.val
  if pLive s n.val && p.lineBrk && !p.gloved && s.fld 0x308 16 8 != 0 then .next (storm s n.val) else .next s

/-- A port leaves gloving (R557, R558). -/
def unglove (s : State) (n : Nat) : State :=
  let s := modPort s n (fun p => { p with gloved := false, looping := false, clean := true, gloveEnd := 0 })
  let s := (s.setBit 0x30A n false).setBit 0x302 6
  let s := if (List.range 16).any (fun m => (s.port m).gloved) then s else clearFault s 9
  trunkWatch s .config

/-- What the loopback test sends and must receive (Table 16-2): each character with its error class, 3 for the break. -/
def loopGood (l : List (Byte × Fin 4)) : Bool := l == [(0x55#8, 0), (0xAA#8, 0), (0x00#8, 0), (0xFF#8, 0), (0x00#8, 3)]

/-- SUP_AUDIT0.PORTFAIL of a port. -/
def portFail (s : State) (n : Nat) : Bool := s.bit 0x320 (16 + n)

/-- GLOVE_END: the period has ended; a port with PORTFAIL set first repeats its loopback, which received `loop`: a pass lets
it go, a failure gloves it for 256 s more. -/
def execGloveEnd (n : PortId) (loop : List (Byte × Fin 4)) (s : State) : Res :=
  let n := n.val
  if !(s.port n).gloved then .next s
  else if !portFail s n then .next (unglove s n)
  else if loopGood loop then .next (unglove (s.setBit 0x320 (16 + n) false) n)
  else
    let s := journal s 0x31 (srcOf 1 n) (BitVec.ofNat 8 loop.length :: loop.map (fun e => BitVec.ofNat 8 e.2.val))
    .next (gloveFor s n 256)

/-- GLOVE_CLEAN: the port has run for CLEAN without a storm since it left gloving. -/
def execGloveClean (n : PortId) (s : State) : Res :=
  let p := s.port n.val
  if p.clean && !p.gloved then .next ((modPort s n.val (fun p => { p with clean := false })).setFld (pglAddr n.val) 8 4 0) else .next s

/-- SUP_RELEASE: ports leave gloving; one with PORTFAIL set begins its loopback repeat, which GLOVE_END ends. -/
def doSupRelease (s : State) (ports : Nat) : State :=
  forEach 16 (fun s n =>
    if ports.testBit n && (s.port n).gloved then
      (if portFail s n then modPort s n (fun p => { p with looping := true }) else unglove s n)
    else s) s
def execSupRelease (ports : BitVec 16) (s : State) : Res := .next (viaHost s (fun s => doSupRelease s ports.toNat))

/-! ## Self-audit (R560–R564, Table 16-2) -/

/-- The strap check: each pin's two readings, of eight conversions each; the second counts where the first lies between windows (R41). -/
def auditStraps (s : State) (r : List (Conversions × Conversions)) : Nat × State :=
  let mv (k : Nat) : Nat := match r[k]? with
    | some (a, b) => if (levelOf (meanOf a)).isSome then meanOf a else meanOf b
    | none => 0
  let t := settlePins s ((List.range 6).map mv)
  (wordOfBits ((List.range 6).map (fun k => t.1 / 2 ^ (4 * (5 - k)) % 16 != s.fld 0x100 0 24 / 2 ^ (4 * (5 - k)) % 16)), t.2)

/-- A word that the pass shows with a stuck bit: a recurrence at once, or of an error corrected before (R293). -/
def auditStuck (s : State) (w : Nat) (r : EccRead) : Bool :=
  r == .stuck || (r == .corrected && correctedBefore s (scrubWhere w).1 (scrubWhere w).2)

/-- What a pass found: corrected, stuck, uncorrectable. -/
structure Found where
  corr : Nat := 0
  stuck : Nat := 0
  uncorr : Nat := 0
  deriving DecidableEq, Repr

/-- The memory check: one full-speed pass, of which `mem` lists the words that were not sound. A pass that runs is merged with
it (R299). -/
def auditMemory (s : State) (mem : List (Fin 151552 × EccRead)) : Found × State :=
  let r := mem.foldl (fun (t : Found × State) e =>
    let w := e.1.val
    let f := t.1
    let f := if auditStuck t.2 w e.2 then { f with stuck := f.stuck + 1 }
      else match e.2 with
        | .corrected => { f with corr := f.corr + 1 }
        | .uncorrectable => { f with uncorr := f.uncorr + 1 }
        | _ => f
    (f, scrubRead t.2 (scrubWhere w).1 (scrubWhere w).2 false e.2)) ({}, s)
  let s := { r.2 with pool := { r.2.pool with scrubPos := 0, fullPass := false } }
  (r.1, ((s.count 0x201B 0 16).setBit 0x201B 16 false).setBit 0x201C 4)

/-- The verdict (R561): 3 FAIL, 2 PASS WITH FINDINGS, 1 PASS; its registers, event, time, record and fault (R562). `kind` is 1
for an audit at run time, which judges without ports. -/
def auditVerdict (s : State) (kind dis ports retired : Nat) (f : Found) : State :=
  let fail := dis != 0 || (kind == 0 && ports != 0) || f.stuck != 0 || f.uncorr != 0
  let finds := s.fld 0x104 0 6 != 0 || s.fld 0x104 8 6 != 0 || s.fld 0x104 16 6 != 0 || s.fld 0x104 24 2 != 0 || f.corr != 0
  let res := if fail then 3 else if finds then 2 else 1
  let s := s.setReg 0x320 (BitVec.ofNat 32 (res + 4 * kind + 256 * dis + 65536 * ports))
  let c (v : Nat) : Nat := min 255 v
  let s := s.setReg 0x321 (BitVec.ofNat 32 (c f.corr + 2 ^ 8 * c f.stuck + 2 ^ 16 * c f.uncorr + 2 ^ 24 * c retired))
  let s := { s.setBit 0x302 7 with sup := { s.sup with auditTime := s.now, audit := 0 } }
  let s := journal s (if fail then 0x29 else 0x28) 0 (bytesBE 4 (s.reg 0x104).toNat ++ [BitVec.ofNat 8 dis] ++ bytesBE 2 ports ++
    bytesBE 4 (s.reg 0x321).toNat ++ bytesBE 2 s.hold.resets ++ bytesBE 2 s.hold.brown)
  putFault s 4 fail

/-- The checks of an audit, and its verdict. -/
def runAudit (s : State) (kind ports : Nat) (straps : List (Conversions × Conversions)) (mem : List (Fin 151552 × EccRead)) : State :=
  let a := auditStraps s straps
  let before := retiredCount a.2
  let m := auditMemory a.2 mem
  auditVerdict m.2 kind a.1 ports (retiredCount m.2 - before) m.1

/-- SELF_AUDIT (R560): after a brownout reset, between step 6 and step 8: what the straps read, what the memory pass showed, what
each port's loopback received. -/
def execSelfAudit (straps : List (Conversions × Conversions)) (mem : List (Fin 151552 × EccRead)) (loops : List (List (Byte × Fin 4)))
    (s : State) : Res :=
  if !(s.boot.scanned && s.boot.brownout && !s.boot.audited && !s.boot.mantled) then .next s
  else
    let bad := wordOfBits ((List.range 16).map (fun n => present s n && !loopGood ((loops[n]?).getD [])))
    let s := runAudit s 0 bad straps mem
    .next { s with boot := { s.boot with audited := true } }

/-- An audit begins, of `kind` 1 after a brownout reset, 2 at run time: its memory check starts a full-speed pass (R299). -/
def beginAudit (s : State) (kind : Nat) : State := doFull { s with sup := { s.sup with audit := kind } }

/-- The strobe of SUP_CTL.AUDIT: an audit at run time begins. -/
def doAudit (s : State) : State := if s.boot.live then beginAudit s 2 else s

/-- AUDIT (R564): the audit at run time, with what it found; PORTFAIL stays. -/
def execAudit (straps : List (Conversions × Conversions)) (mem : List (Fin 151552 × EccRead)) (s : State) : Res :=
  if s.boot.live && (s.sup.audit == 2 || hostReach s) then .next (runAudit (doAudit s) 1 (s.fld 0x320 16 16) straps mem) else .next s

/-! ## Strobes of SUP_CTL, and the fault pin (R562, R566, R567) -/

/-- ACK: the audit and the system program faults clear. -/
def doAck (s : State) : State := clearFault (clearFault s 4) 6
def execAck (s : State) : Res := .next (viaHost s (fun s => doAck s))

/-- LAMPTEST: STAT high and FAULT_N low for 2 s. -/
def doLamptest (s : State) : State := { s with sup := { s.sup with lamp := true } }
def execLamptest (s : State) : Res := .next (viaHost s (fun s => doLamptest s))

/-- LAMPTEST_END: the patterns begin anew. -/
def execLamptestEnd (s : State) : Res :=
  if s.sup.lamp then .next (showFault { s with sup := { s.sup with lamp := false } }) else .next s

/-- SUP_CLRCNT: WDWARN, SUP_CNT1 and every STORMS field (chapter 16, Register reference). -/
def doSupClrcnt (s : State) : State :=
  forEach 16 (fun s n => s.setFld (pglAddr n) 25 7 0) ((s.setFld 0x322 0 16 0).setReg 0x323 0#32)
def execSupClrcnt (s : State) : Res := .next (viaHost s (fun s => doSupClrcnt s))

/-- SYSTEM_FAULT_CLEAR (Table 16-4, code 6): 600 s with no system context fault. -/
def execSystemFaultClear (s : State) : Res :=
  let recent := match s.sup.sysFaults.getLast? with | some t => withinSeconds 600 t s.now | none => false
  if recent then .next s else .next (clearFault s 6)

/-- FAULT_N_CYCLE_END (R566). -/
def execFaultNCycleEnd (s : State) : Res := if s.sup.lamp then .next s else .next (showFault s)

end Sys2Proof.Machine
end

