-- ==== Sys2Proof/Machine/StartUp.lean ====
section
/-! DEFINITION. Sys2Proof/Machine/StartUp.lean: the steps of start-up from PLL lock to live ports (Table 4-6), loss of lock and
relock (Table 4-8), and the power states (R122–R128). -/
namespace Sys2Proof.Machine

/-! ## Steps 4 to 7 and 9 -/

/-- The provisional level of pin `k`: the nearer-voltage test settles a boundary reading. -/
def provLevel (s : State) (k : Nat) : Nat := (settleLevel ((s.strap.mv[k]?).getD 0) none).1

/-- What the provisional levels give before step 6: the host port's mode and AUTHREQ (log entry 31). -/
def putProvisional (s : State) : State :=
  let f := provLevel s 5
  let s := s.setFld 0x105 9 2 (if f % 4 = 3 then 0 else f % 4)
  (s.setBit 0x2400 3 (decide (8 ≤ f)))

/-- Every UART trunk takes the nonce of this start-up (R494). -/
def takeNonces (s : State) : State :=
  let t := forList [2, 3, 4, 5] (fun t k => t.setTrunk k { t.trunk k with nonce := newNonce s k }) s
  { t with fresh := t.fresh + 1 }

/-- PLL_LOCKED (R101, R104, R118, R335, R364): the host port answers, the memories are initialised and the attached ones
identified, the system contexts start. `fit` is what stands on the memory port, or none where that has not changed. In a wake the
lock is step 3 of Table 4-7, after which TIME takes the count at a HOLD tick. -/
def execPllLocked (fit : Option MemFit) (s : State) : Res :=
  if s.power.waking then .next (if s.bit 0x200 0 then s.setBit 0x200 1 else s)
  else if !(s.boot.started && s.boot.strapped && s.bit 0x200 0 && !s.boot.hostUp) then .next s
  else
    let s := clearFault (s.setBit 0x200 1) 1
    let s := { s with boot := { s.boot with hostUp := true, memUp := true, retrying := false } }
    let s := takeNonces (putProvisional (putCodes s s.strap.aux))
    let s := match fit with | some f => attach s f | none => s
    .next (startSystem (identify s))

/-- Records staged before the scan are lost where it finds no memory (R380). -/
def loseStaged (s : State) : State :=
  if jMem s != 0 then s
  else
    let l := s.jnl.staged
    let s := forList s.jnl.waiting (fun s _ => loseRecord s) { s with jnl := { s.jnl with staged := [], waiting := [] } }
    forList l (fun s e => releaseCell (loseRecord s) e.2) s

/-- TXSEQ of every circuit from its high-water mark (R268). -/
def startSeqs (s : State) : State :=
  forEach 64 (fun s c =>
    let q := match fget (fun _ => none) s.jwrite.marks c with | some m => (m + 1024) % 65536 | none => 0x400
    s.setCirc c { s.circ c with txseq := q, tombSeq := q }) s

/-- A chain read as the eight words of a chain cycle. -/
def chainWords (v : BitVec 256) : List Word := (List.range 8).map (fun k => BitVec.ofNat 32 (chainField v (32 * k) 32))

/-- JOURNAL_BOOT_SCAN (R48, R57, R118, R378, R391): the ring is scanned, the straps are resolved, a claimed header is written; where they select it, the chain's two
cycles run and read `a` and `b`; the Mantle layer is computed, and after a brownout reset the self-audit begins (R560). -/
def execJournalBootScan (a b : BitVec 256) (s : State) : Res :=
  if !s.boot.memUp || s.boot.scanned then .next s
  else
    let s := scanJournal s
    let s := startSeqs (loseStaged { s with boot := { s.boot with scanned := true } })
    let s := if s.boot.retries = 0 then s else journal s 0x21 0 (bytesBE 2 (min 65535 s.boot.retries))
    let s := loseStaged (settleClaim (resolveStraps s a b))
    let s := if s.bit 0x105 11 then chainCycle (chainCycle s (chainWords a)) (chainWords b) else s
    let s := computeMantle s
    .next (if s.boot.brownout then beginAudit s 1 else s)

/-- IMAGE_LOAD (R325, R328): no load is attempted where no flash is present. The context table joins the Mantle layer. -/
def execImageLoad (s : State) : Res :=
  if !s.boot.scanned || s.boot.imaged then .next s
  else
    let s := { s with boot := { s.boot with imaged := true } }
    if !s.bit 0x3001 0 then .next s
    else match loadImage true s 0 with
      | (some k, s) =>
        let t := ctxTable s k
        let m := t.1.foldl (fun m e => fset resetWord m (xAddr e.1 0) e.2) t.2.strap.mantle
        .next { t.2 with strap := { t.2.strap with mantle := m } }
      | (none, s) => .next s

/-- PORTS_LIVE (step 9; R50, R116, R118, R335, R497, R548, R563): contexts of running circuits start, CAN channels integrate, the
address is claimed, ports with PORTFAIL are gloved at level 8, the run marker is set, the records are made. -/
def execPortsLive (s : State) : Res :=
  if !(s.boot.mantled && !s.boot.live && !s.power.relock) then .next s
  else
    let s := { s with boot := { s.boot with live := true }, commit := { s.commit with liveTime := s.now },
                      hold := { s.hold with runMarker := true, outage := false }, sup := { s.sup with wdRun := true } }
    let s := forEach 64 (fun s c => if (s.circ c).st == .run then startCtx s c else s) s
    let s := integrate (integrate s 0 true .restart) 1 true .restart
    let s := claimReq (trunkWatch s .config)
    let s := forEach 16 (fun s n => if present s n && portFail s n then gloveFor (s.setFld (pglAddr n) 8 4 8) n 256 else s) s
    .next (journal (writeLkg s) 0x20 0 (bytesBE 4 (rstCause s).toNat ++ [BitVec.ofNat 8 s.hold.wdlast]))

/-! ## Loss of lock and relock (R102, R130, R131, Table 4-8) -/

/-- A port whose clock stops in mid-character loses what it was sending and receiving; it arms anew (R131, R176). -/
def cutPort (s : State) (n : Nat) : State :=
  if !pLive s n then s
  else
    let s := if (s.port n).tx == .char then loseChar s n else s
    let s := if (s.port n).rxBusy then loseChar s n else s
    modPort s n (fun p => { disarm p with line := [] })

/-- The relock sequence begins. -/
def unlock (s : State) : State :=
  let s := (s.setBit 0x200 1 false).setBit 0x205 4
  let s := forEach 16 cutPort s
  let s := { s with power := { s.power with relock := true }, hold := holdTakes s.hold }
  let s := match s.mem.active with
    | some k => { s with mem := { s.mem with active := none, again := some k } }
    | none => s
  trunkWatch (canRelock (canRelock s 0) 1) .relock

/-- The PLL is locked and the device is neither relocking nor DORMANT. -/
def lockedNow (s : State) : Bool := s.boot.hostUp && s.bit 0x200 1 && !s.power.relock && s.power.st != .dormant

/-- PLL_UNLOCK (R102). -/
def execPllUnlock (s : State) : Res := if lockedNow s then .next (unlock s) else .next s

/-- ROOT_LOST (R102): a lost ROOT also unlocks the PLL. -/
def execRootLost (s : State) : Res :=
  if s.power.st == .dormant then .next s
  else
    let on := lockedNow s
    let s := s.setBit 0x200 0 false
    if on then
      let t := unlock s
      .next { t with power := { t.power with rootLost := true } }
    else .next { s with power := { s.power with rootLost := s.power.rootLost || s.power.relock } }

/-- PLL_RELOCK: the domains are released, held work proceeds. -/
def execPllRelock (s : State) : Res :=
  if !s.power.relock then .next s
  else
    let lost := s.power.rootLost
    let s := (((s.setBit 0x200 0).setBit 0x200 1).setBit 0x205 5).count 0x208 0 16
    let s := if lost then s.setBit 0x205 6 else s
    let s := { s with power := { s.power with relock := false, rootLost := false } }
    let s := forEach 16 (fun s n => if pLive s n && (s.port n).tx != .idle then txDecide n 4 s else s) s
    .next (settleAll (trunkWatch s .relock))

/-! ## QUIET (R122, R123) -/

/-- No context executes. -/
def allWait (s : State) : Bool := (List.range 72).all (fun x => (s.ctx x).st != .run)

/-- QUIET_ENTER: QUIETEN is set, every port is idle, every context waits. -/
def execQuietEnter (s : State) : Res :=
  if s.power.st == .run && s.boot.live && !s.power.relock && s.bit 0x202 0 && allWait s &&
      (List.range 16).all (fun n => (s.port n).tx == .idle && !(s.port n).rxBusy)
  then .next { s with power := { s.power with st := .quiet } } else .next s

/-- QUIET_EXIT: traffic reaches a gated part. -/
def execQuietExit (s : State) : Res :=
  if s.power.st == .quiet then .next { s with power := { s.power with st := .run } } else .next s

/-! ## DORMANT (R124–R128) -/

/-- A port's transmitter holds nothing: no character, break or egress cell. -/
def txEmpty (s : State) (n : Nat) : Bool :=
  let p := s.port n
  p.tx == .idle && p.txHold.isNone && !p.brkReq && p.flowQ.isNone && p.txCell.isNone && (egressHeads s n).isEmpty &&
  !((portTrunk s n).any (trunkReady s))

/-- The conditions of R125. -/
def mayRest (s : State) : Bool :=
  (List.range 16).all (fun n => !present s n || txEmpty s n) &&
  (List.range 128).all (fun i => !(s.obj 0 i).pend && !(s.obj 1 i).pend) &&
  s.mem.active.isNone && (waitingKinds s).all (·.isNone) && s.jwrite.sealed.isNone && s.jwrite.ckpt.isNone &&
  !s.host.selected && allWait s && (List.range 4).all (fun g => !(s.group g).switching) &&
  s.commit.staged.isEmpty && s.commit.queued.isEmpty

/-- DORMANT_ENTER: the request is pending and its conditions have held for 64 CORE cycles. TPO is driven low, HIRQ_N holds its level
(Table 3-2). -/
def execDormantEnter (s : State) : Res :=
  if s.bit 0x200 4 && s.boot.live && !s.power.relock && s.power.st != .dormant && mayRest s then
    let s := forEach 16 cutPort s
    let s := ((s.setBit 0x200 4 false).setBit 0x200 0 false).setBit 0x200 1 false
    let irq := hirq s
    .next { s with power := { s.power with st := .dormant, waking := false, slowWake := false }, hold := holdTakes s.hold,
                   host := { s.host with irqHeld := irq }, tim := { s.tim with tpo := false, tpoOn := false },
                   mem := { s.mem with parked := none } }
  else .next s

/-- A wake: the sources seen, as CLK_WAKESRC numbers them: start edges 15:0, the HSEL_N fall 16, WAKE 17, a supervisor alarm
19. Only an enabled one begins a wake; from then on every one seen is recorded. Each start edge costs its port a character, and
a host frame in progress is discarded (R75, R128). -/
def doWake (s : State) (src : BitVec 20) : State :=
  if s.power.st != .dormant then s
  else
    let edge (n : Nat) : Bool := src.getLsbD n && present s n && pEn s n
    let hsel := src.getLsbD 16 && s.fld 0x105 9 2 != 2
    let wakes := (List.range 16).any (fun n => edge n && s.bit 0x203 n) || (hsel && s.bit 0x203 16) ||
      (src.getLsbD 17 && s.bit 0x203 17) || src.getLsbD 19
    if !(s.power.waking || wakes) then s
    else
      let s := forEach 16 (fun s n => if edge n then loseChar (noteWake s n) n else s) s
      let s := if hsel then
          let t := noteWake s 16
          { t with host := { t.host with selected := true, discard := true } }
        else s
      let s := if src.getLsbD 17 then noteWake s 17 else s
      if src.getLsbD 19 then noteWake s 19 else s
/-- WAKE_EVENT. -/
def execWakeEvent (src : BitVec 20) (s : State) : Res := .next (doWake s src)

/-- DORMANT_TIMER_EXPIRY (R126). -/
def execDormantTimerExpiry (s : State) : Res :=
  if s.power.st == .dormant && s.fld 0x202 16 16 != 0 then .next (noteWake s 18) else .next s

/-- SLOW_WAKE (R127). -/
def execSlowWake (s : State) : Res :=
  if s.power.waking && !s.power.slowWake then
    let s := { s with power := { s.power with slowWake := true } }
    .next ((s.setBit 0x205 8).count 0x208 16 16)
  else .next s

/-- A channel that was on the bus integrates again (R127). -/
def rejoin (s : State) (ch : Nat) : State :=
  if (s.can ch).st == .active || (s.can ch).st == .passive then integrate s ch false .restart else s

/-- WAKE_COMPLETE (Table 4-7): ports are live, which item 0x0003 of the mailbox dates; CAN channels begin integration. -/
def execWakeComplete (s : State) : Res :=
  if !s.power.waking then .next s
  else
    let s := { s with power := { s.power with st := .run, waking := false, slowWake := false },
                      commit := { s.commit with liveTime := s.now } }
    let s := ((s.setBit 0x200 0).setBit 0x200 1).setBit 0x205 7
    let s := rejoin (rejoin s 0) 1
    .next (settleAll (trunkWatch s .restart))

end Sys2Proof.Machine
end

