-- ==== Sys2Proof/Machine/Strobes.lean ====
section
/-! DEFINITION. Sys2Proof/Machine/Strobes.lean: a register write and everything it sets off (R15, R17, R137), the read-modify-write
(R138), and the plain register commands. Where one write sets several strobes of a word, they act in the order written here
(log entry 32). -/
namespace Sys2Proof.Machine

/-- HOST_CLRCNT: zero HST_ERR0 to HST_ERR3. -/
def doHostClrcnt (s : State) : State := forEach 4 (fun s i => s.setReg (0x404 + i) 0#32) s
def execHostClrcnt (s : State) : Res := .next (viaHost s (fun s => doHostClrcnt s))

/-- Do `f` where bit `i` of `w` is 1: a strobe (R15). -/
def onBit (w : Word) (i : Nat) (f : State → State) (s : State) : State := if w.getLsbD i then f s else s

/-- CLK_CTL (Table 4-12): RSTGO resets where it was armed; a write that sets RSTARM with it arms and does not reset. -/
def strobeClk (s : State) (w : Word) : State :=
  if w.getLsbD 5 && !w.getLsbD 4 && s.power.rstArmed then doRstgo s
  else onBit w 1 doDcancel (onBit w 0 doDormant (onBit w 4 doRstarm s))

/-- A write through the instruction RAM window replaces the word, and taints where authentication is required (R135, R329). -/
def iramWritten (s : State) (i : Nat) : State :=
  let s := { s with pool := { s.pool with iramBad := s.pool.iramBad.filter (· != i) } }
  if authReq s then (s.setBit 0x2400 6).setBit 0x2408 4 else s

/-- The strobes of a word below 0x800. A mailbox word takes a write only where `mask` covers a bit of its field (R138, R580). -/
def strobeLow (s : State) (a : Nat) (w mask : Word) : State :=
  match a with
  | 0x03 => doCommit s (getF w 0 8)
  | 0x20 => if getF mask 0 16 = 0 then s else doMbxSelect s (getF w 0 16)
  | 0x21 => onBit w 9 doMbxRecapture (onBit w 8 doMbxWrite s)
  | 0x111 => onBit w 1 doHandback (onBit w 0 doMeasure s)
  | 0x204 => strobeClk s w
  | 0x30B => onBit w 3 doSupClrcnt (onBit w 2 doLamptest (onBit w 1 doAudit (onBit w 0 doAck s)))
  | 0x30C => doSupRelease s (getF w 0 16)
  | 0x40C => onBit w 0 doHostClrcnt s
  | _ => if 0x22 ≤ a ∧ a < 0x26 ∧ mask ≠ 0#32 then doMbxData s (a - 0x22) w else s

/-- The strobes of a word of the blocks SEQ, MEM, JNL, FAB and TIM and of block CEL's shared words. -/
def strobeHigh (s : State) (a : Nat) (w : Word) : State :=
  match a with
  | 0x201A => onBit w 1 doIntegrityClrcnt (onBit w 0 doFull s)
  | 0x2401 => onBit w 1 doXipinv (onBit w 0 doLoad s)
  | 0x3008 => onBit w 16 doMemGo s
  | 0x3033 => onBit w 1 doMemClrcnt (onBit w 0 doChaingo s)
  | 0x3105 => onBit w 1 doJnlClrcnt (onBit w 0 doFormat s)
  | 0x400D => onBit w 0 doFabClrcnt (onBit w 2 doRouteupd (onBit w 1 claimReq s))
  | 0x4812 => onBit w 0 doTimClrcnt s
  | _ => s

/-- The strobes of any word; `mask` covers the bits that count as written by the host (R580). -/
def strobes (s : State) (a : Nat) (w mask : Word) : State :=
  if absentPort s a then s
  else if a < 0x800 then strobeLow s a w mask
  else if a < 0xC00 then
    let n := (a - 0x800) / 64
    if a % 64 = 0x11 then
      onBit w 2 (fun s => doPortClrcnt s n) (onBit w 1 (fun s => doClose s n) (onBit w 0 (fun s => doSendbrk s n) s))
    else s
  else if 0x1000 ≤ a ∧ a < 0x2000 then
    let c := (a - 0x1000) / 64
    if a % 64 = 0x0C then
      onBit w 2 (fun s => doCircuitClrcnt s c) (onBit w 1 (fun s => doRestart s c) (onBit w 0 (fun s => doCut s c) s))
    else s
  else if 0x2800 ≤ a ∧ a < 0x2C00 then
    if a % 16 = 1 then doSeqCtl s ((a - 0x2800) / 16) (w.getLsbD 0) (w.getLsbD 1) (w.getLsbD 2) (w.getLsbD 3) else s
  else if 0x5000 ≤ a ∧ a < 0x6000 then
    let ch := (a - 0x5000) / 0x800
    let o := a % 0x800
    if o = 6 then onBit w 1 (fun s => doCanClrcnt s ch) (onBit w 0 (fun s => doRecover s ch) s)
    else if 0x400 ≤ o ∧ o % 8 = 3 then
      let i := (o - 0x400) / 8
      onBit w 1 (fun s => doCancel s ch i) (onBit w 0 (fun s => doTxreq s ch i) s)
    else s
  else if 0xC000 ≤ a then (if mask = 0#32 then s else iramWritten s (a - 0xC000))
  else strobeHigh s a w

/-- A write of word `a` (R15, R17, R156): its RB fields land in the shadow, its RW fields at once, and its strobes act. `mask`
covers the bits that count as written by the host (R580). -/
def writeWord (s : State) (a : Nat) (w mask : Word) : State := strobes (writeRW s a w mask) a w mask

/-- REGISTER_WRITE (R156). -/
def execRegisterWrite (a : BitVec 16) (w : Word) (s : State) : Res := .next (viaHost s (fun s => writeWord s a.toNat w 0xFFFFFFFF#32))

/-- READ_CLEAR (R15, R16): a normal read. -/
def execReadClear (a : BitVec 16) (s : State) : Res := .next (viaHost s (fun s => (normalRead s a.toNat).2))

/-- IRAM_WINDOW_WRITE (R135, R329). -/
def execIramWindowWrite (i : Fin 16384) (w : Word) (s : State) : Res := .next (viaHost s (fun s => writeWord s (0xC000 + i.val) w 0xFFFFFFFF#32))

/-- What a read-modify-write reads (R138): RB fields from the shadow whatever view is selected, the others as a read does. -/
def rmwOld (s : State) (a : Nat) : Word :=
  if absentPort s a then 0#32 else (liveWord s a &&& ~~~ accMask .rb a) ||| (s.shad a &&& accMask .rb a)

/-- A read-modify-write (R138): the old value, and the state with (old AND NOT mask) OR (value AND mask) written. -/
def rmwWord (s : State) (a : Nat) (mask value : Word) : Word × State :=
  let old := rmwOld s a
  (old, writeWord (normalRead s a).2 a ((old &&& ~~~mask) ||| (value &&& mask)) mask)

end Sys2Proof.Machine
end

