-- ==== Sys2Proof/Machine/Host.lean ====
section
/-! DEFINITION. Sys2Proof/Machine/Host.lean: the host port (chapter 12): framed frames and their commands, chain frames and theirs,
the select's fall and release, and the completion of replies. -/
namespace Sys2Proof.Machine

/-! ## Frames and their fields (R395, R396, R399, Table 12-1) -/

/-- The fields of H0. -/
def fOp (f : HostFrame) : Nat := getF f.h0 28 4
def fTag (f : HostFrame) : Nat := getF f.h0 20 8
def fAgain (f : HostFrame) : Bool := f.h0.getLsbD 19
def fInc (f : HostFrame) : Bool := f.h0.getLsbD 18
/-- N, the number of words (R395). -/
def fN (f : HostFrame) : Nat := getF f.h0 0 6 + 1

/-- Wd: the data words that H0 and H1 announce, whether or not their other fields are legal (R395). -/
def wordsDue (h0 h1 : Word) : Nat :=
  match getF h0 28 4 with
  | 2 => getF h0 0 6 + 1
  | 5 => getF h0 0 6 + 1
  | 3 => 2
  | 4 => if h1.getLsbD 16 then 4 else 0
  | _ => 0

/-- The frame is a complete host phase: it has the data words that it announces. -/
def wholeFrame (f : HostFrame) : Bool := f.data.length == wordsDue f.h0 f.h1

/-- The CRC-16 of R396 over words and the upper half of a trailer. -/
def crc16 (ws : List Word) (hi : Nat) : Nat := (crcL 16 0x1021#32 0xFFFF#32 (bytesOfWords ws ++ bytesBE 2 hi)).toNat

/-- The host trailer's CRC checks (R396). -/
def crcOk (f : HostFrame) : Bool := crc16 (f.h0 :: f.h1 :: f.data) (getF f.trailer 16 16) == getF f.trailer 0 16

/-- The H0 fields that every command keeps: bits 17:6 zero, INC only for RD and WR, N only for RD, WR and PUSH (Table 12-1). -/
def h0Legal (h0 : Word) : Bool :=
  let op := getF h0 28 4
  getF h0 6 12 == 0 && (!h0.getLsbD 18 || op == 1 || op == 2) && (getF h0 0 6 == 0 || op == 1 || op == 2 || op == 5)

/-- The H1 of a PUSH (R412). -/
def pushLegal (h0 h1 : Word) : Bool :=
  getF h1 6 2 == 0 && decide (1 ≤ getF h1 8 8) && decide (getF h1 8 8 ≤ 240) && getF h0 0 6 + 1 == (getF h1 8 8 + 3) / 4

/-- The H1 of each command (R407–R412, R415, R418). The upper half of an RMW's H1 is held to be zero as for RD and WR (DEDUCED, log
entry 33). -/
def h1Legal (h0 h1 : Word) : Bool :=
  match getF h0 28 4 with
  | 0 => h1 == 0#32
  | 1 => getF h1 16 16 == 0
  | 2 => getF h1 16 16 == 0
  | 3 => getF h1 16 16 == 0
  | 4 => getF h1 17 15 == 0
  | 5 => pushLegal h0 h1
  | 6 => getF h1 8 8 == 0 && !h1.getLsbD 6
  | 7 => getF h1 17 15 == 0 && (!h1.getLsbD 16 || getF h1 0 16 == 0)
  | _ => false

/-- Every field of the frame is legal (R396, R399). -/
def frameLegal (f : HostFrame) : Bool := h0Legal f.h0 && h1Legal f.h0 f.h1 && getF f.trailer 16 16 == 0

/-! ## The device phase (R397, R398, Tables 12-2 and 12-3) -/

/-- A reply header. -/
def replyHeader (r : Reply) (again rej evt : Bool) : Word :=
  ofFields [(28, r.op), (20, r.tag), (19, b2n again), (18, b2n rej), (17, b2n evt), (16, b2n r.stale), (8, r.status),
    (0, r.data.length)]

/-- A device trailer over the words of its phase: UNDERRUN and UPOS, SLVFAIL, the CRC. -/
def deviceTrailer (ws : List Word) (under : Option Nat) (slv : Bool) : Word :=
  let hi := b2n under.isSome * 2 ^ 15 + (under.getD 0) * 2 ^ 8 + b2n slv * 2 ^ 7
  BitVec.ofNat 32 (hi * 65536 + crc16 ws hi)

/-- The device phase of a reply. -/
def phaseOf (s : State) (r : Reply) (again : Bool) : List Word :=
  let ws := replyHeader r again s.host.rej (hirq s) :: r.data
  ws ++ [deviceTrailer ws none r.slvfail]

/-- The words from position `p` on as they go out where those at the positions `late` had not crossed: each repeats the one sent
before it (R402). -/
def withRepeats (late : List Nat) : Nat → Word → List Word → List Word
  | _, _, [] => []
  | p, prev, w :: t => let v := if late.contains p then prev else w; v :: withRepeats late (p + 1) v t

/-! ## Events and counts of the port (Tables 12-6, 12-14, 12-15) -/

/-- Count in the half `lo` of HST_ERRk and set bit `b` of HST_EVT. -/
def hostErr (s : State) (k lo b : Nat) : State := (s.count (0x404 + k) lo 16).setBit 0x402 b
/-- A frame was refused or broken since the last accepted one (R403). -/
def setRej (s : State) (b : Bool) : State := { s with host := { s.host with rej := b } }

/-- A frame was refused or broken; one that asks AGAIN does not set REJ (R403). -/
def refused (s : State) (again : Bool) : State := if again then s else setRej s true

/-- The CORE domain stands still (R131). -/
def coreStopped (s : State) : Bool := s.power.relock || s.power.st == .dormant

/-- The command of the frame that A answers has not finished, or CORE stands still (R401). -/
def notReadyNow (s : State) : Bool := s.host.running || s.host.cmd.isSome || coreStopped s

/-! ## PUSH (R412–R414) -/

/-- The payload of a PUSH: byte j in bits 31 − 8 (j mod 4) of word j / 4. -/
def pushBytes (h1 : Word) (data : List Word) : List Byte := (bytesOfWords data).take (getF h1 8 8)

/-- HST_PSEQ of circuit `c`. -/
def hostPseq (s : State) (c : Nat) : Nat := s.fld (0x420 + c / 2) (16 * (c % 2)) 16

/-- Judge a PUSH once its H1 has crossed (R413): the status, and the cell it was granted. -/
def judgePush (s : State) (h1 : Word) : Nat × Option Nat × State :=
  let c := getF h1 0 6
  if (s.circ c).st != .run then (4, none, s)
  else if getF h1 16 16 == hostPseq s c then (7, none, s)
  else match allocCirc s c true (2 * 2 ^ 22) .push with
    | (some i, t) => (0, some i, t)
    | (none, t) => (if cCeiling s c ≤ heldBy s c then 5 else 6, none, t)

/-- A PUSH whose frame is not accepted: judged, where CORE runs and its fields are legal, and its open cell freed again (R414). -/
def lostPush (s : State) (h0 h1 : Word) : State :=
  if coreStopped s || getF h0 28 4 != 5 || h0.getLsbD 19 || !h0Legal h0 || !pushLegal h0 h1 then s
  else match judgePush s h1 with
    | (_, some i, t) => releaseCell t i
    | (_, none, t) => t

/-- Write the payload of a PUSH into its open cell as it crosses (R414, R582). `upset` names a payload word that shows an uncorrectable
error from its second byte on. -/
def pushWrite (s : State) (i : Nat) (bs : List Byte) (upset : Option Nat) : Bool × State :=
  match upset with
  | none => let r := writeBytes s i bs 0; (r.1, r.2.2)
  | some w =>
    let s := (writeBytes s i (bs.take (8 * w + 1)) 0).2.2
    let v := wordOfByte (8 * w)
    let s := if 8 * w < bs.length then s.setCell i { s.cell i with bad := v :: (s.cell i).bad } else s
    let r := writeBytes s i (bs.drop (8 * w + 1)) 0
    (r.1, if r.1 then s.setCell i { r.2.2.cell i with bad := (r.2.2.cell i).bad.filter (· != v) } else r.2.2)

/-- An accepted PUSH (R414): the cell takes the bytes and closes with CAUSE 6, and HST_PSEQ takes PSEQ. A merge that meets an
uncorrectable error discards the cell (R582): HST_PSEQ stays, and the reply's STATUS is a free value (log entry 69). -/
def runPush (s : State) (h1 : Word) (data : List Word) (upset : Option Nat) : Nat × State :=
  let c := getF h1 0 6
  match judgePush s h1 with
  | (st, none, t) => (st, t)
  | (st, some i, t) =>
    match pushWrite t i (pushBytes h1 data) upset with
    | (false, t) => ((Config.pushStatus t.fresh).toNat, discardIngress { t with fresh := t.fresh + 1 } c i)
    | (true, t) =>
      let t := closeCell (t.setCell i { t.cell i with holder := .none }) i c 6
      (st, t.setFld (0x420 + c / 2) (16 * (c % 2)) 16 (getF h1 16 16))

/-! ## A frame arrives (R397, R399–R401) -/

/-- The port is in framed mode, answers, and a frame is in progress whose host phase is still to be judged. -/
def framedOpen (s : State) : Bool :=
  s.boot.hostUp && hostMode s == 0 && s.host.selected && !s.host.judged && !s.host.discard && !s.host.early

/-- Accept a frame with OP and TAG: count it, note its tag and time, forget refusals (R399, R403). -/
def acceptFrame (s : State) (tag : Nat) : State :=
  let s := (s.countWrap 0x408).setFld 0x400 8 8 tag
  { s with host := { s.host with rej := false, frameTime := s.now } }

/-- Keep the reply of an accepted frame until the select release; its command runs until HOST_REPLY_COMPLETE. After a reset that
the command itself caused nothing is kept (R430). -/
def keepReply (r : Reply) (s : State) : State :=
  if s.boot.hostUp then { s with host := { s.host with next := some r, running := true } } else s

/-- Judge a whole host phase. A failed CRC drives nothing; a good one is a valid host frame for the hand-back timer (R431); AGAIN
sends P; a command that still runs, or a stopped CORE, gives NOTREADY; else A is sent and `body` is the command. -/
def framed (s : State) (f : HostFrame) (body : State → Reply × State) : State :=
  let s := { s with host := { s.host with judged := true, out := [] } }
  if !crcOk f then lostPush (refused (hostErr s 0 0 0) (fAgain f)) f.h0 f.h1
  else
    let s := restartHandback s
    if fAgain f then { s with host := { s.host with out := phaseOf s s.host.p true } }
    else if notReadyNow s then
      let r : Reply := { op := s.host.a.op, tag := s.host.a.tag, status := 1 }
      let s := { s with host := { s.host with out := phaseOf s r false } }
      lostPush (setRej (hostErr s 2 16 5) true) f.h0 f.h1
    else
      let s := { s with host := { s.host with out := phaseOf s s.host.a false } }
      let r := body (acceptFrame s (fTag f))
      keepReply { r.1 with op := fOp f, tag := fTag f } r.2

/-- A command of the framed port: it comes about only where the port takes a frame and the frame is a whole, legal one of OP `op`
that does not ask AGAIN. -/
def hostCmd (op : Nat) (f : HostFrame) (s : State) (body : State → Reply × State) : Res :=
  if framedOpen s && wholeFrame f && !fAgain f && fOp f == op && frameLegal f then .next (framed s f body) else .next s

/-- A reply with STATUS OK. -/
def okReply (ws : List Word) : Reply := { status := 0, data := ws }

/-! ## NOP, RD, WR, RMW, MBX (R407–R411) -/

/-- HOST_NOP. -/
def execHostNop (f : HostFrame) (s : State) : Res := hostCmd 0 f s (fun s => (okReply [evtSum s], s))

/-- The addresses of N words: rising modulo 65 536 where INC is set, else all the same. -/
def wordAddrs (f : HostFrame) (n : Nat) : List Nat :=
  (List.range n).map (fun i => (getF f.h1 0 16 + (if fInc f then i else 0)) % 65536)

/-- Read words in order (R408). -/
def readWords (s : State) : List Nat → List Word × State
  | [] => ([], s)
  | a :: t =>
    let r := normalRead s a
    let q := readWords r.2 t
    (r.1 :: q.1, q.2)
/-- HOST_RD. -/
def execHostRd (f : HostFrame) (s : State) : Res :=
  hostCmd 1 f s (fun s => let r := readWords s (wordAddrs f (fN f)); (okReply r.1, r.2))

/-- Write words in order (R137, R409); a software reset among them ends the rest. -/
def writeWords (s : State) : List (Nat × Word) → State
  | [] => s
  | (a, w) :: t =>
    let s := writeWord s a w 0xFFFFFFFF#32
    if s.boot.hostUp then writeWords s t else s
/-- HOST_WR. -/
def execHostWr (f : HostFrame) (s : State) : Res :=
  hostCmd 2 f s (fun s => (okReply [], writeWords s ((wordAddrs f (fN f)).zip f.data)))

/-- HOST_RMW. -/
def execHostRmw (f : HostFrame) (s : State) : Res :=
  hostCmd 3 f s (fun s =>
    let r := rmwWord s (getF f.h1 0 16) ((f.data[0]?).getD 0#32) ((f.data[1]?).getD 0#32)
    (okReply [r.1], r.2))

/-- HOST_MBX_READ: MBX_SEL is written, the capture lands, its four words are the reply. -/
def execHostMbxRead (f : HostFrame) (s : State) : Res :=
  if f.h1.getLsbD 16 then .next s
  else hostCmd 4 f s (fun s =>
    let s := doMbxCapture (writeWord s 0x20 (BitVec.ofNat 32 (getF f.h1 0 16)) 0xFFFFFFFF#32)
    (okReply ((List.range 4).map (fun i => s.reg (0x22 + i))), s))

/-- HOST_MBX_WRITE: MBX_SEL is written, the capture lands, the data words are written and WRITE is strobed. -/
def execHostMbxWrite (f : HostFrame) (s : State) : Res :=
  if !f.h1.getLsbD 16 then .next s
  else hostCmd 4 f s (fun s =>
    let s := doMbxCapture (writeWord s 0x20 (BitVec.ofNat 32 (getF f.h1 0 16)) 0xFFFFFFFF#32)
    let ro := mbxRo s (s.fld 0x20 0 16)
    let s := forEach 4 (fun s i => writeWord s (0x22 + i) ((f.data[i]?).getD 0#32) 0xFFFFFFFF#32) s
    ({ status := if ro then 0x0A else 0 }, writeWord s 0x21 0x100#32 0xFFFFFFFF#32))

/-- HOST_PUSH. -/
def execHostPush (f : HostFrame) (s : State) (upset : Option (Fin 30) := none) : Res :=
  hostCmd 5 f s (fun s => let r := runPush s f.h1 f.data (upset.map (·.val)); ({ status := r.1 }, r.2))

/-! ## PULL (R415–R417) -/

/-- The token and cell outstanding for circuit `c`. -/
def tokenOf (s : State) (c : Nat) : Option (Nat × Nat) :=
  (s.host.tokens.find? (fun e => e.1 == c)).map (fun e => e.2)

/-- Circuit `c` is the host port's to pull: bound to host, and served by no CAN object (R415, R454). -/
def pulls (s : State) (c : Nat) : Bool := cKind s c == 3 && (servingObj s c).isNone

/-- The heads of the endpoint queues that the host port pulls from. -/
def hostHeads (s : State) : List (Nat × Nat) :=
  (List.range 64).filterMap (fun c =>
    if pulls s c then (match (s.circ c).queue with | i :: _ => some (c, i) | [] => none) else none)

/-- The circuit that a PULL with ANY takes (R25, R415): the lowest with an outstanding token, else the one whose oldest cell wins
by class with aging, and round-robin within a class. -/
def chooseAny (s : State) : Option Nat :=
  match (List.range 64).find? (fun c => pulls s c && (tokenOf s c).isSome) with
  | some c => some c
  | none =>
    let key (e : Nat × Nat) : Nat := agedClass (s.cell e.2).cls (s.circ e.1).txLoss
    let last (k : Nat) : Nat := ((s.host.lastPull)[k]?).getD 63
    let best := (hostHeads s).foldl (fun b e => match b with
      | none => some e
      | some m =>
        if key e < key m ∨ (key e = key m ∧ afterServed (last (key e)) e.1 < afterServed (last (key m)) m.1) then some e else some m) none
    best.map (fun e => e.1)

/-- Circuit `c` is served among the heads: the losers age (R25). -/
def servePull (s : State) (c : Nat) : State :=
  let k := agedClass (s.cell (((s.circ c).queue.head?).getD 0)).cls (s.circ c).txLoss
  let s := forList (hostHeads s) (fun s e =>
    s.setCirc e.1 { s.circ e.1 with txLoss := if e.1 == c then 0 else (s.circ e.1).txLoss + 1 }) s
  { s with host := { s.host with lastPull := listSet s.host.lastPull k c } }

/-- Issue the next token for a cell (R416). -/
def issueToken (s : State) (c i : Nat) : Nat × State :=
  let t := s.fld 0x40B 16 16
  let s := s.setFld 0x40B 16 16 (if t = 65535 then 1 else t + 1)
  (t, { s with host := { s.host with tokens := s.host.tokens ++ [(c, t, i)] } })

/-- Find the cell that a PULL delivers (R416, R417); none of a circuit that a CAN object serves (R454). A failed pre-verify frees the cell and the choice is made again; `n` bounds
how often. The answer is the circuit, the token and the cell. -/
def findPull (any : Bool) (c : Nat) : Nat → State → Option (Nat × Nat × Nat) × State
  | 0, s => (none, s)
  | n + 1, s =>
    match if any then chooseAny s else if pulls s c then some c else none with
    | none => (none, s)
    | some c =>
      let got : Option (Nat × Nat) × State :=
        match tokenOf s c with
        | some e => (some e, s)
        | none => match (s.circ c).queue with
          | [] => (none, s)
          | i :: _ => (some (0, i), takeHead (if any then servePull s c else s) c i .pull)
      match got with
      | (none, s) => (none, s)
      | (some (tok, i), s) =>
        let x := s.cell i
        if sleeveBad x then
          let un := x.poison || !x.bad.isEmpty
          let s := sleeveFail s 4 c i un x.sleeve (crc32c x.payload)
          findPull any c n (releaseCell (if un then markRetire s i else s) i)
        else if tok = 0 then
          let r := issueToken s c i
          (some (c, r.1, i), r.2)
        else (some (c, tok, i), s)

/-- The words of a delivered cell (Table 12-7). -/
def pullWords (s : State) (c tok i : Nat) : List Word :=
  let x := s.cell i
  let n := x.payload.length
  let b (j : Nat) : Byte := (x.payload[j]?).getD 0#8
  [ofFields [(16, tok), (8, n), (0, cellFlags x)], ofFields [(30, x.cls), (24, c), (0, x.origin)], ofFields [(16, x.seq)],
   ofFields [(0, x.ts)], x.sleeve] ++
  (List.range ((n + 3) / 4)).map (fun j => wordOf4 (b (4 * j)) (b (4 * j + 1)) (b (4 * j + 2)) (b (4 * j + 3)))

/-- The list with its last element replaced. -/
def setLast (l : List Word) (w : Word) : List Word := l.dropLast ++ [w]

/-- The failure of point 5 that a PULL's copy met: an uncorrectable error is reported as any other (R291) and retires the cell. -/
def pullUpset (s : State) (c i : Nat) : CopyUpset → State
  | .unreadable w =>
    let s := readEcc s i (wordOfByte (8 * w.val))
    markRetire (sleeveFail s 5 c i true (s.cell i).sleeve 0#32) i
  | .sum v => sleeveFail s 5 c i false (s.cell i).sleeve v

/-- The copy of cell `i` meets it: the word lies in the payload, or the bytes do not give the sleeve. -/
def upsetMet (s : State) (i : Nat) : CopyUpset → Bool
  | .unreadable w => decide (8 * w.val < (s.cell i).payload.length)
  | .sum v => v != (s.cell i).sleeve

/-- A point 5 failure of a delivery (R417): the last payload word goes as zero, SLVFAIL is set, the cell is freed and its token is
stale. -/
def failPull (s : State) (c tok i : Nat) (stale : Bool) (u : CopyUpset) : Reply × State :=
  let s' := releaseCell (pullUpset s c i u) i
  ({ status := 0, stale := stale, slvfail := true, data := setLast (pullWords s c tok i) 0#32 }, s')

/-- A PULL (R415–R417). `upset` is a point 5 failure met while the cell was copied: none where the copy is sound. -/
def runPull (s : State) (h1 : Word) (upset : Option CopyUpset) : Reply × State :=
  let ack := getF h1 16 16
  let any := h1.getLsbD 7
  let c := getF h1 0 6
  let held := s.host.tokens.find? (fun e => e.2.1 == ack)
  let stale := ack != 0 && held.isNone
  let s := match held with
    | some e => if ack = 0 then s else completeCell s e.2.2
    | none => s
  if !any && (cKind s c != 3 || (s.circ c).st == .disabled) then ({ status := 4, stale := stale }, s)
  else match findPull any c 4096 s with
    | (none, s) => ({ status := 3, stale := stale }, s)
    | (some (c, tok, i), s) =>
      match upset.filter (upsetMet s i) with
      | none => ({ status := 0, stale := stale, data := pullWords s c tok i }, s)
      | some u => failPull s c tok i stale u

/-- HOST_PULL. -/
def execHostPull (f : HostFrame) (upset : Option CopyUpset) (s : State) : Res := hostCmd 6 f s (fun s => runPull s f.h1 upset)

/-! ## SNAPSHOT (R418–R421) -/

/-- The sections of Table 12-8 as words after the descriptor and first address; sections 0 and 166 are not registers. -/
def snapSections : List (Nat × Nat) :=
  [(12, 0), (21, 0), (20, 0x100), (9, 0x200), (64, 0x300), (64, 0x400)] ++
  (List.range 16).map (fun n => (32, pAddr n 0)) ++ (List.range 64).map (fun c => (21, cAddr c 0)) ++ [(30, 0x2000), (12, 0x2400)] ++
  (List.range 72).map (fun x => (7, xAddr x 0)) ++ [(73, 0x3000), (12, 0x3100), (64, 0x4000), (64, 0x4800), (64, 0x5000), (64, 0x5800), (4, 0)]

/-- HST_SNAP.SNAPNO. -/
def snapNo (s : State) : Nat := s.fld 0x40A 0 16

/-- A word of the header section (Table 12-9). -/
def snapHeader (s : State) (j : Nat) : Word :=
  let t := s.now.toNat
  match j with
  | 0 => ofFields [(16, snapNo s), (0, 49)]
  | 1 => liveWord s 0
  | 2 => liveWord s 1
  | 3 => BitVec.ofNat 32 (s.chip.uid.toNat / 2 ^ 32)
  | 4 => BitVec.ofNat 32 s.chip.uid.toNat
  | 5 => BitVec.ofNat 32 (t / 2 ^ 64)
  | 6 => BitVec.ofNat 32 (t / 2 ^ 32)
  | 7 => BitVec.ofNat 32 t
  | 8 => BitVec.ofNat 32 (qCode s.hold.quality)
  | 9 => s.reg 0x409
  | 10 => rstCause s
  | _ => 167#32

/-- A word of the trailer section (Table 12-9). -/
def snapTrailer (s : State) (j : Nat) : Word :=
  match j with
  | 0 => ofFields [(16, snapNo s)]
  | 1 => s.reg 0x409
  | 2 => BitVec.ofNat 32 (s.now.toNat / 2 ^ 32)
  | _ => BitVec.ofNat 32 s.now.toNat

/-- Word `n` of the sections from number `k` on (R420). -/
def snapIn (s : State) : Nat → List (Nat × Nat) → Nat → Word
  | _, [], _ => 0#32
  | k, (m, a) :: t, n =>
    if n = 0 then ofFields [(24, k), (16, m), (0, a)]
    else if n ≤ m then
      (if k = 0 then snapHeader s (n - 1) else if k = 166 then snapTrailer s (n - 1) else liveWord s (a + (n - 1)))
    else snapIn s (k + 1) t (n - (m + 1))

/-- Word `n` of the snapshot. -/
def snapWord (s : State) (n : Nat) : Word := snapIn s 0 snapSections n

/-- Take `n` system reserve cells of the use Other to stage a reply (R419); none where one is refused, which frees those taken. -/
def stageCells : Nat → State → Option (List Nat) × State
  | 0, s => (some [], s)
  | n + 1, s => match allocSys s .other with
    | (none, t) => (none, t)
    | (some i, t) => match stageCells n t with
      | (some l, u) => (some (i :: l), u)
      | (none, u) => (none, releaseCell u i)

/-- Begin a new snapshot where START is set (R418). -/
def snapStart (s : State) (start : Bool) : State :=
  if start then { s.setFld 0x40A 0 16 (snapNo s + 1) with host := { s.host with snapOn := true } } else s

/-- Stage and read words `first` to `first + count - 1`; the cells are freed when the reply completes. A refused START begins no
snapshot (DEDUCED, log entry 34). -/
def runSnap (s : State) (start : Bool) (cells first count : Nat) : Option (List Word) × State :=
  match stageCells cells s with
  | (none, t) => (none, t)
  | (some l, t) =>
    let t := snapStart { t with host := { t.host with staging := l } } start
    (some ((List.range count).map (fun j => snapWord t (first + j))), { t with fresh := t.fresh + 1 })

/-- HOST_SNAPSHOT. -/
def execHostSnapshot (f : HostFrame) (s : State) : Res :=
  hostCmd 7 f s (fun s =>
    let k := getF f.h1 0 16
    let start := f.h1.getLsbD 16
    if 48 < k ∨ (!start && !s.host.snapOn) then ({ status := 8 }, s)
    else
      let n := if k = 48 then 32 else 64
      match runSnap s start (if k = 48 then 1 else 2) (64 * k) n with
      | (none, t) => ({ status := 9 }, t)
      | (some ws, t) => (okReply (ofFields [(16, snapNo t), (8, k), (0, n)] :: ws), t))

/-! ## AGAIN and illegal frames (R399, R400) -/

/-- HOST_AGAIN: a frame whose AGAIN is 1 sends P and executes nothing. -/
def execHostAgain (f : HostFrame) (s : State) : Res :=
  if framedOpen s && wholeFrame f && fAgain f then .next (framed s f (fun s => ({}, s))) else .next s

/-! ## Chain mode (R422–R428) -/

/-- The CRC-8 of R425 over the seven bytes beside CHK. -/
def chainCrc (b : BitVec 64) : Nat :=
  let v := b.toNat
  (crcL 8 0x07#32 0#32 [BitVec.ofNat 8 (v / 2 ^ 56), BitVec.ofNat 8 (v / 2 ^ 40), BitVec.ofNat 8 (v / 2 ^ 32), BitVec.ofNat 8 (v / 2 ^ 24),
    BitVec.ofNat 8 (v / 2 ^ 16), BitVec.ofNat 8 (v / 2 ^ 8), BitVec.ofNat 8 v]).toNat

/-- The fields of a chain command word (Table 12-10). -/
def ccOp (b : BitVec 64) : Nat := b.toNat / 2 ^ 60
def ccTag (b : BitVec 64) : Nat := b.toNat / 2 ^ 56 % 16
def ccChk (b : BitVec 64) : Nat := b.toNat / 2 ^ 48 % 256
def ccAddr (b : BitVec 64) : Nat := b.toNat / 2 ^ 32 % 65536
def ccData (b : BitVec 64) : Word := BitVec.ofNat 32 b.toNat

/-- The word with its CHK put in (R425). -/
def withChk (v : Nat) : BitVec 64 := BitVec.ofNat 64 (v + chainCrc (BitVec.ofNat 64 v) * 2 ^ 48)

/-- A status word (Table 12-11). -/
def chainStatus (r : Reply) (evt rej : Bool) : BitVec 64 :=
  withChk (r.status * 2 ^ 60 + r.tag % 16 * 2 ^ 56 + b2n evt * 2 ^ 47 + b2n rej * 2 ^ 45 + b2n r.short * 2 ^ 44 +
    ((r.data.head?).getD 0#32).toNat)

/-- A status word again, with bit 46 set (R428). -/
def repeated (b : BitVec 64) : BitVec 64 :=
  let v := b.toNat - ccChk b * 2 ^ 48
  withChk (if v.testBit 46 then v else v + 2 ^ 46)

/-- The TAG of the command that has not finished. -/
def pendingTag (s : State) : Nat := match s.host.cmd with | some k => ccTag k.bits | none => s.host.a.tag

/-- The status word that a select fall loads (R423, R427, R428). A NOTREADY goes before a repeat that waits (log entry 34). -/
def loadStatus (s : State) : State :=
  let h := s.host
  let w : BitVec 64 :=
    if notReadyNow s then chainStatus { tag := pendingTag s, status := 1 } (hirq s) h.rej
    else match h.again with
      | some b => repeated b
      | none => chainStatus h.a (hirq s) h.rej
  let again := if notReadyNow s then h.again else none
  { s with host := { h with shown := w, before := h.shown, again := again, notReady := decide (w.toNat / 2 ^ 60 = 1), hco := w.getLsbD 63 } }

/-- Chain length in bits (R424). -/
def hostChainBits (s : State) : Nat := 64 * (s.fld 0x401 0 3 + 1)

/-- The chain command that waits is executed with OP `op`, once CORE runs (R424–R427). -/
def chainCmd (s : State) (p : BitVec 64 → Bool) (body : BitVec 64 → State → Reply × State) : Res :=
  match s.host.cmd with
  | none => .next s
  | some k =>
    if !p k.bits || coreStopped s then .next s
    else
      let s := { s with host := { s.host with cmd := none } }
      if ccChk k.bits ≠ chainCrc k.bits then .next (setRej (hostErr s 3 16 7) true)
      else
        let r := body k.bits (acceptFrame s (ccTag k.bits))
        let a : Reply := { r.1 with op := ccOp k.bits, tag := ccTag k.bits, short := k.short }
        if r.2.boot.hostUp then .next { r.2 with host := { r.2.host with p := r.2.host.a, a := a, running := true } } else .next r.2

/-- The OP is `op`. -/
def isOp (op : Nat) (b : BitVec 64) : Bool := ccOp b == op
/-- The command is ILLEGAL: a reserved OP, or a START at another word than 0 (Table 12-10, R426). -/
def chainIllegal (b : BitVec 64) : Bool :=
  decide (7 ≤ ccOp b) || (ccOp b == 5 && (ccData b).getLsbD 0 && ccAddr b != 0)

/-- CHAIN_NOP. -/
def execChainNop (s : State) : Res := chainCmd s (isOp 0) (fun _ s => (okReply [evtSum s], s))
/-- CHAIN_RD. -/
def execChainRd (s : State) : Res :=
  chainCmd s (isOp 1) (fun b s => let r := normalRead s (ccAddr b); (okReply [r.1], r.2))
/-- CHAIN_WR. -/
def execChainWr (s : State) : Res :=
  chainCmd s (isOp 2) (fun b s => (okReply [], writeWord s (ccAddr b) (ccData b) 0xFFFFFFFF#32))
/-- CHAIN_RMW_SET. -/
def execChainRmwSet (s : State) : Res :=
  chainCmd s (isOp 3) (fun b s => let r := rmwWord s (ccAddr b) (ccData b) 0xFFFFFFFF#32; (okReply [r.1], r.2))
/-- CHAIN_RMW_CLR. -/
def execChainRmwClr (s : State) : Res :=
  chainCmd s (isOp 4) (fun b s => let r := rmwWord s (ccAddr b) (ccData b) 0#32; (okReply [r.1], r.2))
/-- CHAIN_SNAP. -/
def execChainSnap (s : State) : Res :=
  chainCmd s (fun b => isOp 5 b && !chainIllegal b) (fun b s =>
    let start := (ccData b).getLsbD 0
    if 3104 ≤ ccAddr b ∨ (!start && !s.host.snapOn) then ({ status := 8 }, s)
    else match runSnap s start 1 (ccAddr b) 1 with
      | (none, t) => ({ status := 9 }, t)
      | (some ws, t) => (okReply ws, t))

/-- CHAIN_AGAIN: nothing is executed; the next status repeats the one shifted out before the AGAIN frame (R428). It is not an accepted
frame (R427). -/
def execChainAgain (s : State) : Res :=
  match s.host.cmd with
  | none => .next s
  | some k =>
    if !isOp 6 k.bits || coreStopped s then .next s
    else
      let s := { s with host := { s.host with cmd := none } }
      if ccChk k.bits ≠ chainCrc k.bits then .next (setRej (hostErr s 3 16 7) true)
      else .next { s with host := { s.host with again := some k.before } }

/-- A command answered ILLEGAL: counted, with its event (R399). -/
def illegalReply (s : State) : Reply × State := ({ status := 2 }, hostErr s 3 0 6)

/-- HOST_ILLEGAL: a framed frame with a reserved OP or an illegal field, or the chain command that waits, where it is illegal. -/
def execHostIllegal (f : HostFrame) (s : State) : Res :=
  if framedOpen s then
    (if wholeFrame f && !fAgain f && !frameLegal f then .next (framed s f illegalReply) else .next s)
  else chainCmd s chainIllegal (fun _ s => illegalReply s)

/-! ## The select (R400, R402, R405, R423, R424, R430, R431) -/

/-- A frame begins. -/
def beginFrame (s : State) : State :=
  { s with host := { s.host with selected := true, judged := false, out := [], next := none, early := !s.boot.hostUp, discard := false } }

/-- HOST_SELECT_FALL: before step 4 the frame will count as short; the frame of a fall that wakes the device is discarded (R75), and a
fall that does not is ignored in DORMANT (R124); an absent
port ignores it; in chain mode the status word is loaded. -/
def execHostSelectFall (s : State) : Res :=
  if s.host.selected || (s.boot.hostUp && hostMode s == 2) then .next s
  else if s.power.st == .dormant then
    if s.power.waking || s.bit 0x203 16 then
      let t := doWake s 0x10000#20
      .next { t with host := { t.host with selected := true, discard := true } }
    else .next s
  else
    let s := beginFrame s
    .next (if s.boot.hostUp && hostMode s == 1 then loadStatus s else s)

/-- The end of a host phase that broke off (Table 12-6): short at a word boundary, fragmented in mid-word; a PUSH whose H1 has crossed
was judged. -/
def endBroken (s : State) (words : List Word) (part : Bool) : State :=
  let again := match words with | h0 :: _ => h0.getLsbD 19 | [] => false
  let s := refused (if part then hostErr s 1 0 2 else hostErr s 0 16 1) again
  match words with
  | h0 :: h1 :: _ => lostPush s h0 h1
  | _ => s

/-- The end of a frame whose host phase was judged (R402, Table 12-6): what was late went out as repeats; P takes A, and A the new
reply. -/
def endJudged (s : State) (frag surplus : Bool) (late : List Nat) : State :=
  let n := s.host.out.length
  let late := late.filter (fun p => decide (1 ≤ p) && decide (p + 1 < n))
  let s := if late.isEmpty then s
    else
      let ws := match s.host.out with
        | h :: t => h :: withRepeats late 1 h t.dropLast
        | [] => []
      let slv := match s.host.out.getLast? with | some w => w.getLsbD 23 | none => false
      let u := late.foldl min 127
      hostErr { s with host := { s.host with out := ws ++ [deviceTrailer ws (some u) slv] } } 1 16 3
  let s := if frag && n != 0 then hostErr s 1 0 2 else s
  let s := if surplus then hostErr s 2 0 4 else s
  match s.host.next with
  | some r => { s with host := { s.host with p := s.host.a, a := r, next := none } }
  | none => s

/-- The end of a chain frame (R424, R427, R431); HCO stands at bit 63 of the shift register (R423). -/
def endChain (s : State) (m : Nat) (bits : BitVec 64) : State :=
  let bits := if m < 64 then BitVec.ofNat 64 (bits.toNat % 2 ^ m) else bits
  let s := { s with host := { s.host with hco := if m < 64 then s.host.shown.getLsbD (63 - m) else bits.getLsbD 63 } }
  let short := decide (m < hostChainBits s)
  let s := if 64 ≤ m then restartHandback s else s
  let s := if short then refused (hostErr s 0 16 1) (ccOp bits == 6) else if hostChainBits s < m then hostErr s 2 0 4 else s
  if !s.host.notReady then { s with host := { s.host with cmd := some { bits := bits, short := short, before := s.host.before } } }
  else if ccChk bits ≠ chainCrc bits then setRej (hostErr s 3 16 7) true
  else if ccOp bits = 6 then { s with host := { s.host with again := some s.host.before } }
  else setRej (hostErr s 2 16 5) true

/-- What the frame that ends leaves, by the port's mode. One that began before the port answered (R430) or that woke the device (R75)
counts as one with too few clocks. -/
def endFrameHost (s : State) (e : HostEnd) : State :=
  if !s.boot.hostUp || hostMode s == 2 then s
  else if s.host.early || s.host.discard then setRej (hostErr s 0 16 1) true
  else match e with
    | .broken ws part => if hostMode s == 0 && !s.host.judged then endBroken s ws part else s
    | .rest frag surplus late => if hostMode s == 0 && s.host.judged then endJudged s frag surplus (late.map (·.val)) else s
    | .chain m bits => if hostMode s == 1 then endChain s m bits else s

/-- The release fits the frame in progress: a broken or judged host phase in framed mode, a chain frame in chain mode. -/
def endFits (s : State) (e : HostEnd) : Bool :=
  !s.boot.hostUp || s.host.discard || s.host.early || hostMode s == 2 ||
  match e with
  | .broken ws _ => hostMode s == 0 && !s.host.judged &&
      (match ws with | h0 :: h1 :: t => decide (t.length ≤ wordsDue h0 h1) | _ => true)
  | .rest _ _ _ => hostMode s == 0 && s.host.judged
  | .chain _ _ => hostMode s == 1

/-- HOST_SELECT_RELEASE: the frame ends, and HST fields staged by it apply (R431). -/
def execHostSelectRelease (e : HostEnd) (s : State) : Res :=
  if !s.host.selected || !endFits s e then .next s
  else
    let s := endFrameHost s e
    let s := { s with host := { s.host with selected := false, judged := false, early := false, discard := false } }
    .next (settleAll s)

/-! ## Completion (R401, R406, R417, R419) -/

/-- A PULL reply whose cell has gone before its copy was complete becomes EMPTY with STALE (R417). -/
def staleReply (s : State) (r : Reply) : Reply :=
  let tok := getF ((r.data.head?).getD 0#32) 16 16
  if r.op == 6 && r.status == 0 && !r.slvfail && !s.host.tokens.any (fun e => e.2.1 == tok) then
    { r with status := 3, stale := true, data := [] }
  else r

/-- HOST_REPLY_COMPLETE: the command finishes; staging cells are freed. Nothing completes while CORE stands still. -/
def execHostReplyComplete (s : State) : Res :=
  if !s.host.running || coreStopped s then .next s
  else
    let l := s.host.staging
    let s := { s with host := { s.host with running := false, staging := [] } }
    let s := forList l releaseCell s
    .next (match s.host.next with
      | some r => { s with host := { s.host with next := some (staleReply s r) } }
      | none => { s with host := { s.host with a := staleReply s s.host.a } })

end Sys2Proof.Machine
end

