-- ==== Sys2Proof/Machine/Second.lean ====
section
/-! DEFINITION. Sys2Proof/Machine/Second.lean: the second boundary, the step of the count, and the tick of an idle block
(R521, R526, R535, R540). -/
namespace Sys2Proof.Machine

/-- What happens when the fraction wraps to 0: waiting seconds load (R526), which is a step where they are not the ones reached, then the
staged TIM commit applies (Table 5-2, Table 15-9: a step goes first), and the boundary's effects follow. -/
def boundaryEffects (s : State) : State := secondEffects (doApply (loadSeconds s) .tim)

/-- The next whole second after a count. -/
def nextSecond (t : Time) : Time := BitVec.ofNat 80 ((secondsOf t + 1) * 2 ^ 32)

/-- `n` TIME ticks of one timer of a context (R347). -/
def elapseTimer (n : Nat) (k : Ctx) (i : Bool) : Ctx :=
  let t := timerOf k i
  if t.run && decide (0 < n) then (if t.val ≤ n then expireTimer k i else setTimer k i ⟨true, t.val - n⟩) else k

/-- `n` TIME ticks of every context's timers, which stand still while TIME is stopped. -/
def elapseTimers (s : State) (n : Nat) : State :=
  if s.hold.inTime then
    forList (s.ctxs.map (·.1)) (fun s x => modCtx s x (fun k => elapseTimer n (elapseTimer n k false) true)) s
  else s

/-- SECOND_BOUNDARY (R521): the count reaches the next whole second; the TIME ticks up to it pass. -/
def execSecondBoundary (s : State) : Res :=
  let t := nextSecond s.now
  let s := elapseTimers s ((t.toNat - s.now.toNat) * 1024000 / 2 ^ 32)
  .next (boundaryEffects { s with hold := { s.hold with count := t, rem := 0 } })

/-- e ns in units of 2⁻³² s. -/
def nsToUnits (e : Int) : Int := e * 4294967296 / 1000000000

/-- TIME_STEP (R535): at the first whole second the corrected count passes, the count is loaded with that second. A corrected count within
the rounding of e before a whole second (log entry 48) has passed it: a TPI edge is one, and its step comes a second later (Table 15-5). The TIME ticks up to it
pass; a step to a qualified fabric reference sets seconds, so it leaves UNSET (R526). -/
def execTimeStep (s : State) : Res :=
  match s.tim.plan with
  | none => .next s
  | some e =>
    let t := ((s.now.toNat : Int) + nsToUnits e).toNat
    let new : Time := BitVec.ofNat 80 (((t + 6) / 2 ^ 32 + 1) * 2 ^ 32)
    let s := elapseTimers s ((new.toNat - t) * 1024000 / 2 ^ 32)
    let s := loadCount { s with hold := { s.hold with count := BitVec.ofInt 80 ((new.toNat : Int) - nsToUnits e) } } new
    .next (secondEffects (doApply (fabricSet s s.tim.sel) .tim))

/-- One tick of an idle block: the count advances by its exact increment (R522); a wrap of the fraction is a second
boundary. DESIGN CHOICE: what `step` does on an empty queue (log entry 9). -/
def idleTick (s : State) : State :=
  let t := elapseTimers { s with hold := tickHold s } 1
  if secondsOf t.now = secondsOf s.now then t else boundaryEffects t

end Sys2Proof.Machine
end

