-- ==== Sys2Proof/Machine/Dispatch.lean ====
section
/-! DEFINITION. Sys2Proof/Machine/Dispatch.lean: which meaning each command has. -/
namespace Sys2Proof.Machine

/-- One command's effect on everything but the queue. -/
def exec (i : Instr) (s : State) : Host.Outcome State Fault Refusal :=
  match i with
  -- Supply, reset and start-up
  | .supplyBelowBrownout same => Sys2Proof.Machine.execSupplyBelow s same
  | .vddioOutage => Sys2Proof.Machine.execVddioOutage s
  | .holdSwitchover toVbat => Sys2Proof.Machine.execHoldSwitchover toVbat s
  | .powerOnRelease bat kept xtal => Sys2Proof.Machine.execPowerOnRelease bat kept s xtal
  | .pinReset same => Sys2Proof.Machine.execPinReset s same
  | .resetRelease tmode aux => Sys2Proof.Machine.execResetRelease tmode aux s
  | .strapSlotEnd conv aux => Sys2Proof.Machine.execStrapSlotEnd conv aux s
  | .rootValid => Sys2Proof.Machine.execRootValid s
  | .rootStartRetry => Sys2Proof.Machine.execRootStartRetry s
  | .pllLocked fit => Sys2Proof.Machine.execPllLocked fit s
  | .holdHandover err => Sys2Proof.Machine.execHoldHandover err s
  | .journalBootScan a b => Sys2Proof.Machine.execJournalBootScan a b s
  | .journalClaimVerify uid => Sys2Proof.Machine.execJournalClaimVerify uid s
  | .imageLoad => Sys2Proof.Machine.execImageLoad s
  | .selfAudit straps mem loops => Sys2Proof.Machine.execSelfAudit straps mem loops s
  | .mantleApply => Sys2Proof.Machine.execMantleApply s
  | .portsLive => Sys2Proof.Machine.execPortsLive s
  -- Clocks and power states
  | .pllUnlock => Sys2Proof.Machine.execPllUnlock s
  | .rootLost => Sys2Proof.Machine.execRootLost s
  | .pllRelock => Sys2Proof.Machine.execPllRelock s
  | .clockFailReset => Sys2Proof.Machine.execClockFailReset s
  | .quietEnter => Sys2Proof.Machine.execQuietEnter s
  | .quietExit => Sys2Proof.Machine.execQuietExit s
  | .dormant => Sys2Proof.Machine.execDormant s
  | .dcancel => Sys2Proof.Machine.execDcancel s
  | .dormantEnter => Sys2Proof.Machine.execDormantEnter s
  | .wakeEvent src => Sys2Proof.Machine.execWakeEvent src s
  | .dormantTimerExpiry => Sys2Proof.Machine.execDormantTimerExpiry s
  | .wakeComplete => Sys2Proof.Machine.execWakeComplete s
  | .slowWake => Sys2Proof.Machine.execSlowWake s
  | .rstarm => Sys2Proof.Machine.execRstarm s
  | .rstarmExpiry => Sys2Proof.Machine.execRstarmExpiry s
  | .rstgo => Sys2Proof.Machine.execRstgo s
  | .portFreeze n => Sys2Proof.Machine.execPortFreeze n s
  | .groupQuietPoint g => Sys2Proof.Machine.execGroupQuietPoint g s
  | .groupClockRelease g => Sys2Proof.Machine.execGroupClockRelease g s
  | .pfiFall => Sys2Proof.Machine.execPfiFall s
  | .pfiRecover => Sys2Proof.Machine.execPfiRecover s
  -- Registers, commits, mailbox and straps
  | .commitStrobe groups => Sys2Proof.Machine.execCommitStrobe groups s
  | .commitApply j => Sys2Proof.Machine.execCommitApply j s
  | .commitSlow j => Sys2Proof.Machine.execCommitSlow j s
  | .registerWrite a w => Sys2Proof.Machine.execRegisterWrite a w s
  | .readClear a => Sys2Proof.Machine.execReadClear a s
  | .mailboxSelect sel => Sys2Proof.Machine.execMailboxSelect sel s
  | .mailboxRecapture => Sys2Proof.Machine.execMailboxRecapture s
  | .mailboxCaptureDone => Sys2Proof.Machine.execMailboxCaptureDone s
  | .mailboxDataWrite j w => Sys2Proof.Machine.execMailboxDataWrite j w s
  | .mailboxWrite => Sys2Proof.Machine.execMailboxWrite s
  | .iramWindowWrite j w => Sys2Proof.Machine.execIramWindowWrite j w s
  | .measure => Sys2Proof.Machine.execMeasure s
  | .measureDone conv => Sys2Proof.Machine.execMeasureDone conv s
  | .handback => Sys2Proof.Machine.execHandback s
  | .handbackTimerExpiry => Sys2Proof.Machine.execHandbackTimerExpiry s
  | .twinNorouteExpiry => Sys2Proof.Machine.execTwinNorouteExpiry s
  -- Asynchronous ports
  | .receiverArm n => Sys2Proof.Machine.execReceiverArm n s
  | .falseStart n x => Sys2Proof.Machine.execFalseStart n s x
  | .characterReceive n r => Sys2Proof.Machine.execCharacterReceive n r s
  | .breakEnd n len => Sys2Proof.Machine.execBreakEnd n len s
  | .receiveTimeout n => Sys2Proof.Machine.execReceiveTimeout n s
  | .transmitterStart n => Sys2Proof.Machine.execTransmitterStart n s
  | .transmitCharacterDone n => Sys2Proof.Machine.execTransmitCharacterDone n s
  | .deLeadEnd n => Sys2Proof.Machine.execDeLeadEnd n s
  | .deLagEnd n => Sys2Proof.Machine.execDeLagEnd n s
  | .sendbrk n => Sys2Proof.Machine.execSendbrk n s
  | .breakSendEnd n => Sys2Proof.Machine.execBreakSendEnd n s
  | .close n => Sys2Proof.Machine.execClose n s
  | .portClrcnt n => Sys2Proof.Machine.execPortClrcnt n s
  | .portCommitApply n => Sys2Proof.Machine.execPortCommitApply n s
  | .ctsChange n level => Sys2Proof.Machine.execCtsChange n level s
  -- Cells, circuits and integrity
  | .cellAllocate rs => Sys2Proof.Machine.execCellAllocate rs s
  | .cellFree j r => Sys2Proof.Machine.execCellFree j r s
  | .creditTableTimer dev rc owner => Sys2Proof.Machine.execCreditTableTimer dev rc owner s
  | .creditProbeTimer c => Sys2Proof.Machine.execCreditProbeTimer c s
  | .stallTimerExpiry c => Sys2Proof.Machine.execStallTimerExpiry c s
  | .cut c => Sys2Proof.Machine.execCut c s
  | .restart c => Sys2Proof.Machine.execRestart c s
  | .frestartExpiry c => Sys2Proof.Machine.execFrestartExpiry c s
  | .circuitClrcnt c => Sys2Proof.Machine.execCircuitClrcnt c s
  | .circuitCommitApply c => Sys2Proof.Machine.execCircuitCommitApply c s
  | .scrubWord r behind wrote hits => Sys2Proof.Machine.execScrubWord r behind s wrote hits
  | .full => Sys2Proof.Machine.execFull s
  | .integrityClrcnt => Sys2Proof.Machine.execIntegrityClrcnt s
  -- Sequencer instructions
  | .add x d a b => Sys2Proof.Machine.execAdd x d a b s
  | .sub_ x d a b => Sys2Proof.Machine.execSub x d a b s
  | .and_ x d a b => Sys2Proof.Machine.execAnd x d a b s
  | .or_ x d a b => Sys2Proof.Machine.execOr x d a b s
  | .xor_ x d a b => Sys2Proof.Machine.execXor x d a b s
  | .shl x d a b => Sys2Proof.Machine.execShl x d a b s
  | .shr x d a b => Sys2Proof.Machine.execShr x d a b s
  | .sar x d a b => Sys2Proof.Machine.execSar x d a b s
  | .cmp x a b => Sys2Proof.Machine.execCmp x a b s
  | .mul_ x d a b => Sys2Proof.Machine.execMul x d a b s
  | .addi x d a imm => Sys2Proof.Machine.execAddi x d a imm s
  | .andi x d a imm => Sys2Proof.Machine.execAndi x d a imm s
  | .ori x d a imm => Sys2Proof.Machine.execOri x d a imm s
  | .xori x d a imm => Sys2Proof.Machine.execXori x d a imm s
  | .cmpi x a imm => Sys2Proof.Machine.execCmpi x a imm s
  | .shiShl x d a n => Sys2Proof.Machine.execShiShl x d a n s
  | .shiShr x d a n => Sys2Proof.Machine.execShiShr x d a n s
  | .shiSar x d a n => Sys2Proof.Machine.execShiSar x d a n s
  | .shiRor x d a n => Sys2Proof.Machine.execShiRor x d a n s
  | .movi x d imm => Sys2Proof.Machine.execMovi x d imm s
  | .movh x d imm => Sys2Proof.Machine.execMovh x d imm s
  | .ext x d a l p => Sys2Proof.Machine.execExt x d a l p s
  | .ins x d a l p => Sys2Proof.Machine.execIns x d a l p s
  | .btst x a p => Sys2Proof.Machine.execBtst x a p s
  | .ldp x d a => Sys2Proof.Machine.execLdp x d a s
  | .br x c off => Sys2Proof.Machine.execBr x c off s
  | .jmp x t => Sys2Proof.Machine.execJmp x t s
  | .call x t => Sys2Proof.Machine.execCall x t s
  | .ret x => Sys2Proof.Machine.execRet x s
  | .jr x a => Sys2Proof.Machine.execJr x a s
  | .illegalEncoding x => Sys2Proof.Machine.execIllegalEncoding x s
  | .wait x d => Sys2Proof.Machine.execWait x d s
  | .waitWake x => Sys2Proof.Machine.execWaitWake x s
  | .evmSet x d m => Sys2Proof.Machine.execEvmSet x d m s
  | .evmOr x d m => Sys2Proof.Machine.execEvmOr x d m s
  | .evmClr x d m => Sys2Proof.Machine.execEvmClr x d m s
  | .evmPeek x d m => Sys2Proof.Machine.execEvmPeek x d m s
  | .evmSetr x d a => Sys2Proof.Machine.execEvmSetr x d a s
  | .tmrStart x n a => Sys2Proof.Machine.execTmrStart x n a s
  | .tmrSti x n t => Sys2Proof.Machine.execTmrSti x n t s
  | .tmrStop x n => Sys2Proof.Machine.execTmrStop x n s
  | .tmrRead x n d => Sys2Proof.Machine.execTmrRead x n d s
  | .timerExpiry x n => Sys2Proof.Machine.execTimerExpiry x n s
  | .timFrac x d => Sys2Proof.Machine.execTimFrac x d s
  | .timSecl x d => Sys2Proof.Machine.execTimSecl x d s
  | .timSech x d => Sys2Proof.Machine.execTimSech x d s
  | .crcCfg x a w rin rout => Sys2Proof.Machine.execCrcCfg x a w rin rout s
  | .crcInit x a => Sys2Proof.Machine.execCrcInit x a s
  | .crcFeed x a => Sys2Proof.Machine.execCrcFeed x a s
  | .crcFeedw x a => Sys2Proof.Machine.execCrcFeedw x a s
  | .crcRead x d a => Sys2Proof.Machine.execCrcRead x d a s
  | .pmVal x n a => Sys2Proof.Machine.execPmVal x n a s
  | .pmMask x n a => Sys2Proof.Machine.execPmMask x n a s
  | .pmLen x n k => Sys2Proof.Machine.execPmLen x n k s
  | .pmFeed x d a => Sys2Proof.Machine.execPmFeed x d a s
  | .pmClr x => Sys2Proof.Machine.execPmClr x s
  | .prx x d p => Sys2Proof.Machine.execPrx x d p s
  | .prxNb x d p => Sys2Proof.Machine.execPrxNb x d p s
  | .prxTs x d p => Sys2Proof.Machine.execPrxTs x d p s
  | .ptx x a p => Sys2Proof.Machine.execPtx x a p s
  | .ptxL x a p => Sys2Proof.Machine.execPtxL x a p s
  | .ptxNb x a p => Sys2Proof.Machine.execPtxNb x a p s
  | .pbrk x p => Sys2Proof.Machine.execPbrk x p s
  | .pst x d p => Sys2Proof.Machine.execPst x d p s
  | .curTake x d => Sys2Proof.Machine.execCurTake x d s
  | .curPass x => Sys2Proof.Machine.execCurPass x s
  | .curFree x => Sys2Proof.Machine.execCurFree x s
  | .curAlloc x d => Sys2Proof.Machine.execCurAlloc x d s
  | .curClose x d err loss cont => Sys2Proof.Machine.execCurClose x d err loss cont s
  | .curDisc x => Sys2Proof.Machine.execCurDisc x s
  | .curSeek x a => Sys2Proof.Machine.execCurSeek x a s
  | .curInfo x d w => Sys2Proof.Machine.execCurInfo x d w s
  | .curHdr x d k => Sys2Proof.Machine.execCurHdr x d k s
  | .curFreei x a => Sys2Proof.Machine.execCurFreei x a s
  | .rd x d crc pm soft word => Sys2Proof.Machine.execRd x d crc pm soft word s
  | .wr x a crc latch word => Sys2Proof.Machine.execWr x a crc latch word s
  | .copy x a crc => Sys2Proof.Machine.execCopy x a crc s
  | .crdCredits x d => Sys2Proof.Machine.execCrdCredits x d s
  | .crdHeld x d => Sys2Proof.Machine.execCrdHeld x d s
  | .crdWaiting x d => Sys2Proof.Machine.execCrdWaiting x d s
  | .crdState x d => Sys2Proof.Machine.execCrdState x d s
  | .crdInbox x d => Sys2Proof.Machine.execCrdInbox x d s
  | .nop x => Sys2Proof.Machine.execNop x s
  | .sysCnt0 x => Sys2Proof.Machine.execSysCnt0 x s
  | .sysCnt1 x => Sys2Proof.Machine.execSysCnt1 x s
  | .sysSignal x j => Sys2Proof.Machine.execSysSignal x j s
  -- Sequencer control
  | .xipFillDone r => Sys2Proof.Machine.execXipFillDone r s
  | .xipinv => Sys2Proof.Machine.execXipinv s
  | .load => Sys2Proof.Machine.execLoad s
  | .reloadDone => Sys2Proof.Machine.execReloadDone s
  | .halt x => Sys2Proof.Machine.execHalt x s
  | .resume x => Sys2Proof.Machine.execResume x s
  | .start x => Sys2Proof.Machine.execStart x s
  | .signal x => Sys2Proof.Machine.execSignal x s
  | .systemContextRestart k => Sys2Proof.Machine.execSystemContextRestart k s
  | .utilisationUpdate => Sys2Proof.Machine.execUtilisationUpdate s
  -- Memory port and journal
  | .memEntryDone din => Sys2Proof.Machine.execMemEntryDone din s
  | .flashStatusPoll busy => Sys2Proof.Machine.execFlashStatusPoll busy s
  | .flashBusyTimeout => Sys2Proof.Machine.execFlashBusyTimeout s
  | .flashRetry => Sys2Proof.Machine.execFlashRetry s
  | .parkExpiry => Sys2Proof.Machine.execParkExpiry s
  | .memCollision => Sys2Proof.Machine.execMemCollision s
  | .go => Sys2Proof.Machine.execGo s
  | .chaingo => Sys2Proof.Machine.execChaingo s
  | .chainPeriodExpiry => Sys2Proof.Machine.execChainPeriodExpiry s
  | .memClrcnt => Sys2Proof.Machine.execMemClrcnt s
  | .format => Sys2Proof.Machine.execFormat s
  | .jnlClrcnt => Sys2Proof.Machine.execJnlClrcnt s
  | .journalBucketRefill => Sys2Proof.Machine.execJournalBucketRefill s
  -- Host port
  | .hostSelectFall => Sys2Proof.Machine.execHostSelectFall s
  | .hostSelectRelease e => Sys2Proof.Machine.execHostSelectRelease e s
  | .hostNop f => Sys2Proof.Machine.execHostNop f s
  | .hostRd f => Sys2Proof.Machine.execHostRd f s
  | .hostWr f => Sys2Proof.Machine.execHostWr f s
  | .hostRmw f => Sys2Proof.Machine.execHostRmw f s
  | .hostMbxRead f => Sys2Proof.Machine.execHostMbxRead f s
  | .hostMbxWrite f => Sys2Proof.Machine.execHostMbxWrite f s
  | .hostPush f upset => Sys2Proof.Machine.execHostPush f s upset
  | .hostPull f upset => Sys2Proof.Machine.execHostPull f upset s
  | .hostSnapshot f => Sys2Proof.Machine.execHostSnapshot f s
  | .hostAgain f => Sys2Proof.Machine.execHostAgain f s
  | .hostIllegal f => Sys2Proof.Machine.execHostIllegal f s
  | .chainNop => Sys2Proof.Machine.execChainNop s
  | .chainRd => Sys2Proof.Machine.execChainRd s
  | .chainWr => Sys2Proof.Machine.execChainWr s
  | .chainRmwSet => Sys2Proof.Machine.execChainRmwSet s
  | .chainRmwClr => Sys2Proof.Machine.execChainRmwClr s
  | .chainSnap => Sys2Proof.Machine.execChainSnap s
  | .chainAgain => Sys2Proof.Machine.execChainAgain s
  | .hostClrcnt => Sys2Proof.Machine.execHostClrcnt s
  -- CAN channels
  | .canIntegrated ch => Sys2Proof.Machine.execCanIntegrated ch s
  | .canFrameReceived ch f t0 => Sys2Proof.Machine.execCanFrameReceived ch f t0 s
  | .canFrameTransmitted ch d => Sys2Proof.Machine.execCanFrameTransmitted ch s d
  | .canArbitrationLost ch toRef => Sys2Proof.Machine.execCanArbitrationLost ch toRef s
  | .canError ch kind big keep part d => Sys2Proof.Machine.execCanError ch kind big keep part s d
  | .canProtocolException ch => Sys2Proof.Machine.execCanProtocolException ch s
  | .recovered ch => Sys2Proof.Machine.execRecovered ch s
  | .txreq ch j => Sys2Proof.Machine.execTxreq ch j s
  | .cancel ch j => Sys2Proof.Machine.execCancel ch j s
  | .recover ch => Sys2Proof.Machine.execRecover ch s
  | .canClrcnt ch => Sys2Proof.Machine.execCanClrcnt ch s
  | .canCommitApply ch => Sys2Proof.Machine.execCanCommitApply ch s
  | .referenceMessageReceived ch => Sys2Proof.Machine.execReferenceMessageReceived ch s
  | .referenceMessageDue ch => Sys2Proof.Machine.execReferenceMessageDue ch s
  | .backupTimeout ch => Sys2Proof.Machine.execBackupTimeout ch s
  | .fabricSegmentReceive ch => Sys2Proof.Machine.execFabricSegmentReceive ch s
  | .reassemblyTimeout ch sender cls => Sys2Proof.Machine.execReassemblyTimeout ch sender cls s
  | .fabricFrameRetry cell => Sys2Proof.Machine.execFabricFrameRetry cell s
  -- Fabric
  | .trunkFrameJudge t => Sys2Proof.Machine.execTrunkFrameJudge t s
  | .dataReceive => Sys2Proof.Machine.execDataReceive s
  | .packetRelay => Sys2Proof.Machine.execPacketRelay s
  | .creditReceive => Sys2Proof.Machine.execCreditReceive s
  | .probeReceive => Sys2Proof.Machine.execProbeReceive s
  | .probereplyReceive => Sys2Proof.Machine.execProbereplyReceive s
  | .tombReceive => Sys2Proof.Machine.execTombReceive s
  | .routeReceive => Sys2Proof.Machine.execRouteReceive s
  | .helloReceive => Sys2Proof.Machine.execHelloReceive s
  | .claimReceive => Sys2Proof.Machine.execClaimReceive s
  | .timeReceive => Sys2Proof.Machine.execTimeReceive s
  | .helloSend k => Sys2Proof.Machine.execHelloSend k s
  | .neighbourLost j => Sys2Proof.Machine.execNeighbourLost j s
  | .claimTimer => Sys2Proof.Machine.execClaimTimer s
  | .claimCollisionRetry ch => Sys2Proof.Machine.execClaimCollisionRetry ch s
  | .autoClaimBackoff => Sys2Proof.Machine.execAutoClaimBackoff s
  | .reclaim => Sys2Proof.Machine.execReclaim s
  | .routeupd => Sys2Proof.Machine.execRouteupd s
  | .fabClrcnt => Sys2Proof.Machine.execFabClrcnt s
  | .routeUpdatePeriod => Sys2Proof.Machine.execRouteUpdatePeriod s
  | .triggeredUpdate k => Sys2Proof.Machine.execTriggeredUpdate k s
  | .holddownExpiry j => Sys2Proof.Machine.execHolddownExpiry j s
  | .routeAgeOut j => Sys2Proof.Machine.execRouteAgeOut j s
  | .reorderGapExpiry r => Sys2Proof.Machine.execReorderGapExpiry r s
  | .reorderContextIdle r => Sys2Proof.Machine.execReorderContextIdle r s
  | .packetLifeExpiry cell => Sys2Proof.Machine.execPacketLifeExpiry cell s
  | .cellHandover c => Sys2Proof.Machine.execCellHandover c s
  -- Timebase
  | .secondBoundary => Sys2Proof.Machine.execSecondBoundary s
  | .tpiPulse wide edge => Sys2Proof.Machine.execTpiPulse wide edge s
  | .timeStep => Sys2Proof.Machine.execTimeStep s
  | .referenceLost r => Sys2Proof.Machine.execReferenceLost r s
  | .holdexp => Sys2Proof.Machine.execHoldexp s
  | .tpoFall => Sys2Proof.Machine.execTpoFall s
  | .timePacketSend k => Sys2Proof.Machine.execTimePacketSend k s
  | .holdCalibration hf => Sys2Proof.Machine.execHoldCalibration hf s
  | .timClrcnt => Sys2Proof.Machine.execTimClrcnt s
  -- Supervision
  | .watchdogWarning late => Sys2Proof.Machine.execWatchdogWarning late s
  | .watchdogReset late => Sys2Proof.Machine.execWatchdogReset late s
  | .supplyWarning => Sys2Proof.Machine.execSupplyWarning s
  | .supplyFaultClear => Sys2Proof.Machine.execSupplyFaultClear s
  | .voltageMeasure vddio vbat => Sys2Proof.Machine.execVoltageMeasure vddio vbat s
  | .temperatureMeasure t => Sys2Proof.Machine.execTemperatureMeasure t s
  | .stormDrain n => Sys2Proof.Machine.execStormDrain n s
  | .breakStorm n => Sys2Proof.Machine.execBreakStorm n s
  | .gloveEnd n loop => Sys2Proof.Machine.execGloveEnd n loop s
  | .gloveClean n => Sys2Proof.Machine.execGloveClean n s
  | .supRelease ports => Sys2Proof.Machine.execSupRelease ports s
  | .ack => Sys2Proof.Machine.execAck s
  | .audit straps mem => Sys2Proof.Machine.execAudit straps mem s
  | .lamptest => Sys2Proof.Machine.execLamptest s
  | .lamptestEnd => Sys2Proof.Machine.execLamptestEnd s
  | .supClrcnt => Sys2Proof.Machine.execSupClrcnt s
  | .systemFaultClear => Sys2Proof.Machine.execSystemFaultClear s
  -- Further events
  | .supplyAboveBrownout => Sys2Proof.Machine.execSupplyAbove s
  | .pfiRise us => Sys2Proof.Machine.execPfiRise us s
  | .supplyWarningRise => Sys2Proof.Machine.execSupplyWarningRise s
  | .startBitValidated n x => Sys2Proof.Machine.execStartBitValidated n s x
  | .startEdgeBeforeArming n => Sys2Proof.Machine.execStartEdgeBeforeArming n s
  | .receiverRearmAtMark n => Sys2Proof.Machine.execReceiverRearmAtMark n s
  | .hostReplyComplete => Sys2Proof.Machine.execHostReplyComplete s
  | .canStartOfFrame ch t0 => Sys2Proof.Machine.execCanStartOfFrame ch t0 s
  | .memoryEntryStart other high => Sys2Proof.Machine.execMemoryEntryStart s other high
  | .faultNCycleEnd => Sys2Proof.Machine.execFaultNCycleEnd s

end Sys2Proof.Machine
end

