-- ==== Sys2Proof/Machine/Step.lean ====
section
/-! DEFINITION. Sys2Proof/Machine/Step.lean: one step of the block. -/
namespace Sys2Proof.Machine

/-- One step: the command at the front of the queue on the state with the queue's rest. On an empty queue the block idles for one
tick of its time count (DESIGN CHOICE, log entry 9). -/
def step (s : State) : Host.Outcome State Fault Refusal :=
  match s.pending with
  | [] => .next (idleTick s)
  | c :: t => exec c { s with pending := t }

/-- The state with the command that a word spells put at the front of its queue; unchanged where it spells none. The table gives no
command any bits, so no word spells one (log entry 11). -/
def State.withFetchWord (s : State) (nbits w : Nat) : State :=
  match decodeTableWord nbits w with
  | some c => { s with pending := c :: s.pending }
  | none => s

end Sys2Proof.Machine
end

