-- ==== Sys2Proof/Safety.lean ====
section
/-! DEFINITION. Sys2Proof/Safety.lean: what counts as a safe state and a safe step, in the terms claims use. -/
namespace Sys2Proof.Machine

/-- The register space, applied copies and shadows, is in its one canonical form: addresses rising, no entry at its reset value. -/
def State.regsWf (s : State) : Bool := fwf resetWord s.regs && fwf resetWord s.shadow

/-- The engines' maps and the external memories are in their canonical form. -/
def State.mapsWf (s : State) : Bool :=
  fwf (fun _ => ({} : Cell)) s.cells && fwf (fun _ => ({} : Circ)) s.circs && fwf (fun _ => ({} : Port)) s.ports &&
  fwf (fun _ => ({} : Ctx)) s.ctxs && fwf (fun _ => 0xFF#8) s.ext.flash && fwf (fun _ => 0xFF#8) s.ext.fram

/-- A state whose sparse maps are all canonical: equal contents are equal data. -/
def State.wf (s : State) : Bool := s.regsWf && s.mapsWf

/-- A step that goes on: neither a fault nor a refusal. -/
def goesOn (o : Host.Outcome State Fault Refusal) : Bool := match o with | .next _ => true | _ => false

/-- The state that an outcome goes on to; the given one where it stops. -/
def outState (o : Host.Outcome State Fault Refusal) (s : State) : State := match o with | .next t => t | _ => s

/-- Every command of a list, run one after another from `s`. -/
def runAll (s : State) (l : List Instr) : State := l.foldl (fun t c => outState (exec c t) t) s

/-- The order of Table 4-6 as a state shows it: the reset is released after the supply's, the straps are read after that (never in
factory test, R76), the host port and the memories come up together after the straps, then the boot scan, the image and the
self-audit, the Mantle layer after the image and after the verdict where an audit is due (R117, R560), live ports last. -/
def State.startUpOrder (s : State) : Prop :=
  (s.boot.started = true → s.power.released = true ∧ s.power.low = false) ∧
  (s.boot.strapped = true → s.boot.started = true ∧ s.boot.factory = false) ∧
  (s.boot.hostUp = true → s.boot.strapped = true) ∧ s.boot.memUp = s.boot.hostUp ∧
  (s.boot.scanned = true → s.boot.memUp = true) ∧ (s.boot.imaged = true → s.boot.scanned = true) ∧
  (s.boot.audited = true → s.boot.scanned = true) ∧
  (s.boot.mantled = true → s.boot.imaged = true ∧ (s.boot.brownout = true → s.boot.audited = true)) ∧
  (s.boot.live = true → s.boot.mantled = true)

/-- The next record of the journal finds its staging cell: journal memory is in use or not yet looked for, no bucket holds event
records back, the system reserve has room (R250, R387, R388). -/
def canJournal (s : State) : Prop :=
  journalOpen s = true ∧ s.fld 0x3106 0 16 = 0 ∧ sysRoom s .jnl = true ∧ (pickFree s).isSome = true

/-- From `s` to `t` one record is staged, last, with this TYPE and payload. -/
def staged (s t : State) (typ : Nat) (payload : List Byte) : Prop :=
  ∃ r i, t.jnl.staged = s.jnl.staged ++ [(r, i)] ∧ r.typ = typ ∧ r.payload = payload

/-! ## A circuit context about to issue an instruction -/

/-- Context `x` may issue (R301) and fetches instruction `op` at its program address (R315). -/
def fetches (s : State) (x : Nat) (op : SeqOp) : Bool :=
  ctxReady s x && (match fetchWord s (progAddr (s.ctx x)) with | .word w => seqDecode w == some op | _ => false)

/-- Context `x` fetches `op`, the run limit, which no WAIT meets, allows one more instruction (R316), and no register that `op` reads
holds an uncorrectable error (R290). -/
def issues (s : State) (x : Nat) (op : SeqOp) : Bool :=
  fetches s x op && (isWait op || !overLimit s x) && !(op.reads.any (fun r => (s.ctx x).gBad.contains r.val))

/-- Context `x` stands at the address after its instruction at `s` (R339). -/
def movedOn (s t : State) (x : Nat) : Prop := progAddr (t.ctx x) = (progAddr (s.ctx x) + 1) % 2 ^ 23

/-- `s` with the contexts of `t`, and what every issue touches beside its context: the order of the prefetch lines, the fills they ask
for, the counts of issued instructions. -/
def State.issuedAs (s t : State) : State :=
  { s with ctxs := t.ctxs, seq := { s.seq with lines := t.seq.lines, issued := t.seq.issued }, mem := { s.mem with fills := t.mem.fills } }

/-- From `s` to `t` nothing changes but context `x` and what every issue touches. -/
def ctxOnly (s t : State) (x : Nat) : Prop := t = s.issuedAs t ∧ ∀ y, y ≠ x → t.ctx y = s.ctx y

/-- `k` with the program address, the counts and the marks of unreadable registers of `t`, waiting for no port. -/
def withRun (k t : Ctx) : Ctx :=
  { k with pc := t.pc, x := t.x, runCount := t.runCount, issued := t.issued, gBad := t.gBad, portWait := none }

/-- `k` with general register `d` holding `v`. -/
def withReg (k : Ctx) (d : Reg) (v : Word) : Ctx := { k with g := fset (fun _ => 0#32) k.g d.val v }

/-- From `s` to `t` nothing changes but general registers, Z, N, C, V, program address and run counts of context `x`, the order of
the prefetch lines, the fills they ask for, and the counts of issued instructions: what an instruction does whose row in chapter 10
names a result register and flags only. -/
def regOnly (s t : State) (x : Nat) : Prop :=
  ctxOnly s t x ∧
  t.ctx x = withRun { s.ctx x with g := (t.ctx x).g, z := (t.ctx x).z, n := (t.ctx x).n, c := (t.ctx x).c, v := (t.ctx x).v } (t.ctx x)

/-- Every general register of context `x` but those `p` accepts keeps its value. -/
def keepsRegs (s t : State) (x : Nat) (p : Reg → Prop) : Prop := ∀ r : Reg, ¬ p r → greg t x r = greg s x r

/-- The four flags that results set, as Z, N, C and V. -/
def znvc (s : State) (x : Nat) : Bool × Bool × Bool × Bool := ((s.ctx x).z, (s.ctx x).n, (s.ctx x).c, (s.ctx x).v)

/-- Instruction `i` of context `x` completes from `s` with result `v` in register `d` (none: no result) and flags `f`: it answers a
next state in which the context has moved on, `d` holds `v`, Z, N, C and V are `f`, and nothing else has changed. -/
def givesResult (i : Instr) (s : State) (x : Nat) (d : Option Reg) (v : Word) (f : Bool × Bool × Bool × Bool) : Prop :=
  ∃ t, exec i s = .next t ∧ regOnly s t x ∧ movedOn s t x ∧ keepsRegs s t x (fun r => d = some r) ∧
    (∀ r, d = some r → greg t x r = v) ∧ znvc t x = f

/-- Instruction `i` of context `x` completes from `s`: the context becomes `k` (its counts apart) at program address `a`, and nothing
else changes. -/
def runsTo (i : Instr) (s : State) (x : Nat) (k : Ctx) (a : Nat) : Prop :=
  ∃ t, exec i s = .next t ∧ ctxOnly s t x ∧ t.ctx x = withRun k (t.ctx x) ∧ progAddr (t.ctx x) = a

/-- `runsTo` with the next instruction following. -/
def setsCtx (i : Instr) (s : State) (x : Nat) (k : Ctx) : Prop := runsTo i s x k ((progAddr (s.ctx x) + 1) % 2 ^ 23)

/-- From `s` to `t` the context moves on, and nothing changes but context `x`, port `p` and what every issue touches. -/
def ctxPortOnly (s t : State) (x p : Nat) : Prop :=
  t = { s.issuedAs t with ports := t.ports } ∧ (∀ y, y ≠ x → t.ctx y = s.ctx y) ∧ (∀ m, m ≠ p → t.port m = s.port m) ∧ movedOn s t x

/-- Instruction `i` of context `x` faults from `s` with `code` (R317): the context is FAULTED and its circuit in FAULT, the code and the
instruction's address stand in SEQ_Cnn_STAT and SEQ_Cnn_FAULT; registers and return stack are as they were. -/
def faultsWith (i : Instr) (s : State) (x code : Nat) : Prop :=
  ∃ t, exec i s = .next t ∧ (t.ctx x).st = .faulted ∧ (t.circ x).st = .fault ∧ t.fld (xAddr x 2) 8 4 = code ∧
    t.fld (xAddr x 6) 0 23 = progAddr (s.ctx x) ∧ (t.ctx x).stack = (s.ctx x).stack ∧ ∀ r, greg t x r = greg s x r

/-- The context and the instruction of a command that stands for the issue of one. -/
def seqForm : Instr → Option (CircId × SeqOp)
  | .add x d a b => some (x, .add d a b)
  | .sub_ x d a b => some (x, .sub d a b)
  | .and_ x d a b => some (x, .and d a b)
  | .or_ x d a b => some (x, .or d a b)
  | .xor_ x d a b => some (x, .xor d a b)
  | .shl x d a b => some (x, .shl d a b)
  | .shr x d a b => some (x, .shr d a b)
  | .sar x d a b => some (x, .sar d a b)
  | .cmp x a b => some (x, .cmp a b)
  | .mul_ x d a b => some (x, .mul d a b)
  | .addi x d a imm => some (x, .addi d a imm)
  | .andi x d a imm => some (x, .andi d a imm)
  | .ori x d a imm => some (x, .ori d a imm)
  | .xori x d a imm => some (x, .xori d a imm)
  | .cmpi x a imm => some (x, .cmpi a imm)
  | .shiShl x d a n => some (x, .shiShl d a n)
  | .shiShr x d a n => some (x, .shiShr d a n)
  | .shiSar x d a n => some (x, .shiSar d a n)
  | .shiRor x d a n => some (x, .shiRor d a n)
  | .movi x d imm => some (x, .movi d imm)
  | .movh x d imm => some (x, .movh d imm)
  | .ext x d a l p => some (x, .ext d a l p)
  | .ins x d a l p => some (x, .ins d a l p)
  | .btst x a p => some (x, .btst a p)
  | .ldp x d a => some (x, .ldp d a)
  | .br x c off => some (x, .br c off)
  | .jmp x t => some (x, .jmp t)
  | .call x t => some (x, .call t)
  | .ret x => some (x, .ret)
  | .jr x a => some (x, .jr a)
  | .wait x d => some (x, .wait d)
  | .evmSet x d m => some (x, .evmSet d m)
  | .evmOr x d m => some (x, .evmOr d m)
  | .evmClr x d m => some (x, .evmClr d m)
  | .evmPeek x d m => some (x, .evmPeek d m)
  | .evmSetr x d a => some (x, .evmSetr d a)
  | .tmrStart x n a => some (x, .tmrStart n a)
  | .tmrSti x n t => some (x, .tmrSti n t)
  | .tmrStop x n => some (x, .tmrStop n)
  | .tmrRead x n d => some (x, .tmrRead n d)
  | .timFrac x d => some (x, .timFrac d)
  | .timSecl x d => some (x, .timSecl d)
  | .timSech x d => some (x, .timSech d)
  | .crcCfg x a w rin rout => some (x, .crcCfg a w rin rout)
  | .crcInit x a => some (x, .crcInit a)
  | .crcFeed x a => some (x, .crcFeed a)
  | .crcFeedw x a => some (x, .crcFeedw a)
  | .crcRead x d a => some (x, .crcRead d a)
  | .pmVal x n a => some (x, .pmVal n a)
  | .pmMask x n a => some (x, .pmMask n a)
  | .pmLen x n k => some (x, .pmLen n k)
  | .pmFeed x d a => some (x, .pmFeed d a)
  | .pmClr x => some (x, .pmClr)
  | .prx x d p => some (x, .prx d p)
  | .prxNb x d p => some (x, .prxNb d p)
  | .prxTs x d p => some (x, .prxTs d p)
  | .ptx x a p => some (x, .ptx a p)
  | .ptxL x a p => some (x, .ptxL a p)
  | .ptxNb x a p => some (x, .ptxNb a p)
  | .pbrk x p => some (x, .pbrk p)
  | .pst x d p => some (x, .pst d p)
  | .curTake x d => some (x, .curTake d)
  | .curPass x => some (x, .curPass)
  | .curFree x => some (x, .curFree)
  | .curAlloc x d => some (x, .curAlloc d)
  | .curClose x d err loss cont => some (x, .curClose d err loss cont)
  | .curDisc x => some (x, .curDisc)
  | .curSeek x a => some (x, .curSeek a)
  | .curInfo x d w => some (x, .curInfo d w)
  | .curHdr x d k => some (x, .curHdr d k)
  | .curFreei x a => some (x, .curFreei a)
  | .rd x d crc pm soft word => some (x, .rd d crc pm soft word)
  | .wr x a crc latch word => some (x, .wr a crc latch word)
  | .copy x a crc => some (x, .copy a crc)
  | .crdCredits x d => some (x, .crdCredits d)
  | .crdHeld x d => some (x, .crdHeld d)
  | .crdWaiting x d => some (x, .crdWaiting d)
  | .crdState x d => some (x, .crdState d)
  | .crdInbox x d => some (x, .crdInbox d)
  | .nop x => some (x, .nop)
  | .sysCnt0 x => some (x, .sysCnt0)
  | .sysCnt1 x => some (x, .sysCnt1)
  | .sysSignal x j => some (x, .sysSignal j)
  | _ => none

/-! ## Frames of the host port -/

/-- The framed port takes frame `f` with OP `op`: it answers, the frame is whole and legal, its CRC checks, it asks no AGAIN, and no
command still runs (R397, R399, R401). -/
def hostTakes (s : State) (f : HostFrame) (op : Nat) : Bool :=
  framedOpen s && wholeFrame f && !fAgain f && fOp f == op && frameLegal f && crcOk f && !notReadyNow s

/-- The state in which the command of an accepted framed frame runs: the frame is judged, A is on its way out, the hand-back timer has
restarted, the frame is counted (R400, R403, R71). -/
def State.takenBy (s : State) (f : HostFrame) : State :=
  let v := restartHandback { s with host := { s.host with judged := true, out := [] } }
  acceptFrame { v with host := { v.host with out := phaseOf v v.host.a false } } (fTag f)

/-- A framed frame's reply is kept with the frame's OP and TAG until the select rises, its command not yet finished (R400, R401). -/
def replies (t : State) (f : HostFrame) (status : Nat) (data : List Word) : Prop :=
  t.host.running = true ∧ ∃ r, t.host.next = some r ∧ r.op = fOp f ∧ r.tag = fTag f ∧ r.status = status ∧ r.data = data

/-- The chain command `k` waits, is one of `p`, checks, and CORE runs (R424, R425). -/
def chainTakes (s : State) (k : ChainCmd) (p : BitVec 64 → Bool) : Prop :=
  s.host.cmd = some k ∧ p k.bits = true ∧ coreStopped s = false ∧ ccChk k.bits = chainCrc k.bits

/-- The state in which an accepted chain command runs. -/
def State.chainTaken (s : State) (k : ChainCmd) : State := acceptFrame { s with host := { s.host with cmd := none } } (ccTag k.bits)

/-- A chain command's status is the next A, and the A before it P (R427). -/
def answers (s t : State) (k : ChainCmd) (status : Nat) (data : List Word) : Prop :=
  t.host.running = true ∧ t.host.p = s.host.a ∧ t.host.a.op = ccOp k.bits ∧ t.host.a.tag = ccTag k.bits ∧ t.host.a.short = k.short ∧
  t.host.a.status = status ∧ t.host.a.data = data

end Sys2Proof.Machine
end

