-- ==== Sys2Proof/Certificates/Slice0/Obligations.lean ====
section
/-! DEFINITION. Sys2Proof/Certificates/Slice0/Obligations.lean: the statements for the provers. Each docstring says what its statement
states; OBLIGATIONS.json gives the rules it rests on. -/
open Sys2Proof Sys2Proof.Machine

/-- For every command and state, a step of a state whose queue begins with the command answers what the command's meaning answers
on the same state with the queue's rest. -/
def Obligations.StepRunsFrontCommand : Prop :=
  ∀ (c : Instr) (rest : List Instr) (s : State), s.pending = c :: rest → step s = exec c { s with pending := rest }

/-- State.reset holds, in applied copy and shadow, the reset value of every field of every register word; no command waits; no
cell, circuit, context, packet, credit, commit or record is in use; start-up has not begun. The examples are the identification
word 0x52011064, GLB_LIMIT 0x14, SUP_FMASK 0x1AF, CEL_FLOOR's and the power word's values as the tables give them. (Where the
specification gives no reset value, log entries 2 to 6 name the model's.) -/
def Obligations.ResetState : Prop :=
  (∀ (a : Nat), ∀ f ∈ fieldsAt a, getF (State.reset.reg a) f.lo f.wd = f.reset ∧ getF (State.reset.shad a) f.lo f.wd = f.reset) ∧
  State.reset.reg 0x00 = 0x52011064#32 ∧ State.reset.fld 0x0A 0 8 = 0x14 ∧ State.reset.fld 0x303 0 9 = 0x1AF ∧
  State.reset.fld 0x304 0 8 = 0x20 ∧ State.reset.pending = [] ∧
  (∀ i, (State.reset.cell i).owner = .free) ∧ (∀ c, (State.reset.circ c).st = .disabled) ∧ (∀ x, (State.reset.ctx x).st = .idle) ∧
  State.reset.outQ = [] ∧ State.reset.credits = [] ∧ State.reset.commit.staged = [] ∧ State.reset.jnl.staged = [] ∧
  State.reset.boot.started = false ∧ State.reset.hold.count = 0#80

/-- Where the register interface can be reached (the host port up, not absent, not DORMANT), a write of a word without strobe
fields, of a present block and outside the mailbox, gives each RB field its clamped value in the shadow and each RW field its
clamped value in the applied copy at once, leaves every other field and word as it was, and where a field was clamped sets
GLB_EVT.CLAMP with the address in GLB_LASTCLAMP. A write to an absent port changes nothing. A read with the applied view clears
exactly the RC bits that it returned and changes no other word. A write through the instruction RAM window replaces that word, and
taints where authentication is required. Where the interface cannot be reached, none of the three does anything. -/
def Obligations.RegisterWriteLands : Prop :=
  ∀ (s : State) (a : BitVec 16) (w : Word) (i : Fin 16384),
    let n := a.toNat
    (hostReach s = false →
      exec (.registerWrite a w) s = .next s ∧ exec (.readClear a) s = .next s ∧ exec (.iramWindowWrite i w) s = .next s) ∧
    (absentPort s n = true → exec (.registerWrite a w) s = .next s) ∧
    (hostReach s = true → absentPort s n = false → accMask .w1s n = 0#32 → n < 0xC000 → (n < 0x20 ∨ 0x26 ≤ n) →
      ∃ t, exec (.registerWrite a w) s = .next t ∧
        (∀ f ∈ fieldsAt n, f.acc = .rb → getF (t.shad n) f.lo f.wd = clampVal (presentMask s) f.clamp (getF w f.lo f.wd)) ∧
        (∀ f ∈ fieldsAt n, f.acc = .rw → getF (t.reg n) f.lo f.wd = clampVal (presentMask s) f.clamp (getF w f.lo f.wd)) ∧
        (∀ f ∈ fieldsAt n, f.acc ≠ .rw → n ≠ 0x0B → n ≠ 0x12 → getF (t.reg n) f.lo f.wd = getF (s.reg n) f.lo f.wd) ∧
        (∀ b, b ≠ n → t.shad b = s.shad b) ∧ (∀ b, b ≠ n → b ≠ 0x0B → b ≠ 0x12 → t.reg b = s.reg b) ∧
        (∀ f ∈ fieldsAt n, f.acc = .rb ∨ f.acc = .rw → clampVal (presentMask s) f.clamp (getF w f.lo f.wd) ≠ getF w f.lo f.wd →
          t.fld 0x12 0 16 = n ∧ t.bit 0x0B 0 = true) ∧
        t = { s with regs := t.regs, shadow := t.shadow, commit := { s.commit with marks := t.commit.marks } }) ∧
    (hostReach s = true → s.bit 0x02 0 = false → absentPort s n = false → ∃ t, exec (.readClear a) s = .next t ∧
      (∀ j, (t.reg n).getLsbD j = ((s.reg n).getLsbD j && !((viewWord s n).getLsbD j && (accMask .rc n).getLsbD j))) ∧
      (∀ b, b ≠ n → t.reg b = s.reg b) ∧ t = { s with regs := t.regs, fresh := t.fresh }) ∧
    (hostReach s = true → ∃ t, exec (.iramWindowWrite i w) s = .next t ∧ t.reg (0xC000 + i.val) = w ∧ (∀ j, t.pool.iramBad.contains j = (s.pool.iramBad.contains j && j != i.val)) ∧
      (authReq s = true → t.bit 0x2400 6 = true ∧ t.bit 0x2408 4 = true))

/-- Out of the register interface's reach a write of the mailbox changes nothing. Where it can be reached, a write of MBX_SEL
stores the selector (0x0000, with a clamp noted, where it names no item), clears VALID and starts the capture. RECAPTURE clears
VALID and starts it again. When the capture is done the item's four words stand in MBX_DAT0 to 3, taken together, and VALID is
set. A write of MBX_DATi stores the word and clears VALID. WRITE moves the four words into the item, or sets GLB_EVT.MBXERR where
the item takes none, and leaves every register word but that event as it was. -/
def Obligations.MailboxCommands : Prop :=
  ∀ (s : State) (sel : BitVec 16) (i : Fin 4) (w : Word),
    (hostReach s = false → ∀ c ∈ [Instr.mailboxSelect sel, .mailboxRecapture, .mailboxDataWrite i w, .mailboxWrite], exec c s = .next s) ∧
    (s.mbx.capturing = false → exec .mailboxCaptureDone s = .next s) ∧
    (hostReach s = true → (∃ t, exec (.mailboxSelect sel) s = .next t ∧ t.mbx.capturing = true ∧ t.bit 0x21 0 = false ∧
      t.fld 0x20 0 16 = (if sel = 0#16 ∨ mbxNames s sel.toNat then sel.toNat else 0) ∧
      (¬ (sel = 0#16 ∨ mbxNames s sel.toNat) → t.bit 0x0B 0 = true ∧ t.fld 0x12 0 16 = 0x20)) ∧
    (∃ t, exec .mailboxRecapture s = .next t ∧ t.mbx.capturing = true ∧ t.bit 0x21 0 = false ∧ ∀ b, b ≠ 0x21 → t.reg b = s.reg b) ∧
    (s.mbx.capturing = true → ∃ t, exec .mailboxCaptureDone s = .next t ∧ t.mbx.capturing = false ∧ t.bit 0x21 0 = true ∧
      ∀ j, j < 4 → t.reg (0x22 + j) = ((mbxRead s (s.fld 0x20 0 16))[j]?).getD 0#32) ∧
    (∃ t, exec (.mailboxDataWrite i w) s = .next t ∧ t.reg (0x22 + i.val) = w ∧ t.bit 0x21 0 = false ∧
      ∀ b, b ≠ 0x22 + i.val → b ≠ 0x21 → t.reg b = s.reg b) ∧
    (mbxRo s (s.fld 0x20 0 16) = true → exec .mailboxWrite s = .next (s.setBit 0x0B 4)) ∧
    (mbxRo s (s.fld 0x20 0 16) = false → ∃ t, exec .mailboxWrite s = .next t ∧ t.regs = s.regs ∧
      (s.fld 0x20 0 16 = 0xB002 →
        t.tim.setSec = some ((s.reg 0x22).toNat % 2 ^ 16 * 2 ^ 32 + (s.reg 0x23).toNat) ∧ t.ctxs = s.ctxs) ∧
      (∀ (x : CircId) (j k : Fin 4), j.val < 4 → s.fld 0x20 0 16 = 0x8000 + 16 * x.val + 1 + j.val →
        greg t x (regN (4 * j.val + k.val)) = s.reg (0x22 + k.val))))

/-- Out of the register interface's reach a strobe changes nothing. Where it can be reached, a strobe before step 8 records its
groups and changes nothing that is applied. After it, with no commit outstanding, outside DORMANT and relock: a strobe of groups 4
to 7 stages every instance whose RB fields differ, with all its RB words frozen as they stand, applies none, and sets GLB_EVT.DONE
at once where none differs; a strobe of group 0 alone with the host not selected applies GLB, STR, SUP and HST at once, their RB
fields then equal to the shadow's, and sets DONE. A strobe of no group does nothing. -/
def Obligations.CommitStrobes : Prop :=
  ∀ (s : State) (g : BitVec 8),
    (hostReach s = false → exec (.commitStrobe g) s = .next s) ∧ (exec (.commitStrobe 0#8) s = .next s) ∧ (hostReach s = true →
    (g ≠ 0#8 → s.boot.mantled = false → ∃ t, exec (.commitStrobe g) s = .next t ∧ t.regs = s.regs ∧ t.commit.staged = s.commit.staged ∧
      ∃ h, t.commit.held = s.commit.held ++ [h] ∧ h.groups = g.toNat) ∧
    (s.boot.mantled = true → s.power.relock = false → s.power.st ≠ .dormant → s.commit.staged = [] → s.commit.queued = [] →
      (g ≠ 0#8 → g &&& 0x0F#8 = 0#8 → ∃ t, exec (.commitStrobe g) s = .next t ∧ (∀ b, b ≠ 0x0B → t.reg b = s.reg b) ∧
        (∀ i, i ∈ strobedInsts s g.toNat → instDiffers s i = true →
          ∃ e ∈ t.commit.staged, e.inst = i ∧ e.words = (instAddrs i).map (fun a => (a, accMask .rb a, s.shad a))) ∧
        ((∀ i ∈ strobedInsts s g.toNat, instDiffers s i = false) → t.commit.staged = [] ∧ t.bit 0x0B 3 = true)) ∧
      (s.host.selected = false → ∃ t, exec (.commitStrobe 1#8) s = .next t ∧ t.commit.staged = [] ∧ t.bit 0x0B 3 = true ∧
        ∀ a ∈ [0x0A, 0x110, 0x304, 0x307, 0x308, 0x309, 0x401], t.reg a &&& accMask .rb a = s.shad a &&& accMask .rb a)))

/-- With one commit outstanding, after step 8 and outside DORMANT and relock, COMMIT_APPLY of SEQ with every circuit context at an
instruction boundary, or of MEM between memory entries and journal records, PORT_COMMIT_APPLY at the port's character boundary,
CIRCUIT_COMMIT_APPLY at the circuit's cell boundary and CAN_COMMIT_APPLY at bus idle apply it: nothing is staged any more,
GLB_EVT.DONE is set, HST_GEN counts; the words of SEQ and MEM, a port's BAUD word and a channel's word 1 hold the frozen RB bits;
a DISABLED circuit whose frozen EN is 1 with a binding that R258 and R7 admit is in RUN. COMMIT_SLOW marks a waiting commit once,
counts it and sets GLB_EVT.SLOW. -/
def Obligations.CommitsApply : Prop :=
  ∀ (s : State) (e : Staged) (n : PortId) (c : CircId) (ch : ChanId) (m v : Word),
    let done (i : Instr) (p : State → Prop) : Prop :=
      ∃ t, exec i s = .next t ∧ t.commit.staged = [] ∧ t.bit 0x0B 3 = true ∧ t.reg 0x409 = s.reg 0x409 + 1#32 ∧ p t
    let has (a : Nat) : Prop := e.words.find? (fun w => w.1 == a) = some (a, m, v)
    s.boot.mantled = true → s.power.relock = false → s.power.st ≠ .dormant → s.commit.staged = [e] → s.commit.queued = [] →
    e.writes ≠ [] → e.words.map (fun w => w.1) = instAddrs e.inst →
    (e.inst = .seq → (∀ x, x < 64 → atInstr s x = true) → has 0x2402 → done (.commitApply .seq) (fun t => t.reg 0x2402 &&& m = v &&& m)) ∧
    (e.inst = .mem → s.mem.active = none → jnlBetween s = true → has 0x3031 → done (.commitApply .mem) (fun t => t.reg 0x3031 &&& m = v &&& m)) ∧
    (e.inst = .port n → (s.port n).rxBusy = false → (s.port n).tx = .idle → has (pAddr n 1) →
      done (.portCommitApply n) (fun t => t.reg (pAddr n 1) &&& m = v &&& m)) ∧
    (e.inst = .circ c → (s.circ c).st = .disabled → heldBy s c = 0 → (newWord s e (cAddr c 0)).getLsbD 0 = true →
      (getF (newWord s e (cAddr c 1)) 0 2 = 1 ∧ present s (getF (newWord s e (cAddr c 1)) 4 4) = true ∨
        getF (newWord s e (cAddr c 1)) 0 2 = 2 ∧ getF (newWord s e (cAddr c 1)) 16 12 ≠ 0 ∧ getF (newWord s e (cAddr c 1)) 16 12 ≠ 0xFFF ∨
        getF (newWord s e (cAddr c 1)) 0 2 = 3) →
      done (.circuitCommitApply c) (fun t => (t.circ c).st = .run ∧ cEn t c = true)) ∧
    (e.inst = (if ch = 0 then .cana else .canb) → (s.can ch).onBus = none → has (chAddr ch 1) →
      done (.canCommitApply ch) (fun t => t.reg (chAddr ch 1) &&& m = v &&& m)) ∧
    (e.slow = false → s.fld 0x0A 0 8 ≠ 0 → ∃ t, exec (.commitSlow e.inst) s = .next t ∧ t.commit.staged = [{ e with slow := true }] ∧
      t.bit 0x0B 2 = true ∧ t.fld 0x09 16 16 = min (s.fld 0x09 16 16 + 1) 65535)

/-- PORT_FREEZE of a present port of a group that is switching and not stopped, at its boundary, freezes the port and changes
nothing else. GROUP_QUIET_POINT with every present port of the switching group frozen stops its clock: CLK_STAT.PGRUN clears.
GROUP_CLOCK_RELEASE of a stopped group, with the switch's commit the only one outstanding and no other group's code in it to come,
puts the new code in CLK_PG, runs the clock again, ends the switch and the commit, sets PGDONE, and unfreezes the group's ports,
whose receivers arm anew. -/
def Obligations.GroupClockSwitch : Prop :=
  ∀ (s : State) (n : PortId) (g : Fin 4) (e : Staged) (m v : Word),
    let x := s.group g
    (present s n = true → pSwitching s n = true → (s.group (n.val / 4)).stopped = false → freezable s n = true →
      exec (.portFreeze n) s = .next (s.setPort n { s.port n with frozen := true })) ∧
    (x.switching = true → x.stopped = false → s.power.relock = false → s.power.groups.length = 4 →
      (∀ k, k < 4 → present s (4 * g + k) = true → (s.port (4 * g + k)).frozen = true) →
      ∃ t, exec (.groupQuietPoint g) s = .next t ∧ t.group g = { x with stopped := true } ∧ t.bit 0x200 (8 + g) = false ∧
        t.bit 0x200 (12 + g) = true ∧ (∀ b, b ≠ 0x200 → t.reg b = s.reg b) ∧ t.ports = s.ports) ∧
    (x.switching = true → x.stopped = true → s.power.relock = false → s.power.groups.length = 4 → x.target < 8 →
      s.boot.mantled = true → s.power.st ≠ .dormant →
      s.commit.staged = [e] → s.commit.queued = [] → e.inst = .clk → e.words = [(0x201, m, v)] → e.writes ≠ [] →
      (∀ h, h < 4 → getF ((s.reg 0x201 &&& ~~~m) ||| (v &&& m)) (4 * h) 3 = if h = g then x.target else s.fld 0x201 (4 * h) 3) →
      ∃ t, exec (.groupClockRelease g) s = .next t ∧ t.fld 0x201 (4 * g) 3 = x.target ∧ t.bit 0x205 g = true ∧
        t.group g = { x with running := true, switching := false, stopped := false, code := x.target } ∧ t.commit.staged = [] ∧
        (∀ k, k < 4 → present s (4 * g + k) = true → (t.port (4 * g + k)).frozen = false ∧ (t.port (4 * g + k)).armed = false))

/-- A context that may issue the fetched ADD, SUB, CMP, ADDI or CMPI within the run limit completes it: Gd takes the sum or
difference of its sources as they stood before (CMP and CMPI have no result), imm18 sign-extended; Z and N follow the result, C is
the carry out of the sum, or for a difference whether Ga is not below the second operand unsigned, V is signed overflow; the
context moves on by one, and no other register, flag, register word, cell or byte changes. -/
def Obligations.SeqSumsAndComparisons : Prop :=
  ∀ (s : State) (x : CircId) (d a b : Reg) (imm : BitVec 18),
    let p := greg s x a
    let q := greg s x b
    let k : Word := imm.signExtend 32
    (issues s x (.add d a b) = true →
      givesResult (.add x d a b) s x (some d) (p + q) (p + q == 0#32, (p + q).msb, p.uaddOverflow q, p.saddOverflow q)) ∧
    (issues s x (.sub d a b) = true →
      givesResult (.sub_ x d a b) s x (some d) (p - q) (p - q == 0#32, (p - q).msb, q.ule p, p.ssubOverflow q)) ∧
    (issues s x (.cmp a b) = true →
      givesResult (.cmp x a b) s x none 0#32 (p - q == 0#32, (p - q).msb, q.ule p, p.ssubOverflow q)) ∧
    (issues s x (.addi d a imm) = true →
      givesResult (.addi x d a imm) s x (some d) (p + k) (p + k == 0#32, (p + k).msb, p.uaddOverflow k, p.saddOverflow k)) ∧
    (issues s x (.cmpi a imm) = true →
      givesResult (.cmpi x a imm) s x none 0#32 (p - k == 0#32, (p - k).msb, k.ule p, p.ssubOverflow k))

/-- A context that may issue the fetched instruction within the run limit completes it: Gd takes the bitwise result, or the low 32
bits of the product, of the sources as they stood before, imm18 zero-extended; Z and N follow it, C and V keep their values; the
context moves on by one, and nothing else changes. -/
def Obligations.SeqLogicAndProducts : Prop :=
  ∀ (s : State) (x : CircId) (d a b : Reg) (imm : BitVec 18),
    let p := greg s x a
    let q := greg s x b
    let k : Word := imm.setWidth 32
    let flags (v : Word) : Bool × Bool × Bool × Bool := (v == 0#32, v.msb, (s.ctx x).c, (s.ctx x).v)
    (issues s x (.and d a b) = true → givesResult (.and_ x d a b) s x (some d) (p &&& q) (flags (p &&& q))) ∧
    (issues s x (.or d a b) = true → givesResult (.or_ x d a b) s x (some d) (p ||| q) (flags (p ||| q))) ∧
    (issues s x (.xor d a b) = true → givesResult (.xor_ x d a b) s x (some d) (p ^^^ q) (flags (p ^^^ q))) ∧
    (issues s x (.mul d a b) = true →
      givesResult (.mul_ x d a b) s x (some d) (BitVec.ofNat 32 (p.toNat * q.toNat)) (flags (BitVec.ofNat 32 (p.toNat * q.toNat)))) ∧
    (issues s x (.andi d a imm) = true → givesResult (.andi x d a imm) s x (some d) (p &&& k) (flags (p &&& k))) ∧
    (issues s x (.ori d a imm) = true → givesResult (.ori x d a imm) s x (some d) (p ||| k) (flags (p ||| k))) ∧
    (issues s x (.xori d a imm) = true → givesResult (.xori x d a imm) s x (some d) (p ^^^ k) (flags (p ^^^ k)))

/-- A context that may issue the fetched shift within the run limit completes it: Gd takes Ga shifted by Gb bits 4:0, or by n; Z
and N follow it; C is the last bit shifted out, 0 for a shift by 0, and the new bit 31 for ROR (that a ROR by 0 does so too is log
entry 18's reading); V keeps its value; the context moves on by one, and nothing else changes. -/
def Obligations.SeqShifts : Prop :=
  ∀ (s : State) (x : CircId) (d a b : Reg) (n : BitVec 5),
    let p := greg s x a
    let m := (greg s x b).toNat % 32
    let flags (v : Word) (c : Bool) : Bool × Bool × Bool × Bool := (v == 0#32, v.msb, c, (s.ctx x).v)
    let outL (j : Nat) : Bool := decide (j ≠ 0) && p.getLsbD (32 - j)
    let outR (j : Nat) : Bool := decide (j ≠ 0) && p.getLsbD (j - 1)
    (issues s x (.shl d a b) = true → givesResult (.shl x d a b) s x (some d) (p <<< m) (flags (p <<< m) (outL m))) ∧
    (issues s x (.shr d a b) = true → givesResult (.shr x d a b) s x (some d) (p >>> m) (flags (p >>> m) (outR m))) ∧
    (issues s x (.sar d a b) = true →
      givesResult (.sar x d a b) s x (some d) (p.sshiftRight m) (flags (p.sshiftRight m) (outR m))) ∧
    (issues s x (.shiShl d a n) = true →
      givesResult (.shiShl x d a n) s x (some d) (p <<< n.toNat) (flags (p <<< n.toNat) (outL n.toNat))) ∧
    (issues s x (.shiShr d a n) = true →
      givesResult (.shiShr x d a n) s x (some d) (p >>> n.toNat) (flags (p >>> n.toNat) (outR n.toNat))) ∧
    (issues s x (.shiSar d a n) = true →
      givesResult (.shiSar x d a n) s x (some d) (p.sshiftRight n.toNat) (flags (p.sshiftRight n.toNat) (outR n.toNat))) ∧
    (issues s x (.shiRor d a n) = true →
      givesResult (.shiRor x d a n) s x (some d) (p.rotateRight n.toNat) (flags (p.rotateRight n.toNat) (p.rotateRight n.toNat).msb))

/-- A context that may issue the fetched instruction within the run limit completes it. MOVI loads imm18 sign-extended. MOVH
replaces bits 31:16. EXT takes L bits from bit P, right-aligned; INS puts Ga's low L bits at bit P and keeps the other bits; both
set Z and N. BTST sets Z to the inverse of Ga bit P. LDP, where the fetch at Ga bits 22:0 gives a word, loads that word. Flags not
named keep their values, the context moves on by one, and nothing else changes. -/
def Obligations.SeqFieldsAndConstants : Prop :=
  ∀ (s : State) (x : CircId) (d a : Reg) (imm : BitVec 18) (h : BitVec 16) (l p : BitVec 5) (w : Word),
    let ga := greg s x a
    let gd := greg s x d
    let keep := znvc s x
    let flags (v : Word) : Bool × Bool × Bool × Bool := (v == 0#32, v.msb, (s.ctx x).c, (s.ctx x).v)
    (issues s x (.movi d imm) = true → givesResult (.movi x d imm) s x (some d) (imm.signExtend 32) keep) ∧
    (issues s x (.movh d h) = true →
      givesResult (.movh x d h) s x (some d) (h ++ gd.extractLsb' 0 16) keep) ∧
    (issues s x (.ext d a l p) = true →
      ∃ v : Word, (∀ i, v.getLsbD i = (decide (i ≤ l.toNat) && ga.getLsbD (p.toNat + i))) ∧
        givesResult (.ext x d a l p) s x (some d) v (flags v)) ∧
    (issues s x (.ins d a l p) = true →
      ∃ v : Word, (∀ i, v.getLsbD i =
          if p.toNat ≤ i ∧ i ≤ p.toNat + l.toNat then ga.getLsbD (i - p.toNat) else gd.getLsbD i) ∧
        givesResult (.ins x d a l p) s x (some d) v (flags v)) ∧
    (issues s x (.btst a p) = true →
      givesResult (.btst x a p) s x none 0#32 (!ga.getLsbD p.toNat, (s.ctx x).n, (s.ctx x).c, (s.ctx x).v)) ∧
    (issues s x (.ldp d a) = true → fetchWord s (ga.toNat % 2 ^ 23) = .word w →
      givesResult (.ldp x d a) s x (some d) w keep)

/-- A context that may issue the fetched instruction within the run limit completes it. BR goes to its own address plus off22
modulo 2^23 where its condition of Table 10-2 holds, else to the next instruction. JMP and CALL go to target23, JR to Ga bits
22:0; CALL pushes the next instruction's address where the stack holds fewer than four; RET pops an address and goes there. NOP
only moves on. Registers, flags and everything else stay as they were. -/
def Obligations.SeqControlFlow : Prop :=
  ∀ (s : State) (x : CircId) (c : Cond) (off : BitVec 22) (t r : BitVec 23) (rest : List (BitVec 23)) (a : Reg),
    let k := s.ctx x
    let pc := progAddr k
    let taken : Bool := match c with
      | .al => true | .eq => k.z | .ne => !k.z | .cs => k.c | .cc => !k.c | .mi => k.n | .pl => !k.n | .er => k.e | .ner => !k.e
      | .hi => k.c && !k.z | .ls => !k.c || k.z | .ge => k.n == k.v | .lt => k.n != k.v | .gt => !k.z && (k.n == k.v) | .le => k.z || (k.n != k.v)
    (issues s x (.br c off) = true →
      runsTo (.br x c off) s x k (if taken then (BitVec.ofNat 23 pc + off.signExtend 23).toNat else (pc + 1) % 2 ^ 23)) ∧
    (issues s x (.jmp t) = true → runsTo (.jmp x t) s x k t.toNat) ∧
    (issues s x (.call t) = true → k.stack.length < 4 →
      runsTo (.call x t) s x { k with stack := BitVec.ofNat 23 (pc + 1) :: k.stack } t.toNat) ∧
    (issues s x .ret = true → k.stack = r :: rest → runsTo (.ret x) s x { k with stack := rest } r.toNat) ∧
    (issues s x (.jr a) = true → runsTo (.jr x a) s x k ((greg s x a).toNat % 2 ^ 23)) ∧
    (issues s x .nop = true → setsCtx (.nop x) s x k)

/-- Where a context whose circuit is not DISABLED may issue, any instruction command finds: a fetch fault faults the context with
its code (2, 3 or 4); a fetched instruction other than WAIT beyond the run limit faults it with code 9; one that reads a general
register with an uncorrectable error faults it with code 4; a fetched reserved encoding, within the run limit, makes
ILLEGAL_ENCODING fault it with code 1. The fault is taken as R317 says: context FAULTED, circuit in FAULT, code and address in the
context's words, registers and stack as they were. -/
def Obligations.SeqFaultsOfIssue : Prop :=
  ∀ (s : State) (i : Instr) (x : CircId) (op : SeqOp) (c : Nat) (w : Word),
    (s.circ x).st ≠ .disabled →
    (seqForm i = some (x, op) → ctxReady s x = true → fetchWord s (progAddr (s.ctx x)) = .fault c → faultsWith i s x c) ∧
    (seqForm i = some (x, op) → isWait op = false → fetches s x op = true → overLimit s x = true → faultsWith i s x 9) ∧
    (seqForm i = some (x, op) → fetches s x op = true → (isWait op || !overLimit s x) = true →
      op.reads.any (fun r => (s.ctx x).gBad.contains r.val) = true → faultsWith i s x 4) ∧
    (ctxReady s x = true → overLimit s x = false → fetchWord s (progAddr (s.ctx x)) = .word w → seqDecode w = none →
      faultsWith (.illegalEncoding x) s x 1)

/-- Where the context's circuit is not DISABLED and it may issue the fetched instruction within the run limit: CALL on a stack of
four and RET on an empty stack fault with code 8; WAIT with EM 0 faults with code 12; PRX, PRX.NB, PRX.TS, PTX, PTX.L, PTX.NB and
PBRK of a port that does not feed the context's circuit fault with code 6; CUR.PASS, CUR.FREE, CUR.SEEK, CUR.HDR and RD with an
empty read cursor, CUR.CLOSE, CUR.DISC and WR with an empty write cursor, and RD without SOFT beyond LENGTH, fault with code 5. -/
def Obligations.SeqFaultsOfEffect : Prop :=
  ∀ (s : State) (x : CircId) (t : BitVec 23) (d a : Reg) (p : Fin 16) (k : Fin 4) (e l c pm sf wd : Bool) (i off : Nat) (v : Bool),
    (s.circ x).st ≠ .disabled →
    (issues s x (.call t) = true → (s.ctx x).stack.length = 4 → faultsWith (.call x t) s x 8) ∧
    (issues s x .ret = true → (s.ctx x).stack = [] → faultsWith (.ret x) s x 8) ∧
    (issues s x (.wait d) = true → (s.ctx x).em = 0#16 → faultsWith (.wait x d) s x 12) ∧
    (feedsCtx s x p = false →
      (issues s x (.prx d p) = true → faultsWith (.prx x d p) s x 6) ∧
      (issues s x (.prxNb d p) = true → faultsWith (.prxNb x d p) s x 6) ∧
      (issues s x (.prxTs d p) = true → faultsWith (.prxTs x d p) s x 6) ∧
      (issues s x (.ptx a p) = true → faultsWith (.ptx x a p) s x 6) ∧
      (issues s x (.ptxL a p) = true → faultsWith (.ptxL x a p) s x 6) ∧
      (issues s x (.ptxNb a p) = true → faultsWith (.ptxNb x a p) s x 6) ∧
      (issues s x (.pbrk p) = true → faultsWith (.pbrk x p) s x 6)) ∧
    ((s.ctx x).rcur = .empty →
      (issues s x .curPass = true → faultsWith (.curPass x) s x 5) ∧
      (issues s x .curFree = true → faultsWith (.curFree x) s x 5) ∧
      (issues s x (.curSeek a) = true → faultsWith (.curSeek x a) s x 5) ∧
      (issues s x (.curHdr d k) = true → faultsWith (.curHdr x d k) s x 5) ∧
      (issues s x (.rd d c pm sf wd) = true → faultsWith (.rd x d c pm sf wd) s x 5)) ∧
    (wcurOf s x = none →
      (issues s x (.curClose d e l c) = true → faultsWith (.curClose x d e l c) s x 5) ∧
      (issues s x .curDisc = true → faultsWith (.curDisc x) s x 5) ∧
      (issues s x (.wr a c l wd) = true → faultsWith (.wr x a c l wd) s x 5)) ∧
    ((s.ctx x).rcur = .held i off v → (s.cell i).payload.length < off + (if wd then 4 else 1) →
      issues s x (.rd d c pm false wd) = true → faultsWith (.rd x d c pm false wd) s x 5)

/-- A context that may issue the fetched instruction completes it. WAIT with an enabled event pending puts EP AND EM in Gd and
clears exactly those bits of EP; with EM not 0 and none pending the context goes to WAIT. EVM.SET, OR, CLR and SETR put the old EM
in Gd and change EM as named; EVM.PEEK puts EP AND imm14 in Gd, clears those bits of EP and sets Z. WAIT_WAKE of a waiting context
with an enabled event pending delivers it in the register its WAIT named and makes the context RUN. Nothing else changes. -/
def Obligations.SeqWaitAndMasks : Prop :=
  ∀ (s : State) (x : CircId) (d a : Reg) (m : BitVec 14),
    let k := s.ctx x
    let old := withReg k d (k.em.setWidth 32)
    let hit : BitVec 16 := k.ep &&& m.setWidth 16
    (issues s x (.wait d) = true → k.ep &&& k.em ≠ 0#16 →
      setsCtx (.wait x d) s x { withReg k d ((k.ep &&& k.em).setWidth 32) with ep := k.ep &&& ~~~k.em }) ∧
    (issues s x (.wait d) = true → k.em ≠ 0#16 → k.ep &&& k.em = 0#16 →
      setsCtx (.wait x d) s x { k with st := .wait, waitReg := d.val }) ∧
    (issues s x (.evmSet d m) = true → setsCtx (.evmSet x d m) s x { old with em := m.setWidth 16 }) ∧
    (issues s x (.evmOr d m) = true → setsCtx (.evmOr x d m) s x { old with em := k.em ||| m.setWidth 16 }) ∧
    (issues s x (.evmClr d m) = true → setsCtx (.evmClr x d m) s x { old with em := k.em &&& ~~~m.setWidth 16 }) ∧
    (issues s x (.evmSetr d a) = true → setsCtx (.evmSetr x d a) s x { old with em := (greg s x a).setWidth 16 }) ∧
    (issues s x (.evmPeek d m) = true →
      setsCtx (.evmPeek x d m) s x { withReg k d (hit.setWidth 32) with ep := k.ep &&& ~~~hit, z := decide (hit = 0#16) }) ∧
    (k.st = .wait → k.ep &&& k.em ≠ 0#16 → stockAt (progAddr k) = none → s.power.relock = false → s.power.st ≠ .dormant →
      ∃ t, exec (.waitWake x) s = .next t ∧ ctxOnly s t x ∧
        t.ctx x = { withReg k (regN k.waitReg) ((k.ep &&& k.em).setWidth 32) with
          ep := k.ep &&& ~~~k.em, st := .run, gBad := k.gBad.filter (· != (regN k.waitReg).val) })

/-- A context that may issue the fetched instruction within the run limit completes it. TMR.START and TMR.STI start TMn from Ga
bits 23:0 or imm14, TMR.STOP stops it, and each clears the timer's bit of EP (6 or 7); TMR.READ puts the remaining ticks in Gd and
sets Z. TIM.FRAC latches the time count and returns its fraction; TIM.SECL and TIM.SECH return bits 31:0 and 47:32 of the latched
seconds. TIMER_EXPIRY of a running timer stops it at 0 and sets its event bit. Nothing else changes. (What TMR.STOP leaves in the
counter is log entry 20.) -/
def Obligations.SeqTimersAndTime : Prop :=
  ∀ (s : State) (x : CircId) (n : Bool) (d a : Reg) (m : BitVec 14),
    let k := s.ctx x
    let tm : Tmr := if n then k.tm1 else k.tm0
    let bit : BitVec 16 := if n then 0x80#16 else 0x40#16
    let put (e : BitVec 16) (t : Tmr) : Ctx := if n then { k with ep := e, tm1 := t } else { k with ep := e, tm0 := t }
    (issues s x (.tmrStart n a) = true →
      setsCtx (.tmrStart x n a) s x (put (k.ep &&& ~~~bit) ⟨true, (greg s x a).toNat % 2 ^ 24⟩)) ∧
    (issues s x (.tmrSti n m) = true → setsCtx (.tmrSti x n m) s x (put (k.ep &&& ~~~bit) ⟨true, m.toNat⟩)) ∧
    (issues s x (.tmrStop n) = true → setsCtx (.tmrStop x n) s x (put (k.ep &&& ~~~bit) ⟨false, tm.val⟩)) ∧
    (issues s x (.tmrRead n d) = true →
      setsCtx (.tmrRead x n d) s x { withReg k d (BitVec.ofNat 32 tm.val) with z := BitVec.ofNat 32 tm.val == 0#32 }) ∧
    (issues s x (.timFrac d) = true →
      setsCtx (.timFrac x d) s x { withReg k d (s.hold.count.extractLsb' 0 32) with timLatch := s.hold.count }) ∧
    (issues s x (.timSecl d) = true → setsCtx (.timSecl x d) s x (withReg k d (k.timLatch.extractLsb' 32 32))) ∧
    (issues s x (.timSech d) = true →
      setsCtx (.timSech x d) s x (withReg k d ((k.timLatch.extractLsb' 64 16).setWidth 32))) ∧
    (tm.run = true → ∃ t, exec (.timerExpiry x n) s = .next t ∧ ctxOnly s t x ∧ t.ctx x = put (k.ep ||| bit) ⟨false, 0⟩)

/-- A context that may issue the fetched instruction within the run limit completes it. CRC.CFG sets width, polynomial (low w bits
of Ga), REFIN and REFOUT and clears the accumulator; CRC.INIT loads the low w bits of Ga; CRC.FEED and CRC.FEEDW, with a width
that CRC.CFG can set, take one byte or four (most significant first) into the accumulator one bit at a time, least significant bit
first under REFIN, each bit shifting the accumulator left and adding the polynomial where the bit differs from the one shifted
out; CRC.READ returns the accumulator, reversed over w bits under REFOUT, XORed with the low w bits of Ga, and sets Z. Nothing
else changes. -/
def Obligations.SeqCrcEngine : Prop :=
  ∀ (s : State) (x : CircId) (d a : Reg) (w : Fin 3) (ri ro : Bool),
    let k := s.ctx x
    let e := k.crc
    let low (n : Nat) (v : Word) : Word := BitVec.ofNat 32 (v.toNat % 2 ^ n)
    let bitIn (acc : Word) (b : Bool) : Word :=
      low e.width (acc <<< 1) ^^^ (if acc.getLsbD (e.width - 1) != b then e.poly else 0#32)
    let byteIn (acc : Word) (b : Byte) : Word :=
      (List.range 8).foldl (fun r i => bitIn r (b.getLsbD (if e.refin then i else 7 - i))) acc
    let ga := greg s x a
    (issues s x (.crcCfg a w ri ro) = true →
      setsCtx (.crcCfg x a w ri ro) s x { k with
        crc := { width := 8 * 2 ^ w.val, poly := low (8 * 2 ^ w.val) ga, refin := ri, refout := ro, acc := 0#32 } }) ∧
    (issues s x (.crcInit a) = true → setsCtx (.crcInit x a) s x { k with crc := { e with acc := low e.width ga } }) ∧
    (issues s x (.crcFeed a) = true → e.width = 8 ∨ e.width = 16 ∨ e.width = 32 →
      setsCtx (.crcFeed x a) s x { k with crc := { e with acc := byteIn e.acc (ga.extractLsb' 0 8) } }) ∧
    (issues s x (.crcFeedw a) = true → e.width = 8 ∨ e.width = 16 ∨ e.width = 32 →
      setsCtx (.crcFeedw x a) s x { k with crc := { e with
        acc := byteIn (byteIn (byteIn (byteIn e.acc (ga.extractLsb' 24 8)) (ga.extractLsb' 16 8)) (ga.extractLsb' 8 8)) (ga.extractLsb' 0 8) } }) ∧
    (issues s x (.crcRead d a) = true → e.width ≤ 32 →
      ∃ v : Word, (∀ i, i < e.width → v.getLsbD i = (e.acc.getLsbD (if e.refout then e.width - 1 - i else i) != ga.getLsbD i)) ∧
        (∀ i, e.width ≤ i → v.getLsbD i = (!e.refout && e.acc.getLsbD i)) ∧
        setsCtx (.crcRead x d a) s x { withReg k d v with z := v == 0#32 })

/-- A context that may issue the fetched instruction within the run limit completes it. PM.VAL and PM.MASK take Ga, PM.LEN a
length of 0 to 4 and starts the fed count again, PM.CLR clears both windows and counts. PM.FEED shifts Ga bits 7:0 into both
windows and counts it; matcher n matches when its length k is not 0, at least k bytes have been fed, and (window XOR VAL) AND MASK
AND (2^8k - 1) is 0; Gd bits 0 and 1 say which matched, Z follows, and a match sets EP bit 8. Nothing else changes. -/
def Obligations.SeqPatternMatchers : Prop :=
  ∀ (s : State) (x : CircId) (n : Bool) (d a : Reg) (len : Fin 5),
    let k := s.ctx x
    let ga := greg s x a
    let put (f : Matcher → Matcher) : Ctx := if n then { k with pm1 := f k.pm1 } else { k with pm0 := f k.pm0 }
    let fed (m : Matcher) : Matcher := { m with window := (m.window <<< 8) ||| (ga &&& 0xFF#32), fed := m.fed + 1 }
    let hit (m : Matcher) : Bool :=
      decide (m.len ≠ 0 ∧ m.len ≤ (fed m).fed ∧ (((fed m).window ^^^ m.val) &&& m.mask).toNat % 2 ^ (8 * m.len) = 0)
    let v : Word := (if hit k.pm0 then 1#32 else 0#32) ||| (if hit k.pm1 then 2#32 else 0#32)
    (issues s x (.pmVal n a) = true → setsCtx (.pmVal x n a) s x (put (fun m => { m with val := ga }))) ∧
    (issues s x (.pmMask n a) = true → setsCtx (.pmMask x n a) s x (put (fun m => { m with mask := ga }))) ∧
    (issues s x (.pmLen n len) = true → setsCtx (.pmLen x n len) s x (put (fun m => { m with len := len.val, fed := 0 }))) ∧
    (issues s x .pmClr = true → setsCtx (.pmClr x) s x { k with
      pm0 := { k.pm0 with window := 0#32, fed := 0 }, pm1 := { k.pm1 with window := 0#32, fed := 0 } }) ∧
    (issues s x (.pmFeed d a) = true → setsCtx (.pmFeed x d a) s x { withReg k d v with
      pm0 := fed k.pm0, pm1 := fed k.pm1, z := v == 0#32,
      ep := if hit k.pm0 || hit k.pm1 then k.ep ||| 0x100#16 else k.ep })

/-- A context that may issue the fetched instruction within the run limit completes it. The five CRD forms put the circuit's
credits, held cells, waiting cells, state code and inbox length in Gd and set Z. SYS.CNT0 and SYS.CNT1 count once, saturating, in
their half of SEQ_Cnn_PCNT. SYS.SIGNAL j sets the SIGNAL event (EP bit 11) of context 8k + j of the own core. Nothing else
changes. -/
def Obligations.SeqCreditAndSystem : Prop :=
  ∀ (s : State) (x : CircId) (d : Reg) (j : Fin 8),
    let k := s.ctx x
    let c := s.circ x
    let gives (v : Nat) : Ctx := { withReg k d (BitVec.ofNat 32 v) with z := BitVec.ofNat 32 v == 0#32 }
    let code : Nat := match c.st with | .disabled => 0 | .run => 1 | .drain => 2 | .fault => 3
    let taken : Nat := match k.rcur with | .held _ _ _ => 1 | _ => 0
    let y := x.val / 8 * 8 + j.val
    (issues s x (.crdCredits d) = true → setsCtx (.crdCredits x d) s x (gives c.credits)) ∧
    (issues s x (.crdHeld d) = true → setsCtx (.crdHeld x d) s x (gives (heldBy s x))) ∧
    (issues s x (.crdWaiting d) = true → setsCtx (.crdWaiting x d) s x (gives (c.queue.length + c.inbox.length + taken))) ∧
    (issues s x (.crdState d) = true → setsCtx (.crdState x d) s x (gives code)) ∧
    (issues s x (.crdInbox d) = true → setsCtx (.crdInbox x d) s x (gives c.inbox.length)) ∧
    (issues s x .sysCnt0 = true → ∃ t, exec (.sysCnt0 x) s = .next t ∧ movedOn s t x ∧
      t = { s.issuedAs t with regs := t.regs } ∧ (∀ r, r ≠ xAddr x 5 → t.reg r = s.reg r) ∧
      t.fld (xAddr x 5) 0 16 = min (s.fld (xAddr x 5) 0 16 + 1) 65535 ∧ t.fld (xAddr x 5) 16 16 = s.fld (xAddr x 5) 16 16) ∧
    (issues s x .sysCnt1 = true → ∃ t, exec (.sysCnt1 x) s = .next t ∧ movedOn s t x ∧
      t = { s.issuedAs t with regs := t.regs } ∧ (∀ r, r ≠ xAddr x 5 → t.reg r = s.reg r) ∧
      t.fld (xAddr x 5) 16 16 = min (s.fld (xAddr x 5) 16 16 + 1) 65535 ∧ t.fld (xAddr x 5) 0 16 = s.fld (xAddr x 5) 0 16) ∧
    (issues s x (.sysSignal j) = true → ∃ t, exec (.sysSignal x j) s = .next t ∧ movedOn s t x ∧ t = s.issuedAs t ∧
      (t.ctx y).ep = (s.ctx y).ep ||| 0x800#16 ∧ (∀ z, z ≠ x.val → z ≠ y → t.ctx z = s.ctx z) ∧
      (y ≠ x.val → t.ctx y = { s.ctx y with ep := (s.ctx y).ep ||| 0x800#16 }))

/-- For a port that feeds the context's circuit and an instruction the context may issue: where the port is disabled or in CELL
mode, PRX, PTX and their NB and L forms set E only; PRX.TS of a disabled port has no effect. Else PRX and PRX.NB take a full
receive holding register: Gd is Table 10-9's word, the register empties, the character latch, with the character's check, and the
timestamp of PRX.TS load, E clears; PTX, PTX.L and PTX.NB fill an empty transmit holding register with Ga bits 8:0 and the check
over the data byte, last-of-cell for PTX.L (waiting for an open verdict), and clear E. On an empty receive or full transmit
register PRX, PTX and PTX.L wait for the port with no other change, and the NB forms set E. PBRK requests a break of an enabled
port, PST reads Pnn_STAT and sets Z, PRX.TS of an enabled port returns the kept timestamp. -/
def Obligations.SeqPortCharacters : Prop :=
  ∀ (s : State) (x : CircId) (d a : Reg) (p : Fin 16) (h : RxChar),
    let k := s.ctx x
    let q := s.port p
    let ga := greg s x a
    let fails (i : Instr) : Prop := setsCtx i s x { k with e := true }
    let takes (i : Instr) : Prop := ∃ t, exec i s = .next t ∧ ctxPortOnly s t x p ∧ t.port p = { q with rxHold := none } ∧
      t.ctx x = withRun { withReg k d (greg t x d) with e := false, chLatch := some (h.data, h.check), prxTs := (t.ctx x).prxTs } (t.ctx x) ∧
      fget (fun _ => 0) (t.ctx x).prxTs p = cellForm h.ts ∧
      getF (greg t x d) 0 8 = h.data.toNat ∧ getF (greg t x d) 8 1 = b2n h.mark ∧ getF (greg t x d) 9 2 = h.cls % 4 ∧
      getF (greg t x d) 11 1 = b2n h.ovr ∧ getF (greg t x d) 12 1 = b2n h.noise ∧ getF (greg t x d) 13 1 = b2n h.early ∧
      getF (greg t x d) 14 4 = h.entry % 16 ∧ getF (greg t x d) 18 14 = 0
    let waits (i : Instr) : Prop := exec i s = .next (s.setCtx x { k with portWait := some p.val })
    let fills (i : Instr) (last : Bool) : Prop := ∃ t, exec i s = .next t ∧ ctxPortOnly s t x p ∧
      t.port p = { q with txHold := some ⟨ga.extractLsb' 0 8, ga.getLsbD 8, last, if last && verdictOpen s x then some x.val else none,
        crc32c [ga.extractLsb' 0 8]⟩ } ∧
      t.ctx x = withRun { k with e := false } (t.ctx x)
    (issues s x (.pst d p) = true → setsCtx (.pst x d p) s x { withReg k d (portStat s p) with z := portStat s p == 0#32 }) ∧
    (feedsCtx s x p = true →
      (issues s x (.prxTs d p) = true →
        (pEn s p = true → setsCtx (.prxTs x d p) s x (withReg k d (BitVec.ofNat 32 (fget (fun _ => 0) k.prxTs p)))) ∧
        (pEn s p = false → setsCtx (.prxTs x d p) s x k)) ∧
      (issues s x (.prx d p) = true →
        (holdReady s p = false → fails (.prx x d p)) ∧
        (holdReady s p = true → q.rxHold = some h → takes (.prx x d p)) ∧
        (holdReady s p = true → q.rxHold = none → waits (.prx x d p))) ∧
      (issues s x (.prxNb d p) = true →
        (holdReady s p = false → fails (.prxNb x d p)) ∧
        (holdReady s p = true → q.rxHold = some h → takes (.prxNb x d p)) ∧
        (holdReady s p = true → q.rxHold = none → fails (.prxNb x d p))) ∧
      (issues s x (.ptx a p) = true →
        (holdReady s p = false → fails (.ptx x a p)) ∧
        (holdReady s p = true → q.txHold = none → fills (.ptx x a p) false) ∧
        (holdReady s p = true → q.txHold ≠ none → waits (.ptx x a p))) ∧
      (issues s x (.ptxL a p) = true →
        (holdReady s p = false → fails (.ptxL x a p)) ∧
        (holdReady s p = true → q.txHold = none → fills (.ptxL x a p) true) ∧
        (holdReady s p = true → q.txHold ≠ none → waits (.ptxL x a p))) ∧
      (issues s x (.ptxNb a p) = true →
        (holdReady s p = false → fails (.ptxNb x a p)) ∧
        (holdReady s p = true → q.txHold = none → fills (.ptxNb x a p) false) ∧
        (holdReady s p = true → q.txHold ≠ none → fails (.ptxNb x a p))) ∧
      (issues s x (.pbrk p) = true →
        (pEn s p = false → fails (.pbrk x p)) ∧
        (pEn s p = true → q.tx ≠ .brk → ∃ t, exec (.pbrk x p) s = .next t ∧ ctxPortOnly s t x p ∧
          t.port p = { q with brkReq := true } ∧ t.ctx x = withRun { k with e := false } (t.ctx x))))

/-- For a context whose circuit is in RUN and an instruction it may issue: CUR.TAKE with no cell held takes the head of the inbox
at offset 0, and with a cell held or an empty inbox sets E. CUR.PASS of a held cell whose verdict is not open, or passes, puts the
cells held for the verdict and then the cell at the end of the endpoint queue; CUR.FREE of one whose verdict is not open frees it;
both leave RCUR empty and E clear. CUR.SEEK moves forward within LENGTH and opens the verdict, or sets E. CUR.INFO and CUR.HDR
report the cursor's cell. CUR.FREEI of an own cell that is in neither cursor and not being taken frees it with E clear; of a free
cell it sets E and counts the repeat. -/
def Obligations.SeqReadCursor : Prop :=
  ∀ (s : State) (x : CircId) (d a : Reg) (n : Fin 4) (i off : Nat) (v : Bool) (rest : List Nat),
    let k := s.ctx x
    let c := s.cell i
    let ga := greg s x a
    (s.circ x).st = .run →
    (issues s x (.curTake d) = true → (∀ j o w, k.rcur ≠ .held j o w) → (s.circ x).inbox = i :: rest →
      ∃ t, exec (.curTake x d) s = .next t ∧ movedOn s t x ∧ t = { s.issuedAs t with circs := t.circs } ∧
        t.circ x = { s.circ x with inbox := rest } ∧ (∀ e, e ≠ x.val → t.circ e = s.circ e) ∧ (∀ y, y ≠ x.val → t.ctx y = s.ctx y) ∧
        t.ctx x = withRun { withReg k d (BitVec.ofNat 32 (i + c.payload.length * 2 ^ 16 + cellFlags c * 2 ^ 24)) with
          rcur := .held i 0 false, e := false } (t.ctx x)) ∧
    (issues s x (.curTake d) = true → k.rcur = .held i off v ∨ (k.rcur = .empty ∧ (s.circ x).inbox = []) →
      setsCtx (.curTake x d) s x { k with e := true }) ∧
    (issues s x .curPass = true → k.rcur = .held i off v → v = false ∨ sleeveBad c = false →
      ∃ t, exec (.curPass x) s = .next t ∧ movedOn s t x ∧
        (t.circ x).queue = (s.circ x).queue ++ (if v then k.heldCells else []) ++ [i] ∧ (∀ j, t.cell j = s.cell j) ∧
        t.ctx x = withRun { k with rcur := .empty, e := false, heldCells := if v then [] else k.heldCells } (t.ctx x)) ∧
    (issues s x .curFree = true → k.rcur = .held i off false → c.owner = .circ x →
      ∃ t, exec (.curFree x) s = .next t ∧ movedOn s t x ∧ (t.cell i).owner ≠ .circ x ∧ (t.ctx x).rcur = .empty ∧ (t.ctx x).e = false) ∧
    (issues s x (.curSeek a) = true → k.rcur = .held i off v →
      (ga.toNat < off ∨ c.payload.length < ga.toNat → setsCtx (.curSeek x a) s x { k with e := true }) ∧
      (ga.toNat = off → off ≤ c.payload.length → setsCtx (.curSeek x a) s x { k with e := false }) ∧
      (off < ga.toNat → ga.toNat ≤ c.payload.length → ∃ t, exec (.curSeek x a) s = .next t ∧ movedOn s t x ∧
        t = { s.issuedAs t with fresh := s.fresh + 1 } ∧ (∀ y, y ≠ x.val → t.ctx y = s.ctx y) ∧
        t.ctx x = withRun { k with rcur := .held i ga.toNat true, e := false } (t.ctx x))) ∧
    (issues s x (.curInfo d false) = true →
      (k.rcur = .held i off v → setsCtx (.curInfo x d false) s x
        { withReg k d (BitVec.ofNat 32 (i + off * 2 ^ 12 + c.payload.length * 2 ^ 20)) with e := false }) ∧
      (k.rcur = .empty ∨ k.rcur = .lost → setsCtx (.curInfo x d false) s x { withReg k d 0#32 with e := true })) ∧
    (issues s x (.curInfo d true) = true →
      (wcurOf s x = some i → setsCtx (.curInfo x d true) s x
        { withReg k d (BitVec.ofNat 32 (i + c.payload.length * 2 ^ 12 + c.payload.length * 2 ^ 20)) with e := false }) ∧
      (wcurOf s x = none → setsCtx (.curInfo x d true) s x { withReg k d 0#32 with e := true })) ∧
    (issues s x (.curHdr d n) = true →
      (k.rcur = .held i off v → setsCtx (.curHdr x d n) s x (withReg k d (headerWord c n))) ∧
      (k.rcur = .lost → setsCtx (.curHdr x d n) s x (withReg k d 0#32))) ∧
    (issues s x (.curFreei a) = true → i = ga.toNat % 4096 → (∀ o w, k.rcur ≠ .held i o w) → wcurOf s x ≠ some i →
      (c.owner = .circ x → c.st ≠ .taken → ∃ t, exec (.curFreei x a) s = .next t ∧ movedOn s t x ∧
        (t.cell i).owner ≠ .circ x ∧ (t.ctx x).e = false) ∧
      (c.owner = .free → ∃ t, exec (.curFreei x a) s = .next t ∧ movedOn s t x ∧ (t.ctx x).e = true ∧ (∀ j, t.cell j = s.cell j) ∧
        t.fld (cAddr x 0x12) 0 16 = min (s.fld (cAddr x 0x12) 0 16 + 1) 65535 ∧ t.bit (cAddr x 0x0D) 4 = true))

/-- For a context whose circuit is in RUN and an instruction it may issue: CUR.ALLOC puts 4 in Gd where WCUR holds a cell; else 0
where the allocation is granted, a free cell becoming an open cell of the circuit held by WCUR, and 2 or 3 where the ceiling or
the pool refuses; E says whether Gd is not 0. CUR.CLOSE of a WCUR cell with bytes closes it with CAUSE 6, the named flags, the
circuit's next SEQ and the CRC-32C of its bytes as sleeve; Gd is the SEQ and the cell goes to the endpoint queue, or is held while
a verdict is open; an empty cell is freed instead, with Z set and Gd as it was. CUR.DISC frees the WCUR cell. -/
def Obligations.SeqWriteCursor : Prop :=
  ∀ (s : State) (x : CircId) (d : Reg) (e l ct : Bool) (i : Nat),
    let k := s.ctx x
    let c := s.cell i
    (s.circ x).st = .run →
    (issues s x (.curAlloc d) = true →
      (wcurOf s x = some i → setsCtx (.curAlloc x d) s x { withReg k d 4#32 with e := true }) ∧
      (wcurOf s x = none → allocDecide s x false = .granted → pickFree s = some i →
        ∃ t, exec (.curAlloc x d) s = .next t ∧ movedOn s t x ∧ greg t x d = 0#32 ∧ (t.ctx x).e = false ∧
          (t.cell i).owner = .circ x ∧ (t.cell i).st = .openS ∧ (t.cell i).holder = .wcur x ∧ (t.cell i).payload = [] ∧
          ∀ j, j ≠ i → t.cell j = s.cell j) ∧
      (wcurOf s x = none → allocDecide s x false = .ceiling →
        ∃ t, exec (.curAlloc x d) s = .next t ∧ movedOn s t x ∧ greg t x d = 2#32 ∧ (t.ctx x).e = true ∧ ∀ j, t.cell j = s.cell j) ∧
      (wcurOf s x = none → allocDecide s x false = .pool →
        ∃ t, exec (.curAlloc x d) s = .next t ∧ movedOn s t x ∧ greg t x d = 3#32 ∧ (t.ctx x).e = true ∧ ∀ j, t.cell j = s.cell j)) ∧
    (issues s x (.curClose d e l ct) = true → wcurOf s x = some i → c.owner = .circ x →
      (c.payload ≠ [] → ∃ t, exec (.curClose x d e l ct) s = .next t ∧ movedOn s t x ∧
        t.cell i = { c with errChr := e, afterLoss := l, cont := ct, st := .closed, cause := 6, seq := (s.circ x).txseq,
                            sleeve := crc32c c.payload, cls := cClass s x, holder := .none } ∧
        greg t x d = BitVec.ofNat 32 (s.circ x).txseq ∧ (t.ctx x).z = decide (BitVec.ofNat 32 (s.circ x).txseq = 0#32) ∧
        (t.circ x).txseq = ((s.circ x).txseq + 1) % 65536 ∧
        (t.circ x).queue = (s.circ x).queue ++ (if verdictOpen s x then [] else [i]) ∧
        (t.ctx x).heldCells = k.heldCells ++ (if verdictOpen s x then [i] else [])) ∧
      (c.payload = [] → ∃ t, exec (.curClose x d e l ct) s = .next t ∧ movedOn s t x ∧ (t.cell i).owner ≠ .circ x ∧
        (t.ctx x).z = true ∧ ∀ r, greg t x r = greg s x r)) ∧
    (issues s x .curDisc = true → wcurOf s x = some i → c.owner = .circ x →
      ∃ t, exec (.curDisc x) s = .next t ∧ movedOn s t x ∧ (t.cell i).owner ≠ .circ x)

/-- For an instruction the context may issue, on cells whose words have no error: RD within LENGTH puts the next byte, or four
most significant first, in Gd, moves the offset and opens the verdict; with SOFT beyond LENGTH it only sets E. WR within offset
239 appends Ga's low byte, its four bytes most significant first, or the latched character, which it consumes, where the
character's check is that of its byte; where it is not, the open cell is discarded and E set; with an empty latch it only sets E.
COPY of n bytes that the source holds and WCUR has room for appends them and moves RCUR past them; of 0 bytes it only clears E.
Each clears E when it succeeds. Other general registers and other cells stay as they were, and the CRC engine and matchers where
their options are off. -/
def Obligations.SeqCellBytes : Prop :=
  ∀ (s : State) (x : CircId) (d a : Reg) (crc pm sf wd : Bool) (i j off : Nat) (v : Bool) (b : Byte) (chk : Word),
    let k := s.ctx x
    let c := s.cell i
    let w := s.cell j
    let ga := greg s x a
    let n := if wd then 4 else 1
    (issues s x (.rd d crc pm sf wd) = true → k.rcur = .held i off v → c.bad = [] →
      (off + n ≤ c.payload.length → ∃ t, exec (.rd x d crc pm sf wd) s = .next t ∧ movedOn s t x ∧
        t = { s.issuedAs t with fresh := s.fresh + 1 } ∧ (∀ y, y ≠ x.val → t.ctx y = s.ctx y) ∧
        greg t x d = BitVec.ofNat 32 (natBE ((c.payload.drop off).take n)) ∧ keepsRegs s t x (· = d) ∧
        (t.ctx x).rcur = .held i (off + n) true ∧ (t.ctx x).e = false ∧
        (crc = false → (t.ctx x).crc = k.crc) ∧ (pm = false → (t.ctx x).pm0 = k.pm0 ∧ (t.ctx x).pm1 = k.pm1 ∧ (t.ctx x).ep = k.ep)) ∧
      (c.payload.length < off + n → sf = true → setsCtx (.rd x d crc pm sf wd) s x { k with e := true })) ∧
    (issues s x (.wr a crc false wd) = true → wcurOf s x = some j → w.bad = [] → w.payload.length + n ≤ 240 →
      ∃ t, exec (.wr x a crc false wd) s = .next t ∧ movedOn s t x ∧ (t.ctx x).e = false ∧ (∀ r, greg t x r = greg s x r) ∧
        t.cell j = { w with payload := w.payload ++ (if wd then
          [ga.extractLsb' 24 8, ga.extractLsb' 16 8, ga.extractLsb' 8 8, ga.extractLsb' 0 8] else [ga.extractLsb' 0 8]) } ∧
        (∀ m, m ≠ j → t.cell m = s.cell m) ∧ (crc = false → (t.ctx x).crc = k.crc)) ∧
    (issues s x (.wr a crc true false) = true → wcurOf s x = some j →
      (k.chLatch = some (b, chk) → chk ≠ crc32c [b] → w.payload.length + 1 ≤ 240 → w.owner = .circ x →
        ∃ t, exec (.wr x a crc true false) s = .next t ∧ (t.cell j).owner ≠ .circ x ∧ (t.ctx x).e = true ∧ (t.ctx x).chLatch = none) ∧
      (k.chLatch = some (b, crc32c [b]) → w.bad = [] → w.payload.length + 1 ≤ 240 →
        ∃ t, exec (.wr x a crc true false) s = .next t ∧ movedOn s t x ∧ (t.ctx x).e = false ∧ (t.ctx x).chLatch = none ∧
          (∀ r, greg t x r = greg s x r) ∧ t.cell j = { w with payload := w.payload ++ [b] } ∧ ∀ m, m ≠ j → t.cell m = s.cell m) ∧
      (k.chLatch = none → setsCtx (.wr x a crc true false) s x { k with e := true })) ∧
    (issues s x (.copy a crc) = true → k.rcur = .held i off v → wcurOf s x = some j → i ≠ j → c.bad = [] → w.bad = [] →
      off + ga.toNat ≤ c.payload.length → w.payload.length + ga.toNat ≤ 240 →
      (ga = 0#32 → setsCtx (.copy x a crc) s x { k with e := false }) ∧
      (ga ≠ 0#32 → ∃ t, exec (.copy x a crc) s = .next t ∧ movedOn s t x ∧ (t.ctx x).e = false ∧ (∀ r, greg t x r = greg s x r) ∧
        (t.ctx x).rcur = .held i (off + ga.toNat) true ∧
        t.cell j = { w with payload := w.payload ++ (c.payload.drop off).take ga.toNat } ∧
        (∀ m, m ≠ j → t.cell m = s.cell m) ∧ (crc = false → (t.ctx x).crc = k.crc)))

/-- For every instruction that has an encoding, with every operand at every value its encoding admits, decoding its word gives the
instruction back; and every word that decodes at all decodes to an instruction that has an encoding and encodes back to that very
word. So no word has two meanings, no operand bit is dropped, and a word with a non-zero bit in a field marked zero is reserved.
-/
def Obligations.SeqCodeRoundTrip : Prop :=
  (∀ op : SeqOp, op.wf = true → seqDecode (seqEncode op) = some op) ∧
  (∀ (w : Word) (op : SeqOp), seqDecode w = some op → op.wf = true ∧ seqEncode op = w)

/-- The nine words of Table 10-12 decode to ADD G3, G1, G2; MOVI G4, 0x8005; CRC.CFG G4, W16 RIN ROUT; CRC.INIT G4; EVM.SET G4,
0x0045; WAIT G0; BTST G0, 6; BR.EQ +3; NOP; and the all-zero word is reserved. -/
def Obligations.SeqCodeExamples : Prop :=
  seqDecode 0x04C48000#32 = some (.add 3 1 2) ∧ seqDecode 0x45008005#32 = some (.movi 4 0x8005#18) ∧
  seqDecode 0xA010000D#32 = some (.crcCfg 4 1 true true) ∧ seqDecode 0xA0104000#32 = some (.crcInit 4) ∧
  seqDecode 0x85000045#32 = some (.evmSet 4 0x45#14) ∧ seqDecode 0x80000000#32 = some (.wait 0) ∧
  seqDecode 0x54000600#32 = some (.btst 0 6#5) ∧ seqDecode 0x60400003#32 = some (.br .eq 3#22) ∧
  seqDecode 0xE0000000#32 = some .nop ∧ seqDecode 0#32 = none

/-- With the register interface reachable: HALT makes a context in WAIT, or in RUN and at an instruction boundary, HALTED,
remembering the state to return to, with a lost read cursor emptied; in RUN during a fill it waits for the fill's end; in any
other state it changes nothing. RESUME returns a HALTED context to that state and is ignored otherwise. SIGNAL sets EP bit 11.
START of a context in RUN, WAIT or HALTED makes it RUN at its ENTRY address with G15 its circuit number, all other registers 0,
flags, stack, EM, EP, timers and both cursors cleared (unless what its cursors give back ends its circuit's drain); during a fill
it waits for the fill's end; otherwise it changes nothing. Out of reach none of the four changes anything. SYSTEM_CONTEXT_RESTART
starts a faulted system context at its ROM entry, which waits for its events, all cleared but G15 = 0x100 + k; any other it leaves
alone. Every one of them answers a next state, and nothing else changes where none is named. -/
def Obligations.ContextControl : Prop :=
  ∀ (s : State) (x : CircId) (j : Fin 8),
    let k := s.ctx x
    let y := 64 + j.val
    let only (i : Instr) (y : Nat) (c : Ctx) : Prop := ∃ t, exec i s = .next t ∧ t = { s with ctxs := t.ctxs } ∧
      t.ctx y = c ∧ ∀ z, z ≠ y → t.ctx z = s.ctx z
    let same (i : Instr) : Prop := exec i s = .next s
    (hostReach s = false → same (.halt x) ∧ same (.resume x) ∧ same (.start x) ∧ same (.signal x)) ∧
    (hostReach s = true →
      (k.st = .wait ∨ (k.st = .run ∧ k.fill = none ∧ k.cutReq = false) →
        only (.halt x) x { k with st := .halted, back := k.st, haltReq := false, portWait := none, rcur := if k.rcur = .lost then .empty else k.rcur }) ∧
      (k.st = .run → k.fill ≠ none → k.cutReq = false → only (.halt x) x { k with haltReq := true }) ∧
      (k.st ≠ .run → k.st ≠ .wait → same (.halt x)) ∧
      (k.st = .halted → only (.resume x) x { k with st := k.back }) ∧ (k.st ≠ .halted → same (.resume x)) ∧
      only (.signal x) x { k with ep := k.ep ||| 0x800#16 } ∧
      (k.st = .run ∨ k.st = .wait ∨ k.st = .halted → k.cutReq = false →
        (k.fill ≠ none → only (.start x) x { k with startReq := some false, haltReq := false }) ∧
        (k.fill = none → ∃ t, exec (.start x) s = .next t ∧ ((t.circ x).st ≠ .disabled →
          (t.ctx x).st = .run ∧ progAddr (t.ctx x) = s.fld (xAddr x 0) 0 23 ∧
          (∀ r : Reg, greg t x r = if r = 15 then BitVec.ofNat 32 x.val else 0#32) ∧ znvc t x = (false, false, false, false) ∧
          (t.ctx x).e = false ∧ (t.ctx x).stack = [] ∧ (t.ctx x).em = 0#16 ∧ (t.ctx x).ep = 0#16 ∧ (t.ctx x).tm0.run = false ∧
          (t.ctx x).tm1.run = false ∧ (t.ctx x).rcur = .empty ∧ (t.ctx x).heldCells = []))) ∧
      (k.st ≠ .run → k.st ≠ .wait → k.st ≠ .halted → same (.start x))) ∧
    ((s.ctx y).st = .faulted → s.ctlWait = [] → ∃ t, exec (.systemContextRestart j) s = .next t ∧ t = { s with ctxs := t.ctxs } ∧
      (∀ z, z ≠ y → t.ctx z = s.ctx z) ∧ (t.ctx y).st = .wait ∧ progAddr (t.ctx y) = 0x4800 + (Config.sysEntry j).val ∧
      (∀ r : Reg, greg t y r = if r = 15 then BitVec.ofNat 32 (0x100 + j.val) else 0#32) ∧ znvc t y = (false, false, false, false) ∧
      (t.ctx y).stack = [] ∧ (t.ctx y).em = 0#16 ∧ (t.ctx y).ep = 0#16) ∧
    ((s.ctx y).st ≠ .faulted → same (.systemContextRestart j))

/-- With the register interface reachable, XIPINV empties the prefetch lines, or with a fill in progress is kept for its end; LOAD
is ignored during a load, sets LOADFAIL without a flash, and else sets LOADING, asks for the image and halts every context in RUN
or WAIT at an instruction boundary whose program address or ENTRY lies in instruction RAM or the XIP window. Out of reach they
change nothing. A fill read whole, with no XIPINV pending, makes the line of its address the eight words of flash there and ends
the entry; a failed one is repeated, and the third in a row sets XIPFAIL and faults with code 11 every context that waits on the
line, its circuit in RUN and not stopped meanwhile. The end of a load that waits for no context, its image read and ports live,
clears LOADING, and with no commit outstanding sets LOADED or LOADFAIL; otherwise it changes nothing. UTILISATION_UPDATE reports
per core the instructions issued, circuit contexts' and ROM programs' (a free value, log entry 15), times 255 / 98304 rounded
down, and counts from 0 again. Each of them answers a next state. -/
def Obligations.FillsAndLoads : Prop :=
  ∀ (s : State) (la : Nat) (r : Fin 3),
    let same (i : Instr) : Prop := exec i s = .next s
    (hostReach s = false → same .xipinv ∧ same .load) ∧
    (hostReach s = true →
      (fillBusy s = false → exec .xipinv s = .next { s with seq := { s.seq with inv := false, lines := [] } }) ∧
      (fillBusy s = true → exec .xipinv s = .next { s with seq := { s.seq with inv := true } }) ∧
      (s.bit 0x2400 0 = true → same .load) ∧
      (s.bit 0x2400 0 = false → s.bit 0x3001 0 = false → exec .load s = .next (s.setBit 0x2408 1)) ∧
      (s.bit 0x2400 0 = false → s.bit 0x3001 0 = true → ∃ t, exec .load s = .next t ∧ t.bit 0x2400 0 = true ∧ t.mem.imageReq = true ∧
        t = { s with regs := t.regs, ctxs := t.ctxs, seq := { s.seq with loadHalted := t.seq.loadHalted }, mem := { s.mem with imageReq := true } } ∧
        ∀ x : CircId, ((s.ctx x).st = .run ∨ (s.ctx x).st = .wait) → (s.ctx x).fill = none → (s.ctx x).cutReq = false →
          (inLoadable (progAddr (s.ctx x)) = true ∨ inLoadable (s.fld (xAddr x 0) 0 23) = true) → (t.ctx x).st = .halted)) ∧
    ((∀ a, s.mem.active ≠ some (.xip a)) → same (.xipFillDone r)) ∧
    (s.mem.active = some (.xip la) →
      (s.seq.inv = false → ∃ t, exec (.xipFillDone 0) s = .next t ∧ t.mem.active = none ∧
        lineOf t la = some ⟨la, (List.range 8).map (fun i => BitVec.ofNat 32 (flashNat s (32 * la + 4 * i) 4))⟩) ∧
      (r ≠ 0 → s.seq.fails < 2 → ∃ t, exec (.xipFillDone r) s = .next t ∧
        t = { s with regs := t.regs, seq := { s.seq with fails := s.seq.fails + 1 }, mem := { s.mem with active := none, colls := 0, fills := la :: s.mem.fills, parked := none } } ∧
        t.fld 0x2407 16 16 = (if r = 2 then min (s.fld 0x2407 16 16 + 1) 65535 else s.fld 0x2407 16 16) ∧
        t.fld 0x2407 0 16 = s.fld 0x2407 0 16 ∧ ∀ a, a ≠ 0x2407 → t.reg a = s.reg a) ∧
      (r ≠ 0 → 2 ≤ s.seq.fails → ∃ t, exec (.xipFillDone r) s = .next t ∧ t.mem.active = none ∧ t.seq.fails = 0 ∧ t.bit 0x2408 5 = true ∧
        ∀ x : CircId, (s.ctx x).fill = some la → (s.ctx x).cutReq = false → (s.circ x).st = .run →
          (t.ctx x).st = .faulted ∧ t.fld (xAddr x 2) 8 4 = 11)) ∧
    (s.bit 0x2400 0 = true → s.mem.active ≠ some .image → s.boot.live = true → loadWaits s = false → ∃ t, exec .reloadDone s = .next t ∧
      (s.commit.staged = [] → s.commit.queued = [] →
        t.bit 0x2400 0 = false ∧ t.mem.imageReq = false ∧ (t.bit 0x2408 0 = true ∨ t.bit 0x2408 1 = true))) ∧
    (s.bit 0x2400 0 = false ∨ s.mem.active = some .image ∨ s.boot.live = false ∨ loadWaits s = true → same .reloadDone) ∧
    (∃ t, exec .utilisationUpdate s = .next t ∧ (∀ i, i < 8 → t.seq.issued[i]? = some 0) ∧
      (∃ rom : Nat → Nat, ∀ i, i < 8 → getF (t.reg (0x240A + i / 4)) (8 * (i % 4)) 8 =
        min 98304 ((s.seq.issued[i]?).getD 0 + rom i) * 255 / 98304) ∧
      ∀ r, r ≠ 0x240A → r ≠ 0x240B → t.reg r = s.reg r)

/-- With memory initialised, no entry running, no relock and not DORMANT: a select that another master holds low is noted and
nothing starts; with both selects high for less than R372's delay nothing starts; after it, the flash neither programming nor
erasing, no collided entry to retry and none passed over 64 times, the entry started is a journal second phase, else the oldest
requested fill, else a journal first phase, else an image chunk (whose load waits for no context), else a chain cycle, else the
host entry, else an erase; a park is over, and nothing but the memory port changes; with nothing wanted, nothing starts. Otherwise
the command changes nothing. The end of a park's 1 us leaves no park and changes nothing else. Each answers a next state. -/
def Obligations.MemoryArbiter : Prop :=
  ∀ (s : State) (high : BitVec 8),
    let ready := s.mem.active = none ∧ s.power.relock = false ∧ s.power.st ≠ .dormant ∧ s.boot.memUp = true
    let image := s.mem.imageReq && !loadWaits s
    let wanted := wantSecond s || !s.mem.fills.isEmpty || wantFirst s || image || s.mem.chainReq || s.mem.hostReq || (wantErase s).isSome
    (exec .parkExpiry s = .next { s with mem := { s.mem with parked := none } }) ∧
    (∀ o, ¬ ready → exec (.memoryEntryStart o high) s = .next s) ∧
    (ready →
      exec (.memoryEntryStart true high) s = .next { s with mem := { s.mem with other := true } } ∧
      (high.toNat < startDelay s → exec (.memoryEntryStart false high) s = .next { s with mem := { s.mem with other := false } }) ∧
      (startDelay s ≤ high.toNat → s.mem.again = none →
        (wanted = false → exec (.memoryEntryStart false high) s = .next { s with mem := { s.mem with other := false } }) ∧
        (s.mem.progBusy = false → s.mem.erasing = none → (∀ n ∈ s.mem.passed, n < 64) → wanted = true →
          ∃ t, exec (.memoryEntryStart false high) s = .next t ∧ t = { s with mem := t.mem } ∧ t.mem.parked = none ∧ t.mem.other = false ∧
            t.mem.active = some (if wantSecond s then .second else match s.mem.fills with
              | la :: _ => .xip la
              | [] => if wantFirst s then .first else if image then .image else if s.mem.chainReq then .chain
                      else if s.mem.hostReq then .host else .erase))))

/-- With the register interface reachable, GO while no entry waits or runs clears DONE, REFUSED and ABORTED and sets BUSY with the
host entry waiting, or REFUSED with MEM_EVT.REFUSED where a select period is refused, and is ignored otherwise; CHAINGO, with
PERIOD 0, and the chain period, with PERIOD not 0, request a chain cycle while ports are live, and nothing otherwise; MEM_CLRCNT
zeroes MEM_COLL. Out of reach the strobes change nothing. An entry other than a fill ends the port's entry; a chain cycle's end
puts its 256 input bits in MEM_CHIN0 to 7, sets its event, latches what the cycle before shifted out (zeros in the first) and
keeps its own output bits; a host entry's end sets DONE and its event, or REFUSED with its event and nothing run where a select
period is refused as the words stand then. A collision counts, sets COLL, notes the other master, and is retried unless it is the
eighth in a row, which counts in ABORTS and gives its owner a failure; one while the port is parked counts and ends the park. With
no entry running, a status that shows not busy ends a program, or an erase, whose sector then reads 0xFF. A busy timeout sets
BUSYTO and waits for the retry, and the retry starts the operation again. Each answers a next state. -/
def Obligations.MemoryEntries : Prop :=
  ∀ (s : State) (din : List Word) (k : MemKind) (a : Nat) (b : Bool),
    let z := s.setReg 0x3030 0#32
    let refused := (hostPeriods z).any (periodRefused z (!s.bit 0x3008 8))
    let same (i : Instr) : Prop := exec i s = .next s
    let inc (t : State) (lo : Nat) : Prop := t.fld 0x3048 lo 16 = min (s.fld 0x3048 lo 16 + 1) 65535
    (hostReach s = false → same .go ∧ same .chaingo ∧ same .memClrcnt) ∧
    (hostReach s = true →
      (s.bit 0x3030 1 = true → same .go) ∧
      (s.bit 0x3030 1 = false → refused = false → ∃ t, exec .go s = .next t ∧ t.reg 0x3030 = 2#32 ∧
        t = { s with regs := t.regs, mem := { s.mem with hostReq := true } } ∧ ∀ r, r ≠ 0x3030 → t.reg r = s.reg r) ∧
      (s.bit 0x3030 1 = false → refused = true → ∃ t, exec .go s = .next t ∧ t.reg 0x3030 = 4#32 ∧ t = { s with regs := t.regs } ∧
        t.bit 0x3034 2 = true ∧ ∀ r, r ≠ 0x3030 → r ≠ 0x3034 → t.reg r = s.reg r) ∧
      (s.fld 0x3031 16 8 = 0 → s.boot.live = true → exec .chaingo s = .next { s with mem := { s.mem with chainReq := true } }) ∧
      (s.fld 0x3031 16 8 ≠ 0 ∨ s.boot.live = false → same .chaingo) ∧
      (∃ t, exec .memClrcnt s = .next t ∧ t = { s with regs := t.regs } ∧ t.reg 0x3048 = 0#32 ∧ ∀ r, r ≠ 0x3048 → t.reg r = s.reg r)) ∧
    (s.fld 0x3031 16 8 ≠ 0 → s.boot.live = true → exec .chainPeriodExpiry s = .next { s with mem := { s.mem with chainReq := true } }) ∧
    (s.fld 0x3031 16 8 = 0 ∨ s.boot.live = false → same .chainPeriodExpiry) ∧
    (s.power.relock = true ∨ s.mem.active = none → same (.memEntryDone din)) ∧
    (s.power.relock = false →
      ((∀ la, k ≠ .xip la) → s.mem.active = some k → ∃ t, exec (.memEntryDone din) s = .next t ∧ t.mem.active = none) ∧
      (s.mem.active = some .image → exec (.memEntryDone din) s = .next { s with mem := { s.mem with active := none, colls := 0 } }) ∧
      (s.mem.active = some .chain → ∃ t, exec (.memEntryDone din) s = .next t ∧ t.mem.chainReq = false ∧ t.mem.chainRan = true ∧
        t.mem.chainShift = chainBits s ∧
        t.mem.chainOut = (if s.mem.chainRan then s.mem.chainShift else List.replicate (min 256 (s.fld 0x3031 0 9)) false) ∧
        (∀ i, i < 8 → t.reg (0x3038 + i) = (din[i]?).getD 0#32) ∧ t.bit 0x3034 4 = true) ∧
      (s.mem.active = some .host → hostRefused s = false → ∃ t, exec (.memEntryDone din) s = .next t ∧ t.mem.hostReq = false ∧
        t.reg 0x3030 = 1#32 ∧ t.bit 0x3034 1 = true) ∧
      (s.mem.active = some .host → hostRefused s = true → ∃ t, exec (.memEntryDone din) s = .next t ∧ t.reg 0x3030 = 4#32 ∧
        t = { s with regs := t.regs, mem := { s.mem with active := none, colls := 0, hostReq := false } } ∧
        t.bit 0x3034 2 = true ∧ ∀ r, r ≠ 0x3030 → r ≠ 0x3034 → t.reg r = s.reg r) ∧
      (s.mem.active = none → s.mem.progBusy = true → exec (.flashStatusPoll false) s = .next { s with mem := { s.mem with progBusy := false } }) ∧
      (s.mem.active = none → s.mem.progBusy = false → s.mem.erasing = some a → ∃ t, exec (.flashStatusPoll false) s = .next t ∧
        t.mem.erasing = none ∧ ∀ b, flashByte t b = if a ≤ b ∧ b < a + 4096 then 0xFF#8 else flashByte s b)) ∧
    (b = true ∨ s.power.relock = true ∨ s.mem.active ≠ none ∨ (s.mem.progBusy = false ∧ s.mem.erasing = none) → same (.flashStatusPoll b)) ∧
    (s.mem.active = none → s.mem.parked = none → same .memCollision) ∧
    (s.mem.active = none → s.mem.parked ≠ none → ∃ t, exec .memCollision s = .next t ∧ inc t 0 ∧ t.bit 0x3034 0 = true ∧
      t = { s with regs := t.regs, mem := { s.mem with parked := none, collTime := s.now, other := true } } ∧
      ∀ r, r ≠ 0x3048 → r ≠ 0x3034 → t.reg r = s.reg r) ∧
    (s.mem.active = some k → ∃ t, exec .memCollision s = .next t ∧ t.mem.active = none ∧ inc t 0 ∧ t.bit 0x3034 0 = true ∧ t.mem.other = true ∧
      t.mem.collTime = s.now ∧ (s.mem.colls < 7 → t.mem.again = some k ∧ t.mem.colls = s.mem.colls + 1) ∧
      (7 ≤ s.mem.colls → inc t 16 ∧ t.mem.colls = 0 ∧ (k = .host → t.mem.hostReq = false ∧ t.reg 0x3030 = 8#32) ∧
        (k = .chain → t.mem.chainReq = false))) ∧
    (s.mem.progBusy = true → s.mem.retry = none → ∃ t, exec .flashBusyTimeout s = .next t ∧ t.mem.retry = some .program ∧ t.bit 0x3034 3 = true) ∧
    (s.mem.progBusy = false → s.mem.erasing = some a → s.mem.retry = none → ∃ t, exec .flashBusyTimeout s = .next t ∧
      t.mem.retry = some .erase ∧ t.bit 0x3034 3 = true) ∧
    (s.mem.retry ≠ none ∨ (s.mem.progBusy = false ∧ s.mem.erasing = none) → same .flashBusyTimeout) ∧
    (s.mem.retry = some .program → exec .flashRetry s = .next { s with mem := { s.mem with retry := none, progBusy := true } }) ∧
    (s.mem.retry = some .erase → exec .flashRetry s = .next { s with mem := { s.mem with retry := none, erasing := none } }) ∧
    (s.mem.retry = none → same .flashRetry)

/-- With the register interface reachable, FORMAT of a ring that R382 forbids only sets FMTREF; of an allowed one it queues the
header (in flash after the clearing of its slot's sector), the clearing of each unit of the new ring in order, and the move, and
changes nothing else; JNL_CLRCNT zeroes JNL_CNT only. Out of reach they change nothing. A refill adds a token up to 64 while
PERHOUR is not 0, and changes nothing while it is 0. A verification with no claim, or with the claim's header still to be written,
changes nothing; one that shows the device's own UID ends the claim and changes nothing else; one that shows another device's UID
leads to a claim of the other slot, or to no slot with NOSLOT set. Each answers a next state. -/
def Obligations.JournalCommands : Prop :=
  ∀ (s : State) (slot : Nat) (uid : BitVec 64),
    let m := s.fld 0x3104 28 1
    let base := s.fld 0x3104 0 12 * 4096
    let n := s.fld 0x3104 16 9
    let jobs := (if jMem s = 1 then [JJob.clear (slotAddr s 1 m) 0] else []) ++ [JJob.header m base n] ++
      (List.range n).map (fun u => JJob.clear (base + 4096 * u) 0) ++ [JJob.fmtDone m base n]
    let same (i : Instr) : Prop := exec i s = .next s
    (hostReach s = false → same .format ∧ same .jnlClrcnt) ∧
    (hostReach s = true →
      (formatBad s = true → exec .format s = .next (s.setBit 0x3109 2)) ∧
      (formatBad s = false → exec .format s = .next { s with jwrite := { s.jwrite with jobs := jobs } }) ∧
      (∃ t, exec .jnlClrcnt s = .next t ∧ t = { s with regs := t.regs } ∧ t.reg 0x3107 = 0#32 ∧ ∀ r, r ≠ 0x3107 → t.reg r = s.reg r)) ∧
    (s.fld 0x3106 0 16 = 0 → same .journalBucketRefill) ∧
    (s.fld 0x3106 0 16 ≠ 0 →
      exec .journalBucketRefill s = .next { s with jnl := { s.jnl with tokens := if s.jnl.tokens < 64 then s.jnl.tokens + 1 else 64 } }) ∧
    (s.jwrite.verify = none ∨ headerDue s = true → same (.journalClaimVerify uid)) ∧
    (s.jwrite.verify = some slot → headerDue s = false →
      exec (.journalClaimVerify s.chip.uid) s = .next { s with jwrite := { s.jwrite with verify := none } } ∧
      (uid ≠ s.chip.uid → ∃ t, exec (.journalClaimVerify uid) s = .next t ∧
        (t.jwrite.verify = some (1 - slot) ∨ (t.jwrite.verify = none ∧ t.bit 0x3109 3 = true))))

/-- The supply monitor, RESET_N, the watchdog (armed, clock running, some context late), RSTGO while armed and a clock failure
during relock assert reset: applied copy and shadow of every register word are at their reset values, absent ports' bits of
CLK_WAKE and the glove mask 0; no cell, circuit, port, context, packet, credit or record is in use; start-up has not begun; OTP,
external memories, time count and waiting commands are kept. Where no reset was asserted before, the cause is the one reported (2
RESET_N, 3 watchdog, 4 software, 5 clock failure; the supply monitor's 0 or 1 is settled at its release) and RESETS counts it. A
reset that comes while reset is asserted, as during a retry of the start, counts nothing and keeps the cause and the brownout
reported, but that of two causes of one SUPV cycle the lower code is reported. RSTGO while not armed, or with the register
interface out of reach, a clock failure without relock, and a watchdog that does not count or misses no context change nothing. -/
def Obligations.ResetCauses : Prop :=
  ∀ (s : State) (late : BitVec 8) (same : Bool),
    let clean (i : Instr) (cause : Nat) (same : Bool) : Prop := ∃ t, exec i s = .next t ∧
      (∀ r, t.reg r = if r = 0x203 ∨ r = 0x309 then resetWord r &&& ~~~BitVec.ofNat 32 (65536 - 2 ^ s.chip.grade) else resetWord r) ∧
      (∀ r, t.shad r = t.reg r) ∧ t.boot = { brownout := inReset s && s.boot.brownout } ∧ t.strap = {} ∧ t.commit = {} ∧ t.cells = [] ∧ t.circs = [] ∧ t.ports = [] ∧
      t.ctxs = [] ∧ t.outQ = [] ∧ t.credits = [] ∧ t.fab = {} ∧ t.canA = {} ∧ t.canB = {} ∧ t.tim = {} ∧ t.pool = {} ∧ t.sup = {} ∧
      t.jnl = {} ∧ t.mem = {} ∧ t.jwrite = {} ∧ t.mbx = {} ∧ t.seq = {} ∧ t.ext = s.ext ∧ t.chip = s.chip ∧ t.pending = s.pending ∧
      t.now = s.now ∧ (inReset s = false → t.power.cause = cause ∧ t.hold.resets = min (s.hold.resets + 1) 65535) ∧
      (inReset s = true → t.power.cause = (if same then min s.power.cause cause else s.power.cause) ∧ t.hold.resets = s.hold.resets)
    let keeps (i : Instr) : Prop := exec i s = .next s
    clean (.supplyBelowBrownout same) 0 same ∧ clean (.pinReset same) 2 same ∧
    (s.sup.wdRun = true → s.power.relock = false → s.power.st ≠ .dormant → late ≠ 0#8 → clean (.watchdogReset late) 3 false) ∧
    (s.sup.wdRun = false ∨ s.power.relock = true ∨ s.power.st = .dormant ∨ late = 0#8 → keeps (.watchdogReset late)) ∧
    (hostReach s = true → s.power.rstArmed = true → clean .rstgo 4 false) ∧ (hostReach s = false ∨ s.power.rstArmed = false → keeps .rstgo) ∧
    (s.power.relock = true → clean .clockFailReset 5 false) ∧ (s.power.relock = false → keeps .clockFailReset)

/-- An outage is recorded where a battery powers HOLD, and clears HOLD otherwise. HOLD_SWITCHOVER changes HOLD's source only.
VDDIO rising from below leaves OFF. The power-on release takes BATOK, which needs the HOLD crystal, keeps HOLD where it kept
power, and after a supply monitor's reset reports a brownout (1) exactly where the run marker is intact and no outage came, else
power-on (0); a brownout counts. RSTARM arms and its expiry disarms. DORMANT sets and DCANCEL clears CLK_STAT.DREQ; with the
register interface out of reach the three strobes change nothing. A fall of PFI_N sets SUP_EVT.PFI and JNL_STAT.PFI, its rise
clears JNL_STAT.PFI and begins the wait, which PFI_RECOVER ends. -/
def Obligations.SupplyAndStrobes : Prop :=
  ∀ (s : State) (v bat xtal kept : Bool) (us : BitVec 32),
    let h := if kept then s.hold else {}
    let supply := decide (s.power.cause ≤ 1)
    let brown := supply && h.runMarker && !h.outage
    let same (i : Instr) : Prop := exec i s = .next s
    let bit4 (i : Instr) (on : Bool) : Prop := ∃ t, exec i s = .next t ∧ t = { s with regs := t.regs } ∧ t.bit 0x200 4 = on ∧
      ∀ r, r ≠ 0x200 → t.reg r = s.reg r
    (exec .vddioOutage s = .next { s with hold := if s.power.batOk then { s.hold with outage := true } else {} }) ∧
    (exec (.holdSwitchover v) s = .next { s with hold := { s.hold with onVbat := v } }) ∧
    (s.power.low = true →
      exec .supplyAboveBrownout s = .next { s with power := { s.power with low := false, released := false, st := .run } }) ∧
    (s.power.low = false → same .supplyAboveBrownout) ∧
    (s.power.low = true ∨ s.power.released = true → same (.powerOnRelease bat kept xtal)) ∧
    (s.power.low = false → s.power.released = false → ∃ t, exec (.powerOnRelease bat kept xtal) s = .next t ∧
      t.power = { s.power with released := true, batOk := bat && xtal, cause := if brown then 1 else if supply then 0 else s.power.cause } ∧
      t.boot = { s.boot with brownout := brown } ∧ t.hold.brown = (if brown then min (h.brown + 1) 65535 else h.brown) ∧
      t.hold.count = h.count ∧ (brown = false → t.regs = s.regs)) ∧
    (hostReach s = true →
      exec .rstarm s = .next { s with power := { s.power with rstArmed := true } } ∧ bit4 .dormant true ∧ bit4 .dcancel false) ∧
    (hostReach s = false → same .rstarm ∧ same .dormant ∧ same .dcancel) ∧
    (exec .rstarmExpiry s = .next { s with power := { s.power with rstArmed := false } }) ∧
    (∃ t, exec .pfiFall s = .next t ∧ t.power = { s.power with pfiLow := true, pfiWait := false } ∧ t.bit 0x302 4 = true ∧
      t.bit 0x3100 5 = true) ∧
    (s.power.pfiLow = true → ∃ t, exec (.pfiRise us) s = .next t ∧ t.power = { s.power with pfiLow := false, pfiWait := true } ∧
      t.bit 0x3100 5 = false ∧ ∀ r, r ≠ 0x3100 → t.reg r = s.reg r) ∧
    (s.power.pfiLow = false → same (.pfiRise us)) ∧
    (exec .pfiRecover s = .next { s with power := { s.power with pfiWait := false } })

/-- With the supply released, RESET_RELEASE starts the sequence and takes AUX sample 1 (none with TMODE high). Each slot's end
takes the pin's reading, the mean of its conversions, and the next AUX sample; the sixth settles each AUX bit by four of six
samples, and with every reading in a window latches the readings; a slot of the second pass takes one more reading. ROOT_VALID and
PLL_LOCKED set their CLK_STAT bits; lock brings up the host port and the memories, and in a wake only sets LOCKED. A retry of the
start counts and shows fault 1. The boot scan, the image load, the Mantle layer (after a brownout only once audited) and live
ports each take their step and no other; live ports set the run marker. HOLD_HANDOVER passes the count to TIME with at most one
tick of error, and back to HOLD while unlocked. Out of turn each of them changes nothing. Each answers a next state. -/
def Obligations.StartUpSteps : Prop :=
  ∀ (s : State) (tm : Bool) (aux : BitVec 8) (conv : Conversions) (a b : BitVec 256) (err : Fin 3) (fit : Option MemFit),
    let mvs := listSet s.strap.mv 5 (meanOf conv)
    let tick : Nat := 2 ^ 32 / 1024000
    let same (i : Instr) : Prop := exec i s = .next s
    let up := s.boot.started && s.boot.strapped && s.bit 0x200 0 && !s.boot.hostUp
    let layer := s.boot.imaged && !s.boot.mantled && (!s.boot.brownout || s.boot.audited) && !s.power.relock
    (s.power.low = false → s.power.released = true → s.boot.started = false → ∃ t, exec (.resetRelease tm aux) s = .next t ∧
      t.boot = { s.boot with started := true, factory := tm } ∧ t.regs = s.regs ∧
      t.strap = if tm then s.strap else { s.strap with auxSamples := [aux], auxPins := aux }) ∧
    (s.power.low = true ∨ s.power.released = false ∨ s.boot.started = true → same (.resetRelease tm aux)) ∧
    (s.boot.started = true → s.boot.strapped = false → s.boot.factory = false →
      (s.strap.slot < 5 → exec (.strapSlotEnd conv aux) s = .next { s with strap := { s.strap with
        mv := listSet s.strap.mv s.strap.slot (meanOf conv), slot := s.strap.slot + 1, auxSamples := s.strap.auxSamples ++ [aux], auxPins := aux } }) ∧
      (s.strap.slot = 5 → (∀ k, k < 6 → (levelOf ((mvs[k]?).getD 0)).isSome = true) → ∃ t, exec (.strapSlotEnd conv aux) s = .next t ∧
        t.boot = { s.boot with strapped := true } ∧ t.fld 0x101 16 12 = (mvs[0]?).getD 0 % 4096 ∧
        t.fld 0x103 0 12 = (mvs[5]?).getD 0 % 4096 ∧ t.fld 0x104 0 6 = 0 ∧
        ∀ p, p < 8 → t.strap.aux.testBit p = decide (4 ≤ (s.strap.auxSamples.filter (fun w => w.getLsbD p)).length)) ∧
      (∀ k l, s.strap.slot = 6 → s.strap.again = k :: l → ∃ t, exec (.strapSlotEnd conv aux) s = .next t ∧
        t.strap = { s.strap with mv := listSet s.strap.mv k (meanOf conv), again := l } ∧
        t.boot = { s.boot with strapped := l.isEmpty })) ∧
    (s.boot.started = false ∨ s.boot.strapped = true ∨ s.boot.factory = true → same (.strapSlotEnd conv aux)) ∧
    (s.boot.started = true → s.power.st ≠ .dormant ∨ s.power.waking = true → ∃ t, exec .rootValid s = .next t ∧ t = { s with regs := t.regs } ∧
      t.bit 0x200 0 = true ∧ ∀ r, r ≠ 0x200 → t.reg r = s.reg r) ∧
    (s.boot.started = false ∨ (s.power.st = .dormant ∧ s.power.waking = false) → same .rootValid) ∧
    (s.boot.started = true → s.boot.hostUp = false → ∃ t, exec .rootStartRetry s = .next t ∧
      t.boot = { s.boot with retrying := true, retries := s.boot.retries + 1 } ∧ t.bit 0x200 0 = false ∧ t.bit 0x300 0 = true) ∧
    (s.boot.started = false ∨ s.boot.hostUp = true → same .rootStartRetry) ∧
    (s.power.waking = true → exec (.pllLocked fit) s = .next (if s.bit 0x200 0 then s.setBit 0x200 1 else s)) ∧
    (s.power.waking = false → up = true → ∃ t, exec (.pllLocked fit) s = .next t ∧
      t.boot = { s.boot with hostUp := true, memUp := true, retrying := false } ∧ t.bit 0x200 1 = true ∧ t.bit 0x300 0 = false ∧
      ∀ k, k < 8 → (t.ctx (64 + k)).st = .wait) ∧
    (s.power.waking = false → up = false → same (.pllLocked fit)) ∧
    (s.boot.memUp = true → s.boot.scanned = false → ∃ t, exec (.journalBootScan a b) s = .next t ∧ t.boot = { s.boot with scanned := true }) ∧
    (s.boot.memUp = false ∨ s.boot.scanned = true → same (.journalBootScan a b)) ∧
    (s.boot.scanned = true → s.boot.imaged = false → ∃ t, exec .imageLoad s = .next t ∧ t.boot = { s.boot with imaged := true } ∧
      (s.bit 0x3001 0 = false → t = { s with boot := { s.boot with imaged := true } })) ∧
    (s.boot.scanned = false ∨ s.boot.imaged = true → same .imageLoad) ∧
    (layer = true → ∃ t, exec .mantleApply s = .next t ∧ t.boot = { s.boot with mantled := true } ∧ t.commit.held = []) ∧
    (layer = false → same .mantleApply) ∧
    (s.boot.mantled = true → s.boot.live = false → s.power.relock = false → ∃ t, exec .portsLive s = .next t ∧
      t.boot = { s.boot with live := true } ∧ t.hold.runMarker = true ∧ t.hold.outage = false ∧ t.sup.wdRun = true) ∧
    (s.boot.mantled = false ∨ s.boot.live = true ∨ s.power.relock = true → same .portsLive) ∧
    (s.bit 0x200 1 = true →
      (s.hold.inTime = true → same (.holdHandover err)) ∧
      (s.hold.inTime = false → s.hold.valid = true → ∃ t, exec (.holdHandover err) s = .next t ∧
        t = { s with hold := { s.hold with inTime := true, count := t.hold.count } } ∧
        t.hold.count = BitVec.ofNat 80 (s.hold.count.toNat + tick * err.val - tick)) ∧
      (s.hold.inTime = false → s.hold.valid = false → ∃ t, exec (.holdHandover err) s = .next t ∧ t = { s with hold := t.hold } ∧
        t.hold.inTime = true ∧ t.hold.valid = true ∧ t.hold.count = 0#80 ∧ t.hold.quality = .unset)) ∧
    (s.bit 0x200 1 = false → ∃ t, exec (.holdHandover err) s = .next t ∧ t = { s with hold := t.hold } ∧ t.hold.inTime = false ∧
      t.hold.count = s.hold.count)

/-- While locked, an unlock (or a lost ROOT) begins the relock with CLK_EVT.UNLOCK, LOCKED 0 and the running memory entry to be
retried; a relock with no commit outstanding ends it, sets ROOTOK, LOCKED, RELOCK, where ROOT was lost ROOTLOST, and counts. QUIET
is entered with QUIETEN, idle ports and waiting contexts, and left at traffic. DORMANT is entered where requested under R125's
conditions, with DREQ, ROOTOK and LOCKED 0 and TPO low. In DORMANT an enabled start edge, HSEL_N fall or WAKE, a supervisor alarm
or the wake timer sets its CLK_WAKESRC bit and begins the wake; no source, no wake. A slow wake counts once. A completed wake with
no commit outstanding returns to RUN with WOKE set. Where its condition does not hold, each changes nothing (a lost ROOT clears
ROOTOK). Each answers a next state. -/
def Obligations.LockAndPowerStates : Prop :=
  ∀ (s : State) (src : BitVec 20),
    let begins (i : Instr) (b : Nat) : Prop := ∃ t, exec i s = .next t ∧ t.power.waking = true ∧ t.power.st = .dormant ∧ t.bit 0x206 b = true
    let same (i : Instr) : Prop := exec i s = .next s
    let rests := s.power.st = .run ∧ s.boot.live = true ∧ s.power.relock = false ∧ s.bit 0x202 0 = true ∧ (∀ x, x < 72 → (s.ctx x).st ≠ .run) ∧
      ∀ n, n < 16 → (s.port n).tx = .idle ∧ (s.port n).rxBusy = false
    let sleeps := s.bit 0x200 4 = true ∧ s.boot.live = true ∧ s.power.relock = false ∧ s.power.st ≠ .dormant ∧ mayRest s = true
    (lockedNow s = true →
      (∃ t, exec .pllUnlock s = .next t ∧ t.power.relock = true ∧ t.power.rootLost = s.power.rootLost ∧ t.bit 0x200 1 = false ∧
        t.bit 0x205 4 = true ∧ t.mem.active = none ∧ (∀ k, s.mem.active = some k → t.mem.again = some k)) ∧
      (∃ t, exec .rootLost s = .next t ∧ t.power.relock = true ∧ t.power.rootLost = true ∧ t.bit 0x200 0 = false ∧ t.bit 0x200 1 = false)) ∧
    (lockedNow s = false → same .pllUnlock) ∧ (s.power.st = .dormant → same .rootLost) ∧
    (lockedNow s = false → s.power.st ≠ .dormant → ∃ t, exec .rootLost s = .next t ∧ t.bit 0x200 0 = false ∧
      t.power = { s.power with rootLost := s.power.rootLost || s.power.relock } ∧ ∀ r, r ≠ 0x200 → t.reg r = s.reg r) ∧
    (s.power.relock = true → s.commit.staged = [] → ∃ t, exec .pllRelock s = .next t ∧ t.power.relock = false ∧ t.power.rootLost = false ∧
      t.bit 0x200 0 = true ∧ t.bit 0x200 1 = true ∧ t.bit 0x205 5 = true ∧ (s.power.rootLost = true → t.bit 0x205 6 = true) ∧
      t.fld 0x208 0 16 = min (s.fld 0x208 0 16 + 1) 65535) ∧
    (s.power.relock = false → same .pllRelock) ∧
    (rests → exec .quietEnter s = .next { s with power := { s.power with st := .quiet } }) ∧ (¬ rests → same .quietEnter) ∧
    (s.power.st = .quiet → exec .quietExit s = .next { s with power := { s.power with st := .run } }) ∧ (s.power.st ≠ .quiet → same .quietExit) ∧
    (sleeps → ∃ t, exec .dormantEnter s = .next t ∧ t.power = { s.power with st := .dormant, waking := false, slowWake := false } ∧
        t.bit 0x200 4 = false ∧ t.bit 0x200 0 = false ∧ t.bit 0x200 1 = false ∧ t.hold.inTime = false ∧ t.tim.tpo = false ∧
        t.cells = s.cells ∧ t.ctxs = s.ctxs) ∧
    (¬ sleeps → same .dormantEnter) ∧
    (s.power.st = .dormant → s.power.waking = false →
      (∀ n : PortId, src.getLsbD n = true → present s n = true → pEn s n = true → s.bit 0x203 n = true → begins (.wakeEvent src) n) ∧
      (src.getLsbD 16 = true → s.fld 0x105 9 2 ≠ 2 → s.bit 0x203 16 = true → begins (.wakeEvent src) 16) ∧
      (src.getLsbD 17 = true → s.bit 0x203 17 = true → begins (.wakeEvent src) 17) ∧
      (src.getLsbD 19 = true → begins (.wakeEvent src) 19) ∧ same (.wakeEvent 0#20)) ∧
    (s.power.st = .dormant → s.fld 0x202 16 16 ≠ 0 → begins .dormantTimerExpiry 18) ∧
    (s.power.st ≠ .dormant → same (.wakeEvent src)) ∧ (s.power.st ≠ .dormant ∨ s.fld 0x202 16 16 = 0 → same .dormantTimerExpiry) ∧
    (s.power.waking = true → s.power.slowWake = false → ∃ t, exec .slowWake s = .next t ∧ t.power = { s.power with slowWake := true } ∧
      t.bit 0x205 8 = true ∧ t.fld 0x208 16 16 = min (s.fld 0x208 16 16 + 1) 65535) ∧
    (s.power.waking = false ∨ s.power.slowWake = true → same .slowWake) ∧
    (s.power.waking = true → s.commit.staged = [] → ∃ t, exec .wakeComplete s = .next t ∧
      t.power = { s.power with st := .run, waking := false, slowWake := false } ∧ t.bit 0x200 0 = true ∧ t.bit 0x200 1 = true ∧
      t.bit 0x205 7 = true ∧ t.commit.liveTime = s.now) ∧
    (s.power.waking = false → same .wakeComplete)

/-- MEASURE begins a measurement and changes nothing else. At its end each pin's level, by the nearer-voltage test alone on the
mean of its conversions, stands in STR_MEAS with the boundary flags, STR_EVT.MEAS is set, and CHANGED where the levels differ from
STR_LEVELS; no other register changes. HANDBACK, and the expiry of its running timer, with no commit outstanding, set
STR_EVT.HANDBACK and stop the timer; while no commit may apply, every RB bit of the chosen groups' shadows holds its Mantle-layer
value, the bindings that depend on the own address resolved for it (log entry 29). A standby still waiting 10 s after application
takes its ports over. Out of its condition, the strobes with the register interface out of reach, each changes nothing. -/
def Obligations.StrapCommands : Prop :=
  ∀ (s : State) (conv : List Conversions),
    let same (i : Instr) : Prop := exec i s = .next s
    let r (k : Nat) : Nat × Bool := settleLevel (meanOf ((conv[k]?).getD [])) none
    let handsBack (i : Instr) : Prop := ∃ t, exec i s = .next t ∧ t.bit 0x113 1 = true ∧ t.strap.handbackRun = false ∧
      (commitsRun s = false → ∀ j ∈ strobedInsts s (s.fld 0x110 8 8), ∀ a ∈ instAddrs j,
        t.shad a &&& accMask .rb a = layerWord s a &&& accMask .rb a)
    (hostReach s = true → exec .measure s = .next { s with strap := { s.strap with measuring := true } }) ∧
    (hostReach s = false → same .measure ∧ same .handback) ∧
    (s.strap.measuring = true → ∃ t, exec (.measureDone conv) s = .next t ∧
      t = { s with regs := t.regs, strap := { s.strap with measuring := false } } ∧ t.bit 0x113 0 = true ∧
      (∀ k, k < 6 → t.fld 0x112 (4 * (5 - k)) 4 = (r k).1 ∧ t.bit 0x112 (24 + k) = (r k).2) ∧
      (t.fld 0x112 0 24 ≠ s.fld 0x100 0 24 → t.bit 0x113 2 = true) ∧ ∀ a, a ≠ 0x112 → a ≠ 0x113 → t.reg a = s.reg a) ∧
    (s.strap.measuring = false → same (.measureDone conv)) ∧
    (s.commit.staged = [] → s.commit.queued = [] →
      (hostReach s = true → handsBack .handback) ∧ (s.strap.handbackRun = true → handsBack .handbackTimerExpiry)) ∧
    (s.strap.handbackRun = false → same .handbackTimerExpiry) ∧
    (s.strap.twinWait = true →
      exec .twinNorouteExpiry s = .next { s with strap := { s.strap with standby := false, twinWait := false } }) ∧
    (s.strap.twinWait = false → same .twinNorouteExpiry)

/-- On a live port neither frozen nor gloved, its RXD not ignored, no relock running: 16 mark samples arm the receiver, a return
to mark re-arms it, a break's end stores its length up to 65535, sets BRKEND and arms. An early start edge on a receiver frozen,
switching or not armed loses a character (LOST counts, its event is set). While the receiver runs and no character is in progress,
a start bit whose samples have a majority of space sets RXBUSY and stops the receive timeout, one with a majority of mark is
counted as false. SENDBRK requests a break and PORT_CLRCNT zeroes the counters of Table 6-9, both through the register interface.
A CTS change, once the Mantle layer is applied, is taken over with its event, and under hardware flow control signals the feed
circuit's context. Nothing else changes; out of its condition each changes nothing (a CTS change only the pin's level). Each
answers a next state. -/
def Obligations.PortReceiver : Prop :=
  ∀ (s : State) (n : PortId) (len : BitVec 32) (m : Fin 8) (level : Bool) (x : Sample3),
    let p := s.port n
    let on := level == s.bit (pAddr m 0) 5
    let pins := if level then s.strap.auxPins ||| BitVec.ofNat 8 (2 ^ m.val) else s.strap.auxPins &&& ~~~BitVec.ofNat 8 (2 ^ m.val)
    let same (i : Instr) : Prop := exec i s = .next s
    let regPort (t : State) (q : Port) (l : List Nat) : Prop :=
      t = { s with regs := t.regs, ports := t.ports } ∧ t.port n = q ∧ (∀ j, j ≠ n.val → t.port j = s.port j) ∧
        ∀ a, a ∉ l → t.reg a = s.reg a
    let ready := pLive s n && !p.frozen && !p.gloved && !s.power.relock && !rxMuted s n
    let lost := (pLive s n || (s.power.waking && present s n && pEn s n)) && !p.gloved && !rxMuted s n &&
      (p.frozen || pSwitching s n || !(p.armed || p.rearm || p.lineBrk))
    let ctsTaken := s.boot.mantled && present s m && hasCts s m && (s.port m).cts != on
    (ready = true → p.armed = false → exec (.receiverArm n) s = .next (s.setPort n
      { p with armed := true, rearm := false, lineBrk := false, early := false, wakeArm := false, frameStart := true, frame := 8, frameCirc := none, frameDrop := false })) ∧
    (ready = false ∨ p.armed = true → same (.receiverArm n)) ∧
    (ready = true → p.rearm = true → p.lineBrk = false →
      exec (.receiverRearmAtMark n) s = .next (s.setPort n { p with armed := true, rearm := false })) ∧
    (ready = false ∨ p.rearm = false ∨ p.lineBrk = true → same (.receiverRearmAtMark n)) ∧
    (rxOn s n = true → p.rxBusy = false →
      (majority x = false → exec (.startBitValidated n x) s = .next (s.setPort n { p with rxBusy := true, timeout := false })) ∧
      (majority x = true → ∃ t, exec (.falseStart n x) s = .next t ∧ regPort t { p with early := false } [pAddr n 0x1D] ∧
        t.fld (pAddr n 0x1D) 0 16 = min (s.fld (pAddr n 0x1D) 0 16 + 1) 65535 ∧ t.fld (pAddr n 0x1D) 16 16 = s.fld (pAddr n 0x1D) 16 16)) ∧
    (rxOn s n = false ∨ p.rxBusy = true → same (.startBitValidated n x) ∧ same (.falseStart n x)) ∧
    (lost = true → ∃ t, exec (.startEdgeBeforeArming n) s = .next t ∧ regPort t p [pAddr n 0x1D, pAddr n 0x13, 0x206] ∧
        t.fld (pAddr n 0x1D) 16 16 = min (s.fld (pAddr n 0x1D) 16 16 + 1) 65535 ∧ t.bit (pAddr n 0x13) 11 = true) ∧
    (lost = false → same (.startEdgeBeforeArming n)) ∧
    (ready = true → p.lineBrk = true → ∃ t, exec (.breakEnd n len) s = .next t ∧
      regPort t { p with lineBrk := false, armed := true, rearm := false, timeout := true, frameStart := p.frameStart || pAddrMode s n == 1 }
        [pAddr n 0x13, pAddr n 0x15] ∧ t.fld (pAddr n 0x15) 0 16 = min 65535 len.toNat ∧ t.bit (pAddr n 0x13) 1 = true) ∧
    (ready = false ∨ p.lineBrk = false → same (.breakEnd n len)) ∧
    (hostReach s = true → present s n = true →
      (p.tx ≠ .brk → exec (.sendbrk n) s = .next (s.setPort n { p with brkReq := true })) ∧ (p.tx = .brk → same (.sendbrk n)) ∧
      (∃ t, exec (.portClrcnt n) s = .next t ∧ t = { s with regs := t.regs } ∧
        ∀ a, t.reg a = if pAddr n 0x18 ≤ a ∧ a < pAddr n 0x20 then 0#32 else s.reg a)) ∧
    (hostReach s = false ∨ present s n = false → same (.sendbrk n) ∧ same (.portClrcnt n)) ∧
    (ctsTaken = true → ∃ t, exec (.ctsChange m level) s = .next t ∧
      t.port m = { s.port m with cts := on } ∧ t.bit (pAddr m 0x13) 9 = true ∧ (∀ a, a ≠ pAddr m 0x13 → t.reg a = s.reg a) ∧
      t.strap = { s.strap with auxPins := pins } ∧
      (pFlow s m = 1 → portTrunk s m = none → ∀ c, pFeed s m = some c → (t.ctx c).ep.getLsbD 14 = true)) ∧
    (ctsTaken = false → exec (.ctsChange m level) s = .next { s with strap := { s.strap with auxPins := pins } })

/-- While the receiver runs and the start bit is space, on a port without a trunk: a good character that is no flow character, on
an empty holding register of a HOLD port, stands in it with class 0, the CRC-32C taken at the stop-bit decision and its timestamp,
and signals the feed circuit's context; a full one keeps its character and OVR counts; a CELL port without address detection whose
feed circuit has an open cell with room and no bad word appends the byte where it agrees with its check, else the cell is
discarded and point 0 counts; every one counts in RXCHR. A break is reported with its event, counted where the port feeds a
circuit, and is on the line unless it gloves the port. CLOSE (through the register interface), and the expiry of the running
timeout, close the one open cell of the port: closed, CAUSE 4 (timeout 1), the circuit's TXSEQ, the CRC-32C of its payload, last
in the endpoint queue (TAP 0); the timeout signals the feed circuit's context. While the receiver does not run a character changes
nothing. Each answers a next state. -/
def Obligations.PortStores : Prop :=
  ∀ (s : State) (n : PortId) (r : RxBits) (c : CircId) (i : Nat),
    let p := s.port n
    let b := rxData s n r
    let k := s.circ c
    let good := charClass s n r = 0 ∧ flowKind s n b (pNine s n && rxPar s n r) 0 = 0
    let closes (t : State) (cause : Nat) : Prop := (t.cell i).st = .closed ∧ (t.cell i).cause = cause ∧ (t.cell i).seq = k.txseq ∧
      (t.cell i).sleeve = crc32c (s.cell i).payload ∧ (t.cell i).payload = (s.cell i).payload ∧ (t.circ c).queue = k.queue ++ [i] ∧
      (t.circ c).closedCnt = k.closedCnt + 1 ∧ (t.circ c).txseq = (k.txseq + 1) % 65536
    let oneOpen : Prop := (∃ x, s.cells.filter (fun e => e.2.st == .openS && e.2.holder == .portRx n) = [(i, x)] ∧ s.cell i = x ∧
      x.owner = .circ c ∧ x.payload ≠ []) ∧ (twinRule s && s.strap.standby) = false ∧ cTap s c = false
    (rxOn s n = false → exec (.characterReceive n r) s = .next s) ∧
    (rxOn s n = true → rxBit r 0 = false → portTrunk s n = none →
      (good → pCell s n = false → pFeed s n = some c.val →
        (p.rxHold = none → ∃ t h, exec (.characterReceive n r) s = .next t ∧ (t.port n).rxHold = some h ∧ h.data = b ^^^ r.upset ∧ h.cls = 0 ∧
          h.check = crc32c [b] ∧ h.noise = rxNoise s n r ∧ h.early = p.early ∧
          h.ts = r.t0 ∧ h.ovr = p.ovr ∧ h.mark = (pNine s n && rxPar s n r) ∧ (t.ctx c).ep.getLsbD 0 = true ∧
          t.reg (pAddr n 0x18) = s.reg (pAddr n 0x18) + 1#32 ∧ t.cells = s.cells) ∧
        (∀ h, p.rxHold = some h → ∃ t, exec (.characterReceive n r) s = .next t ∧ (t.port n).rxHold = some h ∧
          t.fld (pAddr n 0x1B) 16 16 = min (s.fld (pAddr n 0x1B) 16 16 + 1) 65535 ∧ t.bit (pAddr n 0x13) 2 = true)) ∧
      (good → pCell s n = true → pAddrMode s n = 0 → pFeed s n = some c.val → openRx s n c = some i →
        (s.cell i).bad = [] → (s.cell i).payload.length < 239 →
        (r.upset = 0#8 → ∃ t, exec (.characterReceive n r) s = .next t ∧
          t.cell i = { s.cell i with payload := (s.cell i).payload ++ [b] } ∧ (∀ j, j ≠ i → t.cell j = s.cell j) ∧
          t.reg (pAddr n 0x18) = s.reg (pAddr n 0x18) + 1#32) ∧
        (crc32c [b ^^^ r.upset] ≠ crc32c [b] → (s.cell i).owner = .circ c → ∃ t, exec (.characterReceive n r) s = .next t ∧
          (t.cell i).owner ≠ .circ c ∧ t.fld 0x2011 0 16 = min (s.fld 0x2011 0 16 + 1) 65535 ∧
          t.reg (pAddr n 0x18) = s.reg (pAddr n 0x18) + 1#32)) ∧
      (charClass s n r = 3 → ∃ t, exec (.characterReceive n r) s = .next t ∧ ((t.port n).lineBrk = true ∨ (t.port n).gloved = true) ∧
        t.bit (pAddr n 0x13) 0 = true ∧ t.reg (pAddr n 0x18) = s.reg (pAddr n 0x18) + 1#32 ∧
        (pFeed s n = some c.val → t.fld (pAddr n 0x1B) 0 16 = min (s.fld (pAddr n 0x1B) 0 16 + 1) 65535))) ∧
    (hostReach s = true → present s n = true → oneOpen → ∃ t, exec (.close n) s = .next t ∧ closes t 4) ∧
    (pLive s n = true → p.timeout = true → p.frozen = false → portTrunk s n = none → pAddrMode s n = 0 → pFeed s n = some c.val → oneOpen →
      ∃ t, exec (.receiveTimeout n) s = .next t ∧ closes t 1 ∧ (t.port n).timeout = false ∧ (t.ctx c).ep.getLsbD 2 = true) ∧
    (pLive s n = false ∨ p.timeout = false ∨ p.frozen = true → exec (.receiveTimeout n) s = .next s)

/-- A HOLD port that carries no trunk and may send, without flow control: at a bit tick of an idle transmitter without driver
enable a requested break begins with its space and mark on TXD, else a held character with no open verdict whose check agrees
begins (start bit, data, parity or mark, stop bits on TXD), empties the holding register and signals the feed circuit's context;
one whose check does not agree is not sent and counts at point 5. With driver enable and a lead, DE asserts and the lead runs. At
a character's or break's end with nothing to send the transmitter rests, and a sent character counts. A CELL port's next character
is its cell's next byte, with TXMARK's mark on the first. A lead that ends begins the break it was for; a lag that ends releases
DE, and no register or cell changes. In any other state of the transmitter these events change nothing. Each answers a next state.
-/
def Obligations.PortTransmitter : Prop :=
  ∀ (s : State) (n : PortId) (h : TxChar) (i : Nat),
    let p := s.port n
    let clear : Prop := txHeld s n = false ∧ portTrunk s n = none ∧ pFlow s n = 0 ∧ pRole s n ≠ 2
    let same (i : Instr) : Prop := exec i s = .next s
    (clear → pCell s n = false → p.txCell = none →
      (p.tx = .idle → p.brkReq = true →
        exec (.transmitterStart n) s = .next (s.setPort n { p with tx := .brk, line := breakLine s n, brkReq := false })) ∧
      (p.tx = .idle → p.brkReq = false → p.txHold = some h → h.wait = none →
        (crc32c [h.data] = h.check → ∃ t, exec (.transmitterStart n) s = .next t ∧
          t.port n = { p with tx := .char, line := charLine s n h.data h.mark, txHold := none } ∧ t.cells = s.cells ∧ t.regs = s.regs ∧
          ∀ c, pFeed s n = some c → (t.ctx c).ep.getLsbD 1 = true) ∧
        (crc32c [h.data] ≠ h.check → ∃ t, exec (.transmitterStart n) s = .next t ∧ (t.port n).txHold = none ∧
          ∀ c, pFeed s n = some c → t.fld 0x2013 16 16 = min (s.fld 0x2013 16 16 + 1) 65535)) ∧
      (p.brkReq = false → p.txHold = none →
        (p.tx = .char → ∃ t, exec (.transmitCharacterDone n) s = .next t ∧ t.port n = { p with tx := .idle, line := [] } ∧
          t.reg (pAddr n 0x19) = s.reg (pAddr n 0x19) + 1#32) ∧
        (p.tx = .brk → ∃ t, exec (.breakSendEnd n) s = .next t ∧ t.port n = { p with tx := .idle, line := [] } ∧
          t.reg (pAddr n 0x19) = s.reg (pAddr n 0x19)))) ∧
    (txHeld s n = false → pCell s n = false → p.txCell = none → pRole s n = 2 → pEcho s n = true → p.de = false → p.brkReq = true →
      p.tx = .idle → s.fld (pAddr n 6) 0 8 ≠ 0 →
      ∃ t, exec (.transmitterStart n) s = .next t ∧ t.port n = { p with de := true, tx := .lead, item := .brk } ∧ t.regs = s.regs) ∧
    (clear → pCell s n = true → p.tx = .char → p.brkReq = false → p.txCell = some i → (s.cell i).abandon = false → (s.cell i).bad = [] →
      p.txOff + 1 < (s.cell i).payload.length → ∃ t, exec (.transmitCharacterDone n) s = .next t ∧
        t.port n = { p with tx := .char, txOff := p.txOff + 1, line := charLine s n (((s.cell i).payload[p.txOff]?).getD 0#8) (p.txOff == 0 && s.bit (pAddr n 8) 4) } ∧
        t.cells = s.cells ∧ t.reg (pAddr n 0x19) = s.reg (pAddr n 0x19) + 1#32) ∧
    (p.tx = .lead → txHeld s n = false → p.item = .brk → (∀ j, p.txCell = some j → (s.cell j).abandon = false) →
      exec (.deLeadEnd n) s = .next (s.setPort n { p with tx := .brk, line := breakLine s n, brkReq := false })) ∧
    (p.tx = .lag → exec (.deLagEnd n) s =
      .next (s.setPort n { p with de := false, tx := .idle, rearm := p.rearm || (!pEcho s n && !p.armed) })) ∧
    ((p.tx ≠ .idle ∧ p.tx ≠ .lag) ∨ p.frozen = true → same (.transmitterStart n)) ∧ (p.tx ≠ .char → same (.transmitCharacterDone n)) ∧
    (p.tx ≠ .brk → same (.breakSendEnd n)) ∧ (p.tx ≠ .lead → same (.deLeadEnd n)) ∧ (p.tx ≠ .lag → same (.deLagEnd n))

/-- An ingress or context request that Table 7-5 grants takes a free cell: it is open, of the circuit and its class, every other
cell stays, and the grant counts. A refusal counts by its reason (state, ceiling, pool) with its event and changes nothing else
but what the allocator keeps of its turns; so does a refusal of the system reserve. Of several requests one of the reserve is
served first; requests that none may make change nothing. A circuit's free of its own cell that no egress takes frees it, with
CAUSE 7 where it was open (a cell of its own making, not to be retired); one being taken is marked freed; of a free cell, DBLFREE
counts; of another owner's cell (the cell map being canonical), NONOWN counts, CEL_EVT.NONOWNER is set, the cell keeps its owner,
and the circuit, unless DISABLED, is in FAULT with its context. A system context's free of a circuit's cell sets NONOWNER and
SFAULT and leaves the cell. -/
def Obligations.CellAllocation : Prop :=
  ∀ (s : State) (c : CircId) (i : CellId) (k : Fin 8) (j : Nat) (rs : List Requester),
    let refused (q : Requester) (a lo : Nat) : Prop := ∃ t, exec (.cellAllocate [q]) s = .next t ∧
      t = { s with regs := t.regs, circs := t.circs, pool := { s.pool with allocLast := t.pool.allocLast } } ∧
      t.fld a lo 16 = min (s.fld a lo 16 + 1) 65535 ∧ t.bit (cAddr c 0x0D) 5 = true ∧ ∀ r, r ≠ a → r ≠ cAddr c 0x0D → t.reg r = s.reg r
    let granted (q : Requester) : Prop := ∃ t, exec (.cellAllocate [q]) s = .next t ∧ (t.cell j).owner = .circ c ∧ (t.cell j).st = .openS ∧
      (t.cell j).cls = cClass s c ∧ (t.cell j).payload = [] ∧ (∀ m, m ≠ j → t.cell m = s.cell m) ∧
      t.reg (cAddr c 0x10) = s.reg (cAddr c 0x10) + 1#32
    let x := s.cell i
    (pickFree s = some j → (allocDecide s c true = .granted → granted (.push c)) ∧ (allocDecide s c false = .granted → (∀ e ∈ s.cells, e.2.holder ≠ .wcur c) → granted (.ctx c))) ∧
    (allocDecide s c true = .state → refused (.push c) (cAddr c 0x13) 16) ∧
    (allocDecide s c true = .ceiling → refused (.push c) (cAddr c 0x11) 0) ∧
    (allocDecide s c true = .pool → refused (.push c) (cAddr c 0x11) 16) ∧
    (pickFree s = some j → sysRoom s .ctl = true → ∃ t, exec (.cellAllocate [.control]) s = .next t ∧ (t.cell j).owner = .sys .ctl ∧
      (t.cell j).st = .openS ∧ (∀ m, m ≠ j → t.cell m = s.cell m) ∧ t.regs = s.regs) ∧
    (sysRoom s .relay = false → ∃ t, exec (.cellAllocate [.relay]) s = .next t ∧ t = { s with regs := t.regs } ∧
      t.fld 0x2008 0 16 = min (s.fld 0x2008 0 16 + 1) 65535 ∧ t.bit 0x2006 3 = true) ∧
    (pickFree s = some j → (∀ u, sysRoom s u = true) → (∃ q ∈ rs, reqCirc q = none) →
      ∃ t u, exec (.cellAllocate rs) s = .next t ∧ (t.cell j).owner = .sys u ∧ t.regs = s.regs) ∧
    ((∀ q ∈ rs, mayAsk s q = false) → exec (.cellAllocate rs) s = .next s) ∧
    (x.owner = .circ c → x.st ≠ .taken → x.retire = false → x.origin / 2 ^ 22 ≠ 1 →
      ∃ t, exec (.cellFree i (c.castLE (by omega))) s = .next t ∧ t.cell i = { retired := x.retired, corrected := x.corrected, cause := if x.st = .openS then 7 else 0 } ∧ ∀ m, m ≠ i.val → t.cell m = s.cell m) ∧
    (x.owner = .circ c → x.st = .taken → exec (.cellFree i (c.castLE (by omega))) s = .next (s.setCell i { x with freed := true })) ∧
    (x.owner = .free → ∃ t, exec (.cellFree i (c.castLE (by omega))) s = .next t ∧ t = { s with regs := t.regs } ∧
      t.fld (cAddr c 0x12) 0 16 = min (s.fld (cAddr c 0x12) 0 16 + 1) 65535 ∧ t.bit (cAddr c 0x0D) 4 = true) ∧
    (s.mapsWf = true → x.owner ≠ .free → x.owner ≠ .circ c → ∃ t, exec (.cellFree i (c.castLE (by omega))) s = .next t ∧ (t.cell i).owner = x.owner ∧
      t.fld (cAddr c 0x12) 16 16 = min (s.fld (cAddr c 0x12) 16 16 + 1) 65535 ∧ t.bit 0x2006 0 = true ∧ t.fld 0x2005 0 12 = i.val ∧
      ((s.circ c).st ≠ .disabled → (t.circ c).st = .fault ∧ (t.ctx c).st = .faulted ∧ t.fld (xAddr c 2) 8 4 = 7)) ∧
    (x.owner = .circ c → ∃ t, exec (.cellFree i ((k.natAdd 64).castLE (by omega))) s = .next t ∧ t.bit 0x2006 0 = true ∧ t.bit 0x2408 3 = true ∧
      (t.cell i).owner = .circ c)

/-- An entry of the credit table whose 20 ms end leaves the table, and where its system context runs and a system cell is free its
packet names all credits owed. A fabric circuit with a waiting cell and no credits probes over a valid route, counted. A stall
sets its event and time: action 0 changes no queue, 1 counts every waiting cell as discarded, 2 cuts. A CUT of a circuit not
DISABLED leaves it DISABLED with EN 0 in shadow and applied copy, its queues empty, its context IDLE (to stop at the end of a fill
it waits for), its tombstone its new TXSEQ, and CUT set; of a DISABLED one it only clears the shadow's EN. RESTART, and a running
FRESTART timer, take a circuit in FAULT to RUN (EN 1), its context started where ports are live and it waits for no fill; with EN
0 to DRAIN, or holding nothing to DISABLED. CLRCNT zeroes Table 7-13's counters; PEAK takes the held count. Out of its condition,
the strobes with the register interface out of reach, each changes nothing. -/
def Obligations.CircuitTimers : Prop :=
  ∀ (s : State) (c : CircId) (dev : BitVec 12) (rc owner : CircId) (e : CreditEntry),
    let k := s.circ c
    let mine (f : CreditEntry) : Bool := f.dev == dev.toNat && f.circ == rc.val && f.owner == owner.val
    let same (i : Instr) : Prop := exec i s = .next s
    let sends (i : Instr) (typ dst dc sc : Nat) (body : List Byte) (u : State) : Prop := ∃ t o, exec i s = .next t ∧
      t.outQ = s.outQ ++ [o] ∧ o.pkt.typ = typ ∧ o.pkt.dst = dst ∧ o.pkt.dcirc = dc ∧ o.pkt.scirc = sc ∧ o.pkt.body = body ∧ t.credits = u.credits
    let cut (t : State) : Prop := (t.circ c).st = .disabled ∧ (t.circ c).queue = [] ∧ (t.circ c).inbox = [] ∧ cEn t c = false ∧
      getF (t.shad (cAddr c 0)) 0 1 = 0 ∧
      (if (s.ctx c).st = .run ∧ (s.ctx c).fill ≠ none then (t.ctx c).cutReq = true else (t.ctx c).st = .idle) ∧ (t.circ c).tombSeq = (t.circ c).txseq ∧ t.bit (cAddr c 0x0D) 2 = true
    let restarts (i : Instr) : Prop :=
      (cEn s c = true → ∃ t, exec i s = .next t ∧ (t.circ c).st = .run ∧ (s.boot.live = true → (s.ctx c).fill = none → (t.ctx c).st = .run) ∧
        (t.circ c).credits = cInit s c ∧ (t.circ c).tombSeq = (t.circ c).txseq) ∧
      (cEn s c = false → heldBy s c = 0 → ∃ t, exec i s = .next t ∧ (t.circ c).st = .disabled ∧ (t.ctx c).st = .idle ∧ t.regs = s.regs) ∧
      (cEn s c = false → heldBy s c ≠ 0 → ∃ t, exec i s = .next t ∧ ((t.circ c).st = .drain ∨ (t.circ c).st = .disabled))
    (s.credits.find? mine = some e → sysDown s e.owner = false → sysUsed s < 96 → pickFree s ≠ none →
      sends (.creditTableTimer dev rc owner) 1 dev.toNat rc e.owner ([BitVec.ofNat 8 (16 * e.owed), 0#8] ++ bytesBE 2 e.seq)
        { s with credits := s.credits.filter (fun f => !mine f) }) ∧
    (s.credits.find? mine = none → same (.creditTableTimer dev rc owner)) ∧
    (cKind s c = 2 → boundLocal s c = false → k.st ≠ .disabled → k.credits = 0 → k.queue ≠ [] → ownAddr s ≠ 0 →
      sysDown s c = false → (bestPath s (cRdev s c)).isSome = true → sysUsed s < 96 → pickFree s ≠ none →
      sends (.creditProbeTimer c) 2 (cRdev s c) (cRcirc s c) c.val (bytesBE 2 k.tombSeq) s) ∧
    (cKind s c ≠ 2 ∨ k.st = .disabled ∨ k.credits ≠ 0 ∨ k.queue = [] ∨ sysDown s c = true → same (.creditProbeTimer c)) ∧
    (k.stallRun = false ∨ stallHeld s c = true → same (.stallTimerExpiry c)) ∧
    (k.stallRun = true → stallHeld s c = false → ∃ t, exec (.stallTimerExpiry c) s = .next t ∧
      (cStallAct s c = 0 → t.bit (cAddr c 0x0D) 0 = true ∧ t.circ c = { k with stallTime := s.now } ∧ t.ctxs = s.ctxs) ∧
      (cStallAct s c = 1 → t.fld (cAddr c 0x13) 0 16 = min (s.fld (cAddr c 0x13) 0 16 + (stalledCells s c).length) 65535) ∧
      (2 ≤ cStallAct s c → cut t)) ∧
    (hostReach s = true → k.st ≠ .disabled → ∃ t, exec (.cut c) s = .next t ∧ cut t) ∧
    (hostReach s = true → k.st = .disabled → exec (.cut c) s = .next (s.setShad (cAddr c 0) (setF (s.shad (cAddr c 0)) 0 1 0))) ∧
    (k.st = .fault → (hostReach s = true → restarts (.restart c)) ∧ (k.frestart = true → restarts (.frestartExpiry c))) ∧
    (k.st ≠ .fault → same (.restart c) ∧ same (.frestartExpiry c)) ∧ (k.frestart = false → same (.frestartExpiry c)) ∧
    (hostReach s = false → same (.cut c) ∧ same (.restart c) ∧ same (.circuitClrcnt c)) ∧
    (hostReach s = true → ∃ t, exec (.circuitClrcnt c) s = .next t ∧ t = { s with regs := t.regs } ∧ (∀ j, j < 5 → t.reg (cAddr c (0x10 + j)) = 0#32) ∧
      t.fld (cAddr c 0x0B) 0 12 = heldBy s c % 4096 ∧ ∀ r, r ≠ cAddr c 0x0B → (r < cAddr c 0x10 ∨ cAddr c 0x15 ≤ r) → t.reg r = s.reg r)

/-- While RATE is not 0 or a full-speed pass runs, and no error has come about elsewhere, a sound word moves the scrubber on,
reports whether it is behind, and changes nothing else; the last word ends the pass: word 0 is next, PASSES counts, no full-speed
pass runs, PASSDONE is set. A corrected error not met before counts in its memory's correctable count with CECORR and CEL_ECCLAST,
and is remembered unless traffic wrote the word before the write-back; one met before sets STUCK; an uncorrectable one counts with
UNCORR, and in instruction RAM poisons that word. With RATE 0 and no pass nothing happens, but that an error in a general register
of a circuit context stands there for its next read. FULL starts a pass from word 0 unless one runs. CLRCNT zeroes the sleeve and
error counts only; both change nothing with the register interface out of reach. -/
def Obligations.Scrubbing : Prop :=
  ∀ (s : State) (behind wrote : Bool) (e : EccRead) (x : CircId) (q : Fin 16),
    let same (i : Instr) : Prop := exec i s = .next s
    let w := s.pool.scrubPos
    let m := (scrubWhere w).1
    let on : Prop := s.fld 0x2019 0 8 ≠ 0 ∨ s.pool.fullPass = true
    (on → w + 1 < 151552 → ∃ t, exec (.scrubWord .sound behind wrote []) s = .next t ∧ t = { s with regs := t.regs, pool := { s.pool with scrubPos := w + 1 } } ∧
      t.bit 0x201B 17 = behind ∧ ∀ r, r ≠ 0x201B → t.reg r = s.reg r) ∧
    (on → w = 151551 → ∃ t, exec (.scrubWord .sound behind wrote []) s = .next t ∧ t.pool = { s.pool with scrubPos := 0, fullPass := false } ∧
      t.bit 0x201C 4 = true ∧ t.bit 0x201B 16 = false ∧ t.fld 0x201B 0 16 = min (s.fld 0x201B 0 16 + 1) 65535) ∧
    (on → w + 1 < 151552 → correctedBefore s m (scrubWhere w).2 = false → ∃ t, exec (.scrubWord .corrected behind wrote []) s = .next t ∧
      t.fld (0x2015 + m) 0 16 = min (s.fld (0x2015 + m) 0 16 + 1) 65535 ∧ t.bit 0x201C 1 = true ∧ t.fld 0x2018 0 2 = m ∧
      t.bit 0x2018 2 = false ∧ t.fld 0x2018 4 17 = (scrubWhere w).2 ∧ t.pool.scrubPos = w + 1 ∧ correctedBefore t m (scrubWhere w).2 = !wrote) ∧
    (on → w + 1 < 151552 → correctedBefore s m (scrubWhere w).2 = true → ∃ t, exec (.scrubWord .corrected behind wrote []) s = .next t ∧
      t.fld (0x2015 + m) 0 16 = min (s.fld (0x2015 + m) 0 16 + 1) 65535 ∧ t.bit 0x201C 3 = true ∧ t.pool.scrubPos = w + 1) ∧
    (on → w + 1 < 151552 → m = 2 → ∃ t, exec (.scrubWord .uncorrectable behind wrote []) s = .next t ∧ t.bit 0x201C 2 = true ∧
      t.fld 0x2017 16 16 = min (s.fld 0x2017 16 16 + 1) 65535 ∧ t.pool.iramBad = (scrubWhere w).2 :: s.pool.iramBad) ∧
    (¬ on → same (.scrubWord e behind wrote []) ∧ ∃ t, exec (.scrubWord e behind wrote [.greg (x.castLE (by omega)) q]) s = .next t ∧
      t = { s with ctxs := t.ctxs } ∧ q.val ∈ (t.ctx x).gBad ∧ ∀ y, y ≠ x.val → t.ctx y = s.ctx y) ∧
    (hostReach s = false → same .full ∧ same .integrityClrcnt) ∧
    (hostReach s = true → s.bit 0x201B 16 = true → same .full) ∧
    (hostReach s = true → s.bit 0x201B 16 = false → ∃ t, exec .full s = .next t ∧ t = { s with regs := t.regs, pool := { s.pool with fullPass := true, scrubPos := 0 } } ∧
      t.bit 0x201B 16 = true ∧ ∀ r, r ≠ 0x201B → t.reg r = s.reg r) ∧
    (hostReach s = true → ∃ t, exec .integrityClrcnt s = .next t ∧ t = { s with regs := t.regs } ∧
      ∀ r, t.reg r = if r ∈ [0x2011, 0x2012, 0x2013, 0x2015, 0x2016, 0x2017] then 0#32 else s.reg r)

/-- A whole CAN packet in one frame to this device, and a UART frame with a good CRC on an open trunk, are taken and counted; a
bad CRC is counted. A packet for elsewhere with a route, a relay cell and HOPS below 15 is queued on its best path with HOPS
raised, where its type is a routed one; one with HOPS 15 is dropped and counted. The next expected DATA packet of a circuit whose
system context is not FAULTED, with room and a matching sleeve, becomes a closed cell with its payload, sleeve, ORIGIN and CAUSE
6, and E moves on; one to 0x000 or 0xFFF counts in NOROUTE. A circuit's head cell with credit and a route is queued and costs one
credit. A gap's expiry counts the gap and moves E; an idle context is freed; a retried packet waits no more; a relayed packet past
its life is dropped, counted, its cell freed; a late segment counts. Each answers a next state; with nothing to act on (no packet
or frame waits, no such gap, context, packet or reassembly; no cell, no credit, a FAULTED system context) that state is the one
before. -/
def Obligations.FabricTraffic : Prop :=
  ∀ (s : State) (q : InPkt) (rest : List InPkt) (j r : Nat) (b : RPath) (p : Pkt),
    let inc (t : State) (a lo v : Nat) : Prop := t.fld a lo 16 = min (s.fld a lo 16 + v) 65535
    let own : Prop := q.form0 = false ∧ q.pkt.dst = ownAddr s ∧ ownAddr s ≠ 0 ∧ sysDown s q.pkt.dcirc = false
    let same (i : Instr) : Prop := exec i s = .next s
    (s.fab.inQ = [] → same .packetRelay ∧ same .dataReceive) ∧
    (∀ ch : ChanId, (∀ e ∈ s.fab.segQ, e.1 ≠ ch.val) → same (.fabricSegmentReceive ch)) ∧
    (∀ k : Fin 4, (s.trunk (k.val + 2)).lock = .hunt → same (.trunkFrameJudge k)) ∧
    (∀ (ch : ChanId) (f : CanFrame) (at_ : Time) (h : Byte) (d : List Byte) (n : Nat), s.fab.segQ = [(ch.val, f, at_)] → f.data = h :: d →
      f.id.testBit 26 = true → f.id / 4096 % 4096 = ownAddr s → h.getLsbD 7 = true → h.getLsbD 6 = true →
      (s.fab.reasm.filter (fun x => x.chan == ch.val)).length < 32 → pktLen d = some n → n ≤ d.length →
      1 + d.length ≤ dlcLen f.fdf (dlcFor (1 + n)) → pktOf (d.take n) = some p → ∃ t, exec (.fabricSegmentReceive ch) s = .next t ∧
        t.fab.inQ = s.fab.inQ ++ [{ pkt := p, trunk := ch.val, sender := f.id % 4096, at_ := at_ }] ∧ t.reg 0x4019 = s.reg 0x4019 + 1#32) ∧
    (∀ (k : Fin 4) (len : Nat), let x := s.trunk (k.val + 2)
      x.lock = .locked → utHeader x.rx = some (false, len) → x.rx.length = 12 + len → byteAt x.rx (10 + len) = 0xE2#8 →
      byteAt x.rx (11 + len) = 0x5D#8 →
      (natBE ((x.rx.drop (6 + len)).take 4) ≠ (crc32 (x.rx.take (6 + len))).toNat →
        ∃ t, exec (.trunkFrameJudge k) s = .next t ∧ inc t 0x401E 0 1 ∧ t.fab.inQ = s.fab.inQ) ∧
      (natBE ((x.rx.drop (6 + len)).take 4) = (crc32 (x.rx.take (6 + len))).toNat → natBE ((x.rx.drop 2).take 3) / 4096 = ownAddr s →
        utAuth s (k.val + 2) = false → pktOf (((x.rx.take (6 + len)).drop 6).take len) = some p →
        ∃ t i, exec (.trunkFrameJudge k) s = .next t ∧ t.fab.inQ = s.fab.inQ ++ [i] ∧ i.pkt = p ∧ t.reg 0x4019 = s.reg 0x4019 + 1#32)) ∧
    (s.fab.inQ = q :: rest → q.form0 = false → q.pkt.dst ≠ 0xFFF → q.pkt.dst ≠ 0 → q.pkt.dst ≠ ownAddr s → ownAddr s ≠ 0 → q.pkt.hops < 15 → q.pkt.typ ≤ 4 →
      bestPath s q.pkt.dst = some b → sysRoom s .relay = true → pickFree s = some j → ∃ t, exec .packetRelay s = .next t ∧ t.fab.inQ = rest ∧
        t.outQ = s.outQ ++ [{ pkt := { q.pkt with hops := q.pkt.hops + 1 }, cell := j, trunk := some b.trunk, hop := b.hop, since := s.now }]) ∧
    (s.fab.inQ = q :: rest → q.form0 = false → q.pkt.dst ≠ 0xFFF → q.pkt.dst ≠ 0 → q.pkt.dst ≠ ownAddr s → ownAddr s ≠ 0 → 15 ≤ q.pkt.hops →
      ∃ t, exec .packetRelay s = .next t ∧ t.fab.inQ = rest ∧ t.outQ = s.outQ ∧ inc t 0x401A 16 1) ∧
    (s.fab.inQ = q :: rest → q.pkt.typ = 0 → own → orderIdx s q.pkt.src q.pkt.scirc q.pkt.dcirc = some r → (s.order r).next = q.pkt.seq →
      (s.order r).held = [] → allocDecide s q.pkt.dcirc true = .granted → pickFree s = some j → crc32c q.pkt.body = q.pkt.sleeve →
      q.pkt.body ≠ [] → ∃ t, exec .dataReceive s = .next t ∧ t.fab.inQ = rest ∧ (t.cell j).st = .closed ∧ (t.cell j).payload = q.pkt.body ∧
        (t.cell j).sleeve = q.pkt.sleeve ∧ (t.cell j).cause = 6 ∧ (t.cell j).origin = originOf q.pkt.src q.pkt.scirc ∧
        (t.cell j).owner = .circ q.pkt.dcirc ∧ (t.order r).next = (q.pkt.seq + 1) % 65536) ∧
    (s.fab.inQ = q :: rest → q.pkt.typ = 0 → sysDown s q.pkt.dcirc = false → q.pkt.dst = 0 ∨ q.pkt.dst = 0xFFF → ∃ t, exec .dataReceive s = .next t ∧ t.fab.inQ = rest ∧
      inc t 0x401B 0 1 ∧ t.cells = s.cells) ∧
    (∀ (c : CircId) (i : Nat) (l : List Nat), let k := s.circ c
      k.queue = i :: l → cKind s c = 2 → k.st ≠ .disabled → k.credits ≠ 0 → ownAddr s ≠ 0 → boundLocal s c = false → sysDown s c = false →
      bestPath s (cRdev s c) = some b → ∃ t, exec (.cellHandover c) s = .next t ∧ (t.circ c).queue = l ∧ (t.circ c).credits = k.credits - 1 ∧
        (t.circ c).doneCnt = k.doneCnt + 1 ∧ t.cell i = { s.cell i with st := .taken, holder := .fabric } ∧
        t.outQ = s.outQ ++ [{ pkt := dataPkt s c i, cell := i, trunk := some b.trunk, hop := b.hop, since := s.now }]) ∧
    (∀ c : CircId, (s.circ c).queue = [] ∨ (s.circ c).credits = 0 ∨ sysDown s c = true → same (.cellHandover c)) ∧
    (∀ x : Fin 128, sysDown s (s.order x).dcirc = false → (s.order x).used = true → (s.order x).held = [p] → p.seq < 65536 → (s.order x).next < 65536 → ∃ t, exec (.reorderGapExpiry x) s = .next t ∧
      (t.order x).held = [] ∧ (t.order x).next = (p.seq + 1) % 65536 ∧ inc t 0x401C 16 (seqDist (s.order x).next p.seq)) ∧
    (∀ x : Fin 128, (s.order x).used = false ∨ (s.order x).held = [] ∨ sysDown s (s.order x).dcirc = true → same (.reorderGapExpiry x)) ∧
    (∀ x : Fin 128, if (s.order x).held = [] then exec (.reorderContextIdle x) s = .next (s.setOrder x {}) else same (.reorderContextIdle x)) ∧
    (∀ x : CellId, ∃ t, exec (.fabricFrameRetry x) s = .next t ∧ t = { s with outQ := t.outQ } ∧
      t.outQ.map (fun o => (o.pkt, o.cell)) = s.outQ.map (fun o => (o.pkt, o.cell)) ∧ ∀ o ∈ t.outQ, o.cell = x.val → o.retry = false) ∧
    (∀ (x : CellId) (o : OutPkt), s.outQ.find? (fun y => y.cell == x.val) = some o → o.pkt.typ = 0 → (s.cell x).owner = .sys .relay →
      (s.cell x).retire = false → s.ctlWait = [] → s.jnl.waiting = [] → ∃ t, exec (.packetLifeExpiry x) s = .next t ∧
        t.outQ = s.outQ.filter (fun y => y.cell != x.val) ∧ inc t 0x401B 16 1 ∧ (t.cell x).owner = .free) ∧
    (∀ x : CellId, (∀ o ∈ s.outQ, o.cell ≠ x.val) → same (.packetLifeExpiry x)) ∧
    (∀ (ch : ChanId) (snd : BitVec 12) (cls : BitVec 2), if ∃ x ∈ s.fab.reasm, x.chan = ch.val ∧ x.sender = snd.toNat ∧ x.cls = cls.toNat then
      ∃ t, exec (.reassemblyTimeout ch snd cls) s = .next t ∧ t.fab.reasm = dropReasm s.fab.reasm ch.val snd.toNat cls.toNat ∧ inc t 0x4021 0 1
      else same (.reassemblyTimeout ch snd cls))

/-- A CREDIT not before the tombstone raises CREDITS, at most to INIT, and counts refused credits; an earlier one is ignored. A
PROBE is answered with the cells held of its pair from its tombstone on, 0 without a context. A reply to the present tombstone
makes CREDITS INIT minus the cells held, with CREDSYNC where it rises. A TOMB sets the context's TOMB and E. RECLAIM of a strapped
address begins its claim, with OWN 0 and no conflict; each claim timer takes a step, and the fourth takes the address and ends the
claim. A defeated unstrapped owner claims its next candidate (none of every 16th defeat); a defeated strapped one shows a conflict
and fault 7. After the backoff the candidate is claimed; a collided claim is sent again. Packets are acted on while their
circuit's system context is not FAULTED. Each answers a next state; with no packet waiting, no claim or backoff running, or the
register interface out of reach of RECLAIM, that state is the one before. -/
def Obligations.FabricControl : Prop :=
  ∀ (s : State) (q : InPkt) (rest : List InPkt) (r : Nat),
    let p := q.pkt
    let c := p.dcirc
    let k := s.circ c
    let cl := s.fab.claim
    let same (i : Instr) : Prop := exec i s = .next s
    let own : Prop := s.fab.inQ = q :: rest ∧ q.form0 = false ∧ p.dst = ownAddr s ∧ ownAddr s ≠ 0 ∧ sysDown s c = false
    let g := (byteAt p.body 0).toNat
    let mine (x : Reorder) : Prop := x.used = true ∧ x.src = p.src ∧ x.scirc = p.scirc ∧ x.dcirc = c
    let tomb := natBE (p.body.take 2)
    let answers (n : Nat) : Prop := ∃ t o, exec .probeReceive s = .next t ∧ t.fab.inQ = rest ∧ t.outQ = s.outQ ++ [o] ∧ o.pkt.typ = 3 ∧
      o.pkt.dst = p.src ∧ o.pkt.dcirc = p.scirc ∧ o.pkt.scirc = c ∧ o.pkt.body = bytesBE 2 n ++ bytesBE 2 tomb
    (s.fab.inQ = [] → same .creditReceive ∧ same .probeReceive ∧ same .probereplyReceive ∧ same .tombReceive ∧ same .claimReceive) ∧
    (hostReach s = false → same .reclaim) ∧ (cl.active = false → same .claimTimer) ∧ (cl.backoff = false → same .autoClaimBackoff) ∧
    (own → p.typ = 1 → seqBefore (natBE ((p.body.drop 2).take 2)) k.tombSeq = false → ∃ t, exec .creditReceive s = .next t ∧ t.fab.inQ = rest ∧
      t.circ c = { k with credits := min (k.credits + (g / 16 + g % 16)) (cInit s c) } ∧
      t.fld 0x4022 0 16 = min (s.fld 0x4022 0 16 + g % 16) 65535) ∧
    (own → p.typ = 1 → seqBefore (natBE ((p.body.drop 2).take 2)) k.tombSeq = true →
      exec .creditReceive s = .next { s with fab := { s.fab with inQ := rest } }) ∧
    (own → p.typ = 2 → sysUsed s < 96 → pickFree s ≠ none →
      (orderIdx s p.src p.scirc c = none → answers 0) ∧
      (orderIdx s p.src p.scirc c = some r → mine (s.order r) → answers (heldFor s p.src p.scirc c tomb))) ∧
    (own → p.typ = 3 → natBE ((p.body.drop 2).take 2) = k.tombSeq → ∃ t, exec .probereplyReceive s = .next t ∧ t.fab.inQ = rest ∧
      t.circ c = { k with credits := cInit s c - tomb } ∧ (k.credits < cInit s c - tomb → t.bit (cAddr c 0x0D) 6 = true)) ∧
    (own → p.typ = 4 → orderIdx s p.src p.scirc c = some r → mine (s.order r) → (s.order r).held = [] →
      ∃ t, exec .tombReceive s = .next t ∧ t.fab.inQ = rest ∧ mine (t.order r) ∧ (t.order r).tomb = tomb ∧ (t.order r).next = tomb) ∧
    (hostReach s = true → s.fld 0x4001 0 12 ≠ 0 → ∃ t, exec .reclaim s = .next t ∧ ownAddr t = 0 ∧ t.fab.claim.active = true ∧
      t.fab.claim.addr = s.fld 0x4001 0 12 ∧ t.fab.claim.strapped = true ∧ t.fab.claim.step = 1 ∧ t.bit 0x4000 15 = false ∧ t.bit 0x300 6 = false) ∧
    (cl.active = true → cl.step < 3 → ∃ t, exec .claimTimer s = .next t ∧ t.fab.claim = { cl with step := cl.step + 1 } ∧ ownAddr t = ownAddr s) ∧
    (cl.active = true → 3 ≤ cl.step → ∃ t, exec .claimTimer s = .next t ∧ ownAddr t = cl.addr % 4096 ∧ t.fab.claim.active = false ∧
      t.bit 0x4010 0 = true) ∧
    (s.fab.inQ = q :: rest → p.typ = 6 → p.fl % 2 = 1 → p.src = ownAddr s → ownAddr s ≠ 0 → natBE (p.body.take 8) ≠ s.chip.uid.toNat →
      goesFirst ((byteAt p.body 8).getLsbD 7) (p.fl / 2 % 2 == 1) (natBE (p.body.take 8)) (ownStrapped s) true s.chip.uid.toNat = true →
      (cl.defeats + 1) % 16 ≠ 0 → ∃ t, exec .claimReceive s = .next t ∧ t.fab.inQ = rest ∧ ownAddr t = 0 ∧ t.fab.claim.active = true ∧
        (ownStrapped s = false → t.fab.claim.addr = autoAddr s (cl.attempt + 1)) ∧
        (ownStrapped s = true → t.fab.claim.addr = autoAddr s 0 ∧ t.bit 0x4000 15 = true ∧ t.bit 0x4010 1 = true ∧ t.bit 0x300 6 = true)) ∧
    (cl.backoff = true → ∃ t, exec .autoClaimBackoff s = .next t ∧ t.fab.claim.active = true ∧ t.fab.claim.addr = autoAddr s cl.attempt ∧
      t.fab.claim.backoff = false) ∧
    (∀ ch : ChanId, ∃ t, exec (.claimCollisionRetry ch) s = .next t ∧ t = { s with fab := { s.fab with claimQ := t.fab.claimQ } } ∧
      (∀ f ∈ t.fab.claimQ, f.chan = ch.val → f.wait = false) ∧ t.fab.claimQ.length = s.fab.claimQ.length)

/-- A HELLO from a new neighbour of an open trunk that names neither the owned nor a claimed address enters it, with NBRUP; a lost
neighbour's entry is empty, with NBRDOWN. HELLO_SEND on a trunk that is up, with an address and a system cell, outside DORMANT,
queues a HELLO there, and one owed for a new nonce stays owed only where another went within the last second; otherwise it queues
nothing. A ROUTE entry for a new destination takes an empty entry with its sender as next hop and its metric plus 1. An entry not
refreshed takes its alternate, or enters hold-down with ROUTELOST; a hold-down's end empties it. A full update queues a ROUTE
packet on every trunk that is up (or it waits for a cell); a triggered one leaves nothing owed. A known neighbour's TIME packet
leaves its quality, stratum and sequence. CLRCNT zeroes FAB_ERR0 to FAB_ERR9 only. Each answers a next state; with no packet
waiting, no such entry, nothing owed, no address, or the register interface out of reach of ROUTEUPD and CLRCNT, that state is the
one before. -/
def Obligations.FabricTables : Prop :=
  ∀ (s : State) (q : InPkt) (rest : List InPkt) (k : TrunkId) (i : Fin 256) (j : Fin 128) (pre : List Byte) (dst m tag : Nat) (strap : Bool),
    let p := q.pkt
    let same (c : Instr) : Prop := exec c s = .next s
    let advertises (c : Instr) : Prop := ∃ t, exec c s = .next t ∧ ∀ n, n < 6 → (s.trunk n).up = true →
      (∃ o ∈ t.outQ, o.pkt.typ = 5 ∧ o.trunk = some n) ∨ (∃ w ∈ t.ctlWait, w.1.typ = 5 ∧ w.2 = some n)
    (s.fab.inQ = [] → same .helloReceive ∧ same .routeReceive ∧ same .timeReceive) ∧ (hostReach s = false → same .routeupd ∧ same .fabClrcnt) ∧
    (s.fab.inQ = q :: rest → q.form0 = false → p.typ = 6 → p.fl % 2 = 0 → p.src ≠ ownAddr s → s.fab.claim.active = false →
      utAuth s q.trunk = false → nbrIdx s q.trunk p.src = none → nbrRoom s q.trunk = some j.val → ∃ t, exec .helloReceive s = .next t ∧
        t.fab.inQ = rest ∧ (t.nbr j).st = .plain ∧ (t.nbr j).addr = p.src ∧ (t.nbr j).trunk = q.trunk ∧
        (t.nbr j).uid = BitVec.ofNat 64 (natBE (p.body.take 8)) ∧ (t.nbr j).interval = helloUnits p.body ∧ t.bit 0x4010 2 = true) ∧
    ((s.nbr j).st ≠ .empty → ∃ t, exec (.neighbourLost j) s = .next t ∧ t.nbr j = {} ∧ t.bit 0x4010 3 = true) ∧
    ((s.nbr j).st = .empty → ∃ t, exec (.neighbourLost j) s = .next t ∧ t = { s with outQ := t.outQ }) ∧
    ((s.trunk k).up = false ∨ ownAddr s = 0 ∨ s.power.st = .dormant → ∃ t, exec (.helloSend k) s = .next t ∧ t = { s with fab := t.fab }) ∧
    ((s.trunk k).up = true → ownAddr s ≠ 0 → s.power.st ≠ .dormant → sysUsed s < 96 → pickFree s ≠ none → ∃ t o, exec (.helloSend k) s = .next t ∧
      t.outQ = s.outQ ++ [o] ∧ o.pkt.typ = 6 ∧ o.pkt.src = ownAddr s ∧ o.trunk = some k.val ∧ (t.trunk k).helloDue = ((s.trunk k).helloDue && match (s.trunk k).helloAt with | some a => withinSeconds 1 a s.now | none => false)) ∧
    (s.fab.inQ = q :: rest → q.form0 = false → p.typ = 5 → p.body = pre ++ routeWord dst m strap tag → pre.length = 4 → 0 < dst → dst < 0xFFF →
      dst ≠ ownAddr s → m < 15 → tag < 2 ^ 15 → routeIdx s dst = none → routeRoom s (m + 1) = some i.val → (s.route i).st = .empty →
      ∃ t, exec .routeReceive s = .next t ∧ (t.route i).st = .valid ∧ (t.route i).dst = dst ∧ (t.route i).tag = tag ∧
        (t.route i).strap = strap ∧ (t.route i).best = ⟨q.trunk, q.sender, m + 1⟩ ∧ t.bit 0x4010 4 = true) ∧
    ((s.route i).st = .valid → ∃ t, exec (.routeAgeOut i) s = .next t ∧ (∀ a, (s.route i).alt = some a → (t.route i).st = .valid ∧
      (t.route i).best = a ∧ (t.route i).alt = none) ∧ ((s.route i).alt = none → (t.route i).st = .hold ∧ t.bit 0x4010 5 = true)) ∧
    ((s.route i).st ≠ .valid → same (.routeAgeOut i)) ∧ ((s.route i).st ≠ .hold → same (.holddownExpiry i)) ∧
    ((s.route i).st = .hold → ∃ t, exec (.holddownExpiry i) s = .next t ∧ (t.route i).st = .empty) ∧
    (ownAddr s ≠ 0 → (hostReach s = true → advertises .routeupd) ∧ advertises .routeUpdatePeriod) ∧
    (ownAddr s = 0 → same .routeUpdatePeriod) ∧
    ((s.trunk k).up = false ∨ ownAddr s = 0 ∨ (s.trunk k).changed = [] → same (.triggeredUpdate k)) ∧
    ((s.trunk k).up = true → ownAddr s ≠ 0 → (s.trunk k).changed ≠ [] →
      ∃ t, exec (.triggeredUpdate k) s = .next t ∧ (t.trunk k).changed = []) ∧
    (s.fab.inQ = q :: rest → q.form0 = false → p.typ = 7 → nbrIdx s q.trunk q.sender = some j.val →
      ∃ t, exec .timeReceive s = .next t ∧ t.fab.inQ = rest ∧ (t.tref (16 + j)).adQ = (byteAt p.body 0).toNat / 64 ∧
        (t.tref (16 + j)).adStratum = (byteAt p.body 0).toNat % 16 ∧
        (t.tref (16 + j)).tseq = some (natBE ((p.body.drop 2).take 2), q.at_)) ∧
    (s.fab.inQ = q :: rest → q.form0 = false → p.typ = 7 → nbrIdx s q.trunk q.sender = none →
      exec .timeReceive s = .next { s with fab := { s.fab with inQ := rest } }) ∧
    (hostReach s = true → ∃ t, exec .fabClrcnt s = .next t ∧ t = { s with regs := t.regs } ∧
      ∀ a, t.reg a = if 0x401A ≤ a ∧ a < 0x4024 then 0#32 else s.reg a)

/-- On a channel on the bus outside DORMANT a valid frame for neither fabric nor time is acknowledged, counts in RXFRAMES and is
stored in the first object that accepts it (register kind, at most 8 bytes), which shows it full with its timestamp and counts it;
accepted by none, it counts as such. At a decision point the chosen frame, a due reference message first, is on the bus with its
start of frame, unacknowledged, where its load shows no failure. A register-kind frame sent whole counts, shows DONE, and is
pending no more; in LOOP mode it is received too; with FD, BRS and SSPEN its loop delay is measured, at most 127, with DLYSAT
above. After a lost arbitration it stays pending with one loss more. TXREQ makes pending, CANCEL withdraws a pending frame, or
marks one on the bus. A reference message sets the sync mark and cycle, and one of higher priority ends mastership; a due message,
and the backup's, is requested. CLRCNT zeroes the error and object counters. Each answers a next state; where its condition fails
(no bus, no frame on it, nothing pending or chosen, the register interface out of reach) that state is the one before, but for the
cells the objects take at a decision point, and a bad reference message is only taken off. -/
def Obligations.CanFrames : Prop :=
  ∀ (s : State) (ch : ChanId) (i : ObjId) (f : CanFrame) (t0 : BitVec 80) (src : TxSrc) (rest : List (CanFrame × Time)) (rm : Bool) (d : BitVec 16),
    let x := s.can ch
    let o := s.obj ch i
    let u := purgeBad (fillObjs s ch) ch
    let inc (t : State) (a lo : Nat) : Prop := t.fld a lo 16 = min (s.fld a lo 16 + 1) 65535
    let same (c : Instr) : Prop := exec c s = .next s
    let free : Prop := canListens s ch = true ∧ canMode s ch ≠ 2 ∧ x.onBus = none ∧ s.power.relock = false ∧ isStaged s (if ch = 0 then .cana else .canb) = false
    let plain : Prop := oCircKind s ch i = false ∧ o.cell = none ∧ o.cancel = false ∧ o.bad = false
    (canListens s ch = false ∨ (f.fdf = true ∧ canFd s ch = false) ∨ canMode s ch = 3 → same (.canFrameReceived ch f t0)) ∧
    (canListens s ch = true → (f.fdf = true → canFd s ch = true) → canMode s ch ≠ 3 → inFabricRange s f = false → isRefId s ch f = false →
      ((List.range 128).find? (fun k => accepts s ch k f) = some i.val → oCircKind s ch i = false → f.data.length ≤ 8 →
        ∃ t, exec (.canFrameReceived ch f t0) s = .next t ∧ t.obj ch i = { o with frame := f, ts := cellForm t0 } ∧ (t.can ch).ack = true ∧
          t.bit (oAddr ch i 4) 12 = true ∧ inc t (oAddr ch i 5) 0 ∧ t.reg (chAddr ch 0x0B) = s.reg (chAddr ch 0x0B) + 1#32 ∧
          (s.bit (oAddr ch i 4) 12 = true → t.bit (oAddr ch i 4) 13 = true ∧ inc t (oAddr ch i 5) 16)) ∧
      ((List.range 128).find? (fun k => accepts s ch k f) = none → ∃ t, exec (.canFrameReceived ch f t0) s = .next t ∧
        inc t (chAddr ch 0x0F) 0 ∧ t.reg (chAddr ch 0x0B) = s.reg (chAddr ch 0x0B) + 1#32)) ∧
    (¬ free → same (.canStartOfFrame ch t0)) ∧
    (free → (chooseFrame u ch = none → exec (.canStartOfFrame ch t0) s = .next u) ∧
      (x.refDue = true → ∃ t, exec (.canStartOfFrame ch t0) s = .next t ∧ (t.can ch).onBus = some (.ref, refFrame s ch) ∧ (t.can ch).sof = t0) ∧
      (chooseFrame u ch = some (src, f) → (∀ k, src = .obj k → loadFails u ch k = none) → ∃ t, exec (.canStartOfFrame ch t0) s = .next t ∧
        (t.can ch).onBus = some (src, f) ∧ (t.can ch).sof = t0 ∧ (t.can ch).ack = false)) ∧
    (x.onBus = none → same (.canFrameTransmitted ch d) ∧ same (.canArbitrationLost ch rm)) ∧
    (x.onBus = some (.obj i, f) → plain →
      (canMode s ch ≠ 3 → ∃ t, exec (.canFrameTransmitted ch d) s = .next t ∧ (t.can ch).onBus = none ∧ (t.can ch).tec = x.tec - 1 ∧
        t.obj ch i = { o with pend := false, cancel := false, cell := none, loss := 0 } ∧ t.bit (oAddr ch i 4) 8 = true ∧
        inc t (oAddr ch i 5) 0 ∧ t.bit (chAddr ch 8) 4 = true ∧ t.reg (chAddr ch 0x0A) = s.reg (chAddr ch 0x0A) + 1#32 ∧
        (f.fdf = true → f.brs = true → s.bit (chAddr ch 0) 6 = true → t.fld (chAddr ch 4) 16 7 = min 127 d.toNat ∧ (127 < d.toNat → t.bit (chAddr ch 8) 11 = true))) ∧
      (canMode s ch = 3 → ∃ t, exec (.canFrameTransmitted ch d) s = .next t ∧ t.reg (chAddr ch 0x0B) = s.reg (chAddr ch 0x0B) + 1#32 ∧ (t.can ch).ack = true) ∧
      (oOneShot s ch i = false → ∃ t, exec (.canArbitrationLost ch rm) s = .next t ∧ (t.can ch).onBus = none ∧
        t.obj ch i = { o with loss := o.loss + 1 } ∧ inc t (chAddr ch 0x0E) 16 ∧ ∀ a, a ≠ chAddr ch 0x0E → t.reg a = s.reg a) ∧
      (hostReach s = true → o.pend = true → exec (.cancel ch i) s = .next (s.setObj ch i { o with cancel := true }))) ∧
    (hostReach s = false → same (.txreq ch i) ∧ same (.cancel ch i) ∧ same (.canClrcnt ch)) ∧ (plain → o.pend = false → same (.cancel ch i)) ∧
    (oOn s ch i = false ∨ oTx s ch i = false ∨ oCircKind s ch i = true → same (.txreq ch i)) ∧
    (hostReach s = true → oOn s ch i = true → oTx s ch i = true → oCircKind s ch i = false →
      exec (.txreq ch i) s = .next (s.setObj ch i { o with pend := true })) ∧
    (hostReach s = true → plain → o.pend = true → onBusObj s ch ≠ some i.val → ∃ t, exec (.cancel ch i) s = .next t ∧ t.bit (oAddr ch i 4) 10 = true ∧
      t.obj ch i = { o with pend := false, cancel := false, cell := none, loss := 0 } ∧ ∀ a, a ≠ oAddr ch i 4 → t.reg a = s.reg a) ∧
    (x.refIn = [] → same (.referenceMessageReceived ch)) ∧
    (x.refIn = (f, t0) :: rest → f.fdf = true ∨ f.rtr = true ∨ f.dlc ≠ 8 → exec (.referenceMessageReceived ch) s = .next (s.setCan ch { x with refIn := rest })) ∧
    (x.refIn = (f, t0) :: rest → f.fdf = false → f.rtr = false → f.dlc = 8 → ∃ t, exec (.referenceMessageReceived ch) s = .next t ∧
      (t.can ch).mark = t0 ∧ (t.can ch).markSet = true ∧ (t.can ch).refIn = rest ∧ t.fld (chAddr ch 7) 8 6 = (byteAt f.data 0).toNat % 64 ∧
      (x.role = .master → f.id % 8 < s.fld (chAddr ch 5) 4 3 → (t.can ch).role = .backup)) ∧
    (exec (.referenceMessageDue ch) s = .next (if x.role = .master ∨ (x.role = .backup ∧ x.refPlan = true) then s.setCan ch { x with refDue := true } else s)) ∧
    (exec (.backupTimeout ch) s = .next (if x.role = .backup then s.setCan ch { x with refDue := true } else s)) ∧
    (hostReach s = true → ∃ t, exec (.canClrcnt ch) s = .next t ∧ t = { s with regs := t.regs } ∧ (∀ k, k < 6 → t.reg (chAddr ch (0x0C + k)) = 0#32) ∧
      ∀ k : ObjId, t.reg (oAddr ch k 5) = 0#32)

/-- An integrating channel of a live, locked device outside DORMANT that has integrated is active, or passive from a count of 128
on, with its configured role. An error of a channel on the bus counts by its kind; as transmitter TEC rises by 8 and the frame
leaves the bus, still pending; as receiver REC rises by 8 or 1, at most to 255, both unchanged where ISO 11898-1 leaves them so;
at TEC 256 the channel is bus-off: recovering, or held where BOHOLD is 1, with its event and count. In RESTRICTED mode an error
keeps both counts and the channel integrates again. A protocol exception counts and the channel integrates. A recovered channel is
active with both counts 0 and its configured role; RECOVER lets a held channel recover, and does nothing else. Each answers a next
state; where its condition fails, that state is the one before. (The rules for error counts are ISO 11898-1's, which the
specification cites: log entry 47.) -/
def Obligations.CanStates : Prop :=
  ∀ (s : State) (ch : ChanId) (kind : Fin 5) (big keep : Bool) (part : Option (CanFrame × BitVec 80)) (d : Option (BitVec 16)) (i : ObjId) (f : CanFrame),
    let x := s.can ch
    let onBus : Prop := canListens s ch = true
    let same (c : Instr) : Prop := exec c s = .next s
    let n := if keep then x.tec else x.tec + 8
    let pe : Prop := onBus ∧ s.bit (chAddr ch 0) 5 = true ∧ canFd s ch = true
    let st (tec rec : Nat) : CanSt := if 128 ≤ tec ∨ 128 ≤ rec then .passive else .active
    let counted (t : State) : Prop := t.fld (chAddr ch (0x0C + kind.val / 2)) (16 * (kind.val % 2)) 16 =
      min (s.fld (chAddr ch (0x0C + kind.val / 2)) (16 * (kind.val % 2)) 16 + 1) 65535
    (x.st = .integrating → s.power.relock = false → s.boot.live = true → s.power.st ≠ .dormant → ∃ t, exec (.canIntegrated ch) s = .next t ∧
      (t.can ch).st = st x.tec x.rec_ ∧ (t.can ch).role = restRole s ch ∧ t.bit (chAddr ch 8) 0 = true ∧ (t.can ch).objs = x.objs) ∧
    (x.st ≠ .integrating ∨ s.power.relock = true ∨ s.boot.live = false ∨ s.power.st = .dormant → same (.canIntegrated ch)) ∧
    (canListens s ch = false → same (.canError ch kind big keep part d)) ∧
    (onBus → canMode s ch ≠ 2 → x.onBus = none → x.tec < 256 → ∃ t, exec (.canError ch kind big keep part d) s = .next t ∧ counted t ∧
      (t.can ch).rec_ = (if keep then x.rec_ else min 255 (x.rec_ + (if big then 8 else 1))) ∧ (t.can ch).tec = x.tec ∧ (t.can ch).st = st x.tec (t.can ch).rec_) ∧
    (onBus → canMode s ch ≠ 2 → x.onBus = some (.obj i, f) → (s.obj ch i).cancel = false → oOneShot s ch i = false →
      (s.obj ch i).cell = none → (s.obj ch i).bad = false → ∃ t, exec (.canError ch kind big keep none d) s = .next t ∧ counted t ∧ (t.can ch).onBus = none ∧
        (t.can ch).tec = n ∧ t.obj ch i = s.obj ch i ∧
        (n < 256 → (t.can ch).st = st n x.rec_) ∧
        (256 ≤ n → (t.can ch).st = (if s.bit (chAddr ch 0) 8 then .held else .recovering) ∧ t.bit (chAddr ch 8) 2 = true ∧
          t.fld (chAddr ch 0x10) 0 16 = min (s.fld (chAddr ch 0x10) 0 16 + 1) 65535)) ∧
    (onBus → canMode s ch = 2 → ∃ t, exec (.canError ch kind big keep part d) s = .next t ∧ counted t ∧ (t.can ch).st = .integrating ∧
      (t.can ch).tec = x.tec ∧ (t.can ch).rec_ = x.rec_) ∧
    (¬ pe → same (.canProtocolException ch)) ∧
    (pe → canMode s ch ≠ 0 → ∃ t, exec (.canProtocolException ch) s = .next t ∧
      (t.can ch).st = .integrating ∧ t.bit (chAddr ch 8) 9 = true ∧ t.fld (chAddr ch 0x11) 24 8 = min (s.fld (chAddr ch 0x11) 24 8 + 1) 255) ∧
    (x.st ≠ .recovering ∨ s.power.st = .dormant → same (.recovered ch)) ∧
    (x.st = .recovering → s.power.st ≠ .dormant → ∃ t, exec (.recovered ch) s = .next t ∧ (t.can ch).st = .active ∧ (t.can ch).tec = 0 ∧ (t.can ch).rec_ = 0 ∧
      (t.can ch).role = restRole s ch ∧ t.bit (chAddr ch 8) 3 = true) ∧
    (hostReach s = true → x.st = .held → ∃ t, exec (.recover ch) s = .next t ∧ (t.can ch).st = .recovering ∧ (t.can ch).tec = x.tec) ∧
    (x.st ≠ .held ∨ hostReach s = false → exec (.recover ch) s = .next s)

/-- A NOP that the framed port takes has H1 0; its reply, kept with its OP and TAG, has status OK and L equal to 1, and its one
word is GLB_EVTSUM; no event register changes (only HST_FRAMES and LASTTAG follow the frame). A frame with OP NOP whose H1 is not
0 is no NOP: it changes nothing as one, and as an illegal frame it is answered ILLEGAL. -/
def Obligations.HostNopReply : Prop :=
  ∀ (s : State) (f : HostFrame),
    (hostTakes s f 0 = true → f.h1 = 0#32 ∧ ∃ t, exec (.hostNop f) s = .next t ∧ replies t f 0 [evtSum s] ∧
      (∀ r again rej evt, t.host.next = some r → getF (replyHeader r again rej evt) 0 7 = 1) ∧
      ∀ a, a ≠ 0x400 → a ≠ 0x408 → t.reg a = s.reg a) ∧
    (f.h1 ≠ 0#32 → framedOpen s = true → wholeFrame f = true → fAgain f = false → fOp f = 0 → crcOk f = true → notReadyNow s = false →
      exec (.hostNop f) s = .next s ∧ ∃ t, exec (.hostIllegal f) s = .next t ∧ replies t f 2 [])

/-- A taken frame sends A, counts, sets LASTTAG, clears REJ and changes no other register. RD of one word replies with it and
clears the RC bits read; WR of one word writes it; RMW replies with the old value and writes (old AND NOT MASK) OR (VALUE AND
MASK); MBX read replies with the captured words; MBX write writes the item, or answers MBXRO. A failed CRC of a frame that is no
PUSH drives nothing, counts and sets REJ; NOTREADY is sent and counted while a command runs; AGAIN sends P; an illegal frame is
answered ILLEGAL and counted. The select's fall begins a frame; its release makes the reply A and A P, or counts a short frame;
completion ends the command. CLRCNT zeroes HST_ERR0 to 3. Each answers a next state; where the port takes no frame, none is
selected, no command runs or the register interface is out of reach, that state is the one before. -/
def Obligations.HostFrames : Prop :=
  ∀ (s : State) (f : HostFrame) (r : Reply) (e : HostEnd) (v : Option (Fin 30)) (w : Option CopyUpset),
    let u := s.takenBy f
    let same (i : Instr) : Prop := exec i s = .next s
    let a := getF f.h1 0 16
    let inc (t : State) (b lo : Nat) : Prop := t.fld b lo 16 = min (s.fld b lo 16 + 1) 65535
    let d (i : Nat) : Word := (f.data[i]?).getD 0#32
    let shape : Prop := framedOpen s = true ∧ wholeFrame f = true
    (u = { s with regs := u.regs, strap := u.strap, host := u.host } ∧ u.host.out = phaseOf s s.host.a false ∧ u.host.rej = false ∧
      u.fld 0x400 8 8 = fTag f ∧ u.reg 0x408 = s.reg 0x408 + 1#32 ∧ ∀ b, b ≠ 0x400 → b ≠ 0x408 → u.reg b = s.reg b) ∧
    (framedOpen s = false → s.host.cmd = none → ∀ i ∈ [Instr.hostNop f, .hostRd f, .hostWr f, .hostRmw f, .hostMbxRead f, .hostMbxWrite f, .hostPush f v,
      .hostPull f w, .hostSnapshot f, .hostAgain f, .hostIllegal f], same i) ∧
    (hostTakes s f 1 = true → ∃ t ws, exec (.hostRd f) s = .next t ∧ replies t f 0 ws ∧ ws.length = fN f) ∧
    (hostTakes s f 1 = true → fN f = 1 → ∃ t, exec (.hostRd f) s = .next t ∧ replies t f 0 [viewWord u a] ∧ t.regs = (normalRead u a).2.regs) ∧
    (hostTakes s f 2 = true → fN f = 1 → (writeWord u a (d 0) 0xFFFFFFFF#32).boot.hostUp = true → ∃ t, exec (.hostWr f) s = .next t ∧
      replies t f 0 [] ∧ t.regs = (writeWord u a (d 0) 0xFFFFFFFF#32).regs ∧ t.shadow = (writeWord u a (d 0) 0xFFFFFFFF#32).shadow) ∧
    (hostTakes s f 2 = true → fN f = 1 → (writeWord u a (d 0) 0xFFFFFFFF#32).boot.hostUp = false →
      exec (.hostWr f) s = .next (writeWord u a (d 0) 0xFFFFFFFF#32)) ∧
    (hostTakes s f 3 = true → accMask .w1s a = 0#32 → a < 0xC000 → (a < 0x20 ∨ 0x26 ≤ a) → ∃ t, exec (.hostRmw f) s = .next t ∧
      replies t f 0 [rmwOld u a] ∧
      t.shadow = (writeRW (normalRead u a).2 a ((rmwOld u a &&& ~~~d 0) ||| (d 1 &&& d 0)) (d 0)).shadow) ∧
    (hostTakes s f 4 = true → f.h1.getLsbD 16 = false → ∃ t, exec (.hostMbxRead f) s = .next t ∧
      replies t f 0 [t.reg 0x22, t.reg 0x23, t.reg 0x24, t.reg 0x25] ∧ t.bit 0x21 0 = true ∧ t.mbx.capturing = false ∧
      (mbxNames s a = true → t.fld 0x20 0 16 = a)) ∧
    (hostTakes s f 4 = true → f.h1.getLsbD 16 = true → mbxNames s a = true → ∃ t, exec (.hostMbxWrite f) s = .next t ∧
      replies t f (if mbxRo s a then 0x0A else 0) [] ∧ (mbxRo s a = true → t.bit 0x0B 4 = true) ∧
      (a = 0xB002 → t.tim.setSec = some ((d 0).toNat % 2 ^ 16 * 2 ^ 32 + (d 1).toNat))) ∧
    (shape → crcOk f = true → fAgain f = true → ∃ t, exec (.hostAgain f) s = .next t ∧ t.host.out = phaseOf s s.host.p true ∧
      t.host.next = s.host.next ∧ t.host.rej = s.host.rej ∧ t.regs = s.regs) ∧
    (shape → fAgain f = false → frameLegal f = false → crcOk f = true → notReadyNow s = false → ∃ t, exec (.hostIllegal f) s = .next t ∧
      replies t f 2 [] ∧ inc t 0x407 0 ∧ t.bit 0x402 6 = true) ∧
    (shape → fAgain f = false → fOp f = 1 → frameLegal f = true →
      (crcOk f = false → ∃ t, exec (.hostRd f) s = .next t ∧ t.host.out = [] ∧ t.host.next = s.host.next ∧ t.host.rej = true ∧ inc t 0x404 0 ∧
        t.bit 0x402 0 = true) ∧
      (crcOk f = true → s.host.running = true → ∃ t, exec (.hostRd f) s = .next t ∧ t.host.next = s.host.next ∧ t.host.rej = true ∧
        t.host.out = phaseOf s { op := s.host.a.op, tag := s.host.a.tag, status := 1 } false ∧ inc t 0x406 16)) ∧
    (s.host.selected = true ∨ (s.boot.hostUp = true ∧ hostMode s = 2) → same .hostSelectFall) ∧ (s.host.selected = false → same (.hostSelectRelease e)) ∧
    (s.boot.hostUp = true → hostMode s = 0 → s.host.selected = false → s.power.st ≠ .dormant → exec .hostSelectFall s =
      .next { s with host := { s.host with selected := true, judged := false, out := [], next := none, early := false, discard := false } }) ∧
    (s.boot.hostUp = true → hostMode s = 0 → s.host.selected = true → s.host.discard = false → s.host.early = false → s.commit.staged = [] →
      (s.host.judged = true → s.host.next = some r → exec (.hostSelectRelease (.rest false false [])) s =
        .next { s with host := { s.host with p := s.host.a, a := r, next := none, selected := false, judged := false } }) ∧
      (s.host.judged = false → ∃ t, exec (.hostSelectRelease (.broken [] false)) s = .next t ∧ t.host.selected = false ∧ t.host.rej = true ∧
        t.host.a = s.host.a ∧ inc t 0x404 16 ∧ t.bit 0x402 1 = true)) ∧
    (s.host.running = true → coreStopped s = false → s.host.staging = [] → s.host.next = some r → r.op ≠ 6 →
      exec .hostReplyComplete s = .next { s with host := { s.host with running := false } }) ∧
    (s.host.running = false ∨ coreStopped s = true → same .hostReplyComplete) ∧ (hostReach s = false → same .hostClrcnt) ∧
    (hostReach s = true → ∃ t, exec .hostClrcnt s = .next t ∧ t = { s with regs := t.regs } ∧
      ∀ b, t.reg b = if 0x404 ≤ b ∧ b < 0x408 then 0#32 else s.reg b)

/-- A taken PUSH to a circuit in RUN with a new PSEQ and a grant closes the granted cell: its bytes, CAUSE 6, owner the circuit;
HST_PSEQ takes PSEQ; status OK. Where a merge meets an uncorrectable error the cell is discarded, counted in INGRESS, HST_PSEQ
stays (its STATUS is no rule of the specification: log entry 69). To a circuit not in RUN it is NOCIRC, with the PSEQ held REPEAT,
and no cell changes. A taken PULL of a circuit bound to host that no CAN object serves, not DISABLED, without a token and without
an acknowledgement, whose oldest cell is sound, delivers that cell under the next token and takes it out of the queue; a failure
met by the copy sets SLVFAIL, zeroes the last word and frees the cell; of an empty queue the answer is EMPTY. A SNAPSHOT chunk
past 48, or with no snapshot begun and no START, is answered BADCHUNK; with a staging cell refused, status 9; else the reply is
the descriptor and 64 words (32 of chunk 48) of the snapshot. Each answers a next state. -/
def Obligations.HostCells : Prop :=
  ∀ (s : State) (f : HostFrame) (j i : Nat) (l : List Nat) (b : Bool) (cells : List Nat) (w : Fin 30) (v : CopyUpset),
    let u := s.takenBy f
    let c := getF f.h1 0 6
    let k := s.circ c
    let pseq := getF f.h1 16 16
    let n := getF f.h1 0 16
    let next := s.fld 0x40B 16 16
    (hostTakes s f 5 = true → k.st = .run → pseq ≠ hostPseq s c → allocDecide s c true = .granted → pickFree s = some j →
      ∃ t, exec (.hostPush f none) s = .next t ∧ replies t f 0 [] ∧ (t.cell j).st = .closed ∧ (t.cell j).owner = .circ c ∧ (t.cell j).cause = 6 ∧
        (t.cell j).payload = pushBytes f.h1 f.data ∧ (t.cell j).sleeve = crc32c (pushBytes f.h1 f.data) ∧ hostPseq t c = pseq) ∧
    (hostTakes s f 5 = true → k.st = .run → pseq ≠ hostPseq s c → allocDecide s c true = .granted → pickFree s = some j →
      8 * w.val + 1 < (pushBytes f.h1 f.data).length → ∃ t st, exec (.hostPush f (some w)) s = .next t ∧ replies t f st [] ∧ (t.cell j).owner = .free ∧
        (t.cell j).retired = true ∧ t.fld 0x2011 0 16 = min (s.fld 0x2011 0 16 + 1) 65535 ∧ hostPseq t c = hostPseq s c) ∧
    (hostTakes s f 5 = true → k.st ≠ .run → ∃ t, exec (.hostPush f none) s = .next t ∧ replies t f 4 [] ∧ t.cells = s.cells ∧ t.circs = s.circs) ∧
    (hostTakes s f 5 = true → k.st = .run → pseq = hostPseq s c →
      ∃ t, exec (.hostPush f (some w)) s = .next t ∧ replies t f 7 [] ∧ t.cells = s.cells ∧ t.circs = s.circs) ∧
    (hostTakes s f 6 = true → pseq = 0 → f.h1.getLsbD 7 = false → pulls s c = true → k.st ≠ .disabled → tokenOf s c = none →
      (k.queue = i :: l → i ∉ l → sleeveBad (s.cell i) = false → next ≠ 0 → ∃ t, exec (.hostPull f none) s = .next t ∧
        replies t f 0 (pullWords s c next i) ∧ (t.circ c).queue = l ∧ t.cell i = { s.cell i with st := .taken, holder := .pull } ∧
        t.host.tokens = s.host.tokens ++ [(c, next, i)] ∧ t.fld 0x40B 16 16 = (if next = 65535 then 1 else next + 1)) ∧
      (k.queue = i :: l → i ∉ l → sleeveBad (s.cell i) = false → next ≠ 0 → (s.cell i).origin / 2 ^ 22 ≠ 1 → upsetMet s i v = true →
        ∃ t r, exec (.hostPull f (some v)) s = .next t ∧ t.host.next = some r ∧ r.slvfail = true ∧ r.data = setLast (pullWords s c next i) 0#32 ∧
          (t.cell i).owner = .free) ∧
      (k.queue = [] → ∃ t, exec (.hostPull f none) s = .next t ∧ replies t f 3 [] ∧ t.cells = s.cells ∧ t.circs = s.circs)) ∧
    (hostTakes s f 7 = true → f.h1.getLsbD 16 = b →
      (48 < n ∨ b = false ∧ s.host.snapOn = false → ∃ t, exec (.hostSnapshot f) s = .next t ∧ replies t f 8 []) ∧
      (n ≤ 48 → b = true ∨ s.host.snapOn = true → (stageCells (if n = 48 then 1 else 2) u).1 = none → ∃ t, exec (.hostSnapshot f) s = .next t ∧ replies t f 9 []) ∧
      (n ≤ 48 → b = true ∨ s.host.snapOn = true → (stageCells (if n = 48 then 1 else 2) u).1 = some cells →
        ∃ t ws, exec (.hostSnapshot f) s = .next t ∧ replies t f 0 ws ∧ ws.length = (if n = 48 then 33 else 65) ∧ t.host.snapOn = true ∧
          t.host.staging = cells ∧ snapNo t = (if b then (snapNo s + 1) % 65536 else snapNo s) ∧
          ws.head? = some (ofFields [(16, snapNo t), (8, n), (0, ws.length - 1)])))

/-- A chain command that waits, checks and finds CORE running counts as an accepted frame; its status is the next A and the old A
is P: NOP replies with GLB_EVTSUM, RD with the word, RC bits read clearing, WR writes DATA, RMW_SET and RMW_CLR reply with the old
value and set or clear DATA's bits in an RB or RW word, SNAP replies with the word of the snapshot or BADCHUNK, an illegal one is
answered ILLEGAL, counted. AGAIN executes nothing: the next status repeats the one sent before. A command that fails its check is
not executed, counts and sets REJ. Each answers a next state; with no command waiting, or CORE stopped, that state is the one
before. -/
def Obligations.HostChain : Prop :=
  ∀ (s : State) (k : ChainCmd) (f : HostFrame) (cells : List Nat),
    let u := s.chainTaken k
    let a := ccAddr k.bits
    let w := ccData k.bits
    let start := w.getLsbD 0
    let plain : Prop := accMask .w1s a = 0#32 ∧ a < 0xC000 ∧ (a < 0x20 ∨ 0x26 ≤ a) ∧ s.boot.hostUp = true
    let inc (t : State) (b lo : Nat) : Prop := t.fld b lo 16 = min (s.fld b lo 16 + 1) 65535
    (s.host.cmd = none ∨ coreStopped s = true → ∀ i ∈ [Instr.chainNop, .chainRd, .chainWr, .chainRmwSet, .chainRmwClr, .chainSnap, .chainAgain], exec i s = .next s) ∧
    (chainTakes s k (isOp 0) → s.boot.hostUp = true → ∃ t, exec .chainNop s = .next t ∧ answers s t k 0 [evtSum s] ∧ t.host.cmd = none ∧
      t.reg 0x408 = s.reg 0x408 + 1#32 ∧ ∀ b, b ≠ 0x400 → b ≠ 0x408 → t.reg b = s.reg b) ∧
    (chainTakes s k (isOp 1) → s.boot.hostUp = true → ∃ t, exec .chainRd s = .next t ∧ answers s t k 0 [viewWord u a] ∧
      t.regs = (normalRead u a).2.regs) ∧
    (chainTakes s k (isOp 2) → plain → ∃ t, exec .chainWr s = .next t ∧ answers s t k 0 [] ∧ t.regs = (writeRW u a w 0xFFFFFFFF#32).regs ∧
      t.shadow = (writeRW u a w 0xFFFFFFFF#32).shadow) ∧
    (chainTakes s k (isOp 3) → plain → ∃ t, exec .chainRmwSet s = .next t ∧ answers s t k 0 [rmwOld u a] ∧
      t.shadow = (writeRW (normalRead u a).2 a (rmwOld u a ||| w) w).shadow) ∧
    (chainTakes s k (isOp 4) → plain → ∃ t, exec .chainRmwClr s = .next t ∧ answers s t k 0 [rmwOld u a] ∧
      t.shadow = (writeRW (normalRead u a).2 a (rmwOld u a &&& ~~~w) w).shadow) ∧
    (chainTakes s k (isOp 5) → chainIllegal k.bits = false → s.boot.hostUp = true →
      (3104 ≤ a ∨ start = false ∧ s.host.snapOn = false → ∃ t, exec .chainSnap s = .next t ∧ answers s t k 8 []) ∧
      (a < 3104 → start = true ∨ s.host.snapOn = true → (stageCells 1 u).1 = some cells → ∃ t v, exec .chainSnap s = .next t ∧
        answers s t k 0 [v] ∧ t.host.snapOn = true ∧ snapNo t = (if start then (snapNo s + 1) % 65536 else snapNo s))) ∧
    (chainTakes s k chainIllegal → s.boot.hostUp = true → framedOpen s = false → ∃ t, exec (.hostIllegal f) s = .next t ∧ answers s t k 2 [] ∧
      inc t 0x407 0 ∧ t.bit 0x402 6 = true) ∧
    (chainTakes s k (isOp 6) → exec .chainAgain s = .next { s with host := { s.host with cmd := none, again := some k.before } }) ∧
    (s.host.cmd = some k → ccOp k.bits = 2 → coreStopped s = false → ccChk k.bits ≠ chainCrc k.bits → ∃ t, exec .chainWr s = .next t ∧
      t.host.cmd = none ∧ t.host.rej = true ∧ t.shadow = s.shadow ∧ inc t 0x407 16 ∧ t.bit 0x402 7 = true)

/-- A watchdog warning that names late contexts sets WDWARN, counts and journals them. VDDIO falling below VWARN sets VLOW, raises
fault 2, wakes from DORMANT and journals SUP_VOLT; its return is noted, and fault 2 clears while the supply is up and no brownout
reset is recent. A voltage measurement stores both supplies; with the battery present, VBAT below VBATLOW sets VBATLOW and
journals once per crossing, re-armed 100 mV above, and raises no fault. A temperature at or above TEMPHIGH sets TEMPHIGH, raises
fault 3, wakes from DORMANT and journals; 5 degrees or more below it clears fault 3. Journaling is stated where the next record
finds a staging cell. Each answers a next state; where its condition fails (the watchdog does not count, no context is late, VLOW
stands, a brownout is recent, straps are measured), that state is the one before. -/
def Obligations.SupplyAndTemperature : Prop :=
  ∀ (s : State) (late : BitVec 8) (a b : BitVec 12) (c : BitVec 8),
    let same (i : Instr) : Prop := exec i s = .next s
    let recent : Bool := match s.hold.brownTimes.getLast? with | some u => withinSeconds 600 u s.now | none => false
    let volt (t : State) : List Byte := bytesBE 4 (t.reg 0x305).toNat
    let lim : Int := s.fld 0x307 8 8
    let lo := s.fld 0x307 16 12
    let wakes (t : State) : Prop := (s.power.st = .dormant → t.power.waking = true ∧ t.bit 0x206 19 = true) ∧
      (s.power.st ≠ .dormant → t.power.waking = s.power.waking ∧ t.reg 0x206 = s.reg 0x206)
    (wdCounts s = true → late ≠ 0#8 → ∃ t, exec (.watchdogWarning late) s = .next t ∧ t.bit 0x302 0 = true ∧
      t.fld 0x322 0 16 = min (s.fld 0x322 0 16 + 1) 65535 ∧ t.hold = s.hold ∧ t.power = s.power ∧ (canJournal s → staged s t 0x22 [late])) ∧
    (wdCounts s = false ∨ late = 0#8 → same (.watchdogWarning late)) ∧ (s.power.vlow = true → same .supplyWarning ∧ same .supplyFaultClear) ∧
    (s.strap.measuring = true ∨ s.boot.strapped = false → same (.voltageMeasure a b)) ∧
    (s.power.vlow = false → ∃ t, exec .supplyWarning s = .next t ∧ t.power.vlow = true ∧ t.bit 0x302 1 = true ∧ t.bit 0x300 1 = true ∧
      wakes t ∧ (canJournal s → staged s t 0x23 (volt s))) ∧
    exec .supplyWarningRise s = .next { s with power := { s.power with vlow := false } } ∧
    (s.power.vlow = false → (recent = true → same .supplyFaultClear) ∧
      (recent = false → ∃ t, exec .supplyFaultClear s = .next t ∧ t.bit 0x300 1 = false ∧
        t = { s with regs := t.regs } ∧ ∀ r, r ≠ 0x300 → t.reg r = s.reg r)) ∧
    (s.strap.measuring = false → s.boot.strapped = true → ∃ t, exec (.voltageMeasure a b) s = .next t ∧
      t.fld 0x305 0 12 = a.toNat ∧ t.fld 0x305 16 12 = b.toNat ∧ t.reg 0x300 = s.reg 0x300 ∧ t.reg 0x301 = s.reg 0x301 ∧
      (s.power.batOk = false → t.sup = s.sup ∧ t.reg 0x302 = s.reg 0x302) ∧
      (s.power.batOk = true → b.toNat < lo → t.sup.vbatArmed = false ∧
        (s.sup.vbatArmed = true → t.bit 0x302 2 = true ∧ (canJournal s → staged s t 0x25 (volt t))) ∧
        (s.sup.vbatArmed = false → t.reg 0x302 = s.reg 0x302 ∧ t.jnl = s.jnl)) ∧
      (s.power.batOk = true → lo + 100 ≤ b.toNat → t.sup.vbatArmed = true ∧ t.reg 0x302 = s.reg 0x302 ∧ t.jnl = s.jnl)) ∧
    (∃ t, exec (.temperatureMeasure c) s = .next t ∧ t.fld 0x306 0 8 = c.toNat ∧
      (lim ≤ c.toInt → t.bit 0x302 3 = true ∧ t.bit 0x300 2 = true ∧ wakes t ∧
        (canJournal s → staged s t 0x26 (bytesBE 4 (t.reg 0x306).toNat))) ∧
      (c.toInt ≤ lim - 5 → t.bit 0x300 2 = false) ∧
      (c.toInt < lim → lim - 5 < c.toInt → t.reg 0x300 = s.reg 0x300))

/-- In DORMANT, the supply falling below VWARN (VLOW) and a temperature reading at or above TEMPHIGH (TEMPHIGH) each begin a wake.
The events of every other supervisor alarm, SUP_EVT's watchdog warning, battery low, PFI, storm, unglove, audit done and fault,
leave the wake state as it was. Each of the commands named answers a next state. -/
def Obligations.SupervisorAlarmsThatWake : Prop :=
  ∀ (s : State) (n : PortId) (late c : BitVec 8) (a b : BitVec 12) (loop : List (Byte × Fin 4)) (straps : List (Conversions × Conversions))
    (mem : List (Fin 151552 × EccRead)) (ports : BitVec 16) (us : BitVec 32),
    let same (i : Instr) : Prop := ∃ t, exec i s = .next t ∧ t.power.st = .dormant ∧ t.power.waking = s.power.waking ∧ t.reg 0x206 = s.reg 0x206
    s.power.st = .dormant →
    (s.power.vlow = false → ∃ t, exec .supplyWarning s = .next t ∧ t.power.waking = true ∧ t.bit 0x206 19 = true) ∧
    ((s.fld 0x307 8 8 : Int) ≤ c.toInt → ∃ t, exec (.temperatureMeasure c) s = .next t ∧ t.power.waking = true ∧ t.bit 0x206 19 = true) ∧
    (c.toInt < (s.fld 0x307 8 8 : Int) → same (.temperatureMeasure c)) ∧
    same (.watchdogWarning late) ∧ same .supplyWarningRise ∧ same .supplyFaultClear ∧ same (.voltageMeasure a b) ∧ same .pfiFall ∧
    same (.pfiRise us) ∧ same .pfiRecover ∧ same (.stormDrain n) ∧ same (.breakStorm n) ∧ same (.gloveEnd n loop) ∧ same (.gloveClean n) ∧
    same (.supRelease ports) ∧ same (.audit straps mem) ∧ same .ack ∧ same .lamptest ∧ same .lamptestEnd ∧ same .supClrcnt ∧
    same .systemFaultClear ∧ same .faultNCycleEnd

/-- A drain takes 1 from a bucket that is not empty. On a live port not gloved, a break held past BRKMAX storms: the bucket
empties, STORMS and SUP_CNT1.STORMS count, STORM is set, the time is kept; where EN is 1 the port is gloved for 2^level seconds,
the level rises by 1 up to 8 and fault 9 is active; where it is 0 nothing is gloved. At the period's end a port without PORTFAIL
leaves gloving with UNGLOVE, and fault 9 clears with the last one; with PORTFAIL the loopback is repeated: a pass clears the bit
and lets it go, a failure journals it and gloves it for 256 s more. SUP_RELEASE does the same for the ports it names. A clean run
returns the level to 0. Each answers a next state; where its condition fails (no such break, no gloved port, no clean run, the
register interface out of reach of SUP_RELEASE), that state is the one before. -/
def Obligations.StormsAndGloving : Prop :=
  ∀ (s : State) (n : PortId) (loop : List (Byte × Fin 4)) (ports : BitVec 16),
    let same (i : Instr) : Prop := exec i s = .next s
    let p := s.port n
    let q := 0x310 + n.val
    let lv := s.fld q 8 4
    let fails := s.bit 0x320 (16 + n.val)
    let free (t : State) : Prop := (t.port n).gloved = false ∧ t.bit 0x30A n = false ∧ t.bit 0x302 6 = true ∧ t.fld q 8 4 = lv
    (∃ t, exec (.stormDrain n) s = .next t ∧ t.fld q 0 8 = s.fld q 0 8 - 1 ∧ t.fld q 8 24 = s.fld q 8 24 ∧
      (∀ r, r ≠ q → t.reg r = s.reg r) ∧ t = { s with regs := t.regs, ports := t.ports }) ∧
    (pLive s n = false ∨ p.lineBrk = false ∨ p.gloved = true ∨ s.fld 0x308 16 8 = 0 → same (.breakStorm n)) ∧
    (hostReach s = false → same (.supRelease ports)) ∧ (p.clean = false ∨ p.gloved = true → same (.gloveClean n)) ∧
    (pLive s n = true → p.lineBrk = true → p.gloved = false → s.fld 0x308 16 8 ≠ 0 → ∃ t, exec (.breakStorm n) s = .next t ∧
      t.fld q 0 8 = 0 ∧ t.fld q 25 7 = min (s.fld q 25 7 + 1) 127 ∧ t.fld 0x323 0 16 = min (s.fld 0x323 0 16 + 1) 65535 ∧
      t.bit 0x302 5 = true ∧ t.sup.stormTime = s.now ∧
      (s.bit 0x309 n = true → (t.port n).gloved = true ∧ (t.port n).gloveEnd = s.now.toNat + 2 ^ lv * 2 ^ 32 ∧ t.fld q 8 4 = min 8 (lv + 1) ∧
        t.bit 0x30A n = true ∧ t.bit 0x300 8 = true) ∧
      (s.bit 0x309 n = false → (t.port n).gloved = false ∧ t.fld q 8 4 = lv ∧ t.reg 0x30A = s.reg 0x30A ∧ t.reg 0x300 = s.reg 0x300)) ∧
    (p.gloved = true → fails = false → ∃ t, exec (.gloveEnd n loop) s = .next t ∧ free t ∧
      ((∀ m : PortId, m ≠ n → (s.port m).gloved = false) → t.bit 0x300 8 = false)) ∧
    (p.gloved = true → fails = true →
      (loopGood loop = true → ∃ t, exec (.gloveEnd n loop) s = .next t ∧ free t ∧ t.bit 0x320 (16 + n.val) = false) ∧
      (loopGood loop = false → ∃ t, exec (.gloveEnd n loop) s = .next t ∧ (t.port n).gloved = true ∧
        (t.port n).gloveEnd = s.now.toNat + 256 * 2 ^ 32 ∧ t.reg 0x320 = s.reg 0x320 ∧ t.bit 0x300 8 = true)) ∧
    (p.gloved = false → exec (.gloveEnd n loop) s = .next s) ∧
    (hostReach s = true → p.gloved = true → ports.getLsbD n = true → ∃ t, exec (.supRelease ports) s = .next t ∧
      (fails = false → free t) ∧ (fails = true → (t.port n).gloved = true ∧ (t.port n).looping = true)) ∧
    ((∀ m : PortId, ports.getLsbD m = true → (s.port m).gloved = false) → exec (.supRelease ports) s = .next s) ∧
    (p.clean = true → p.gloved = false → ∃ t, exec (.gloveClean n) s = .next t ∧ t.fld q 8 4 = 0 ∧ (t.port n).clean = false ∧
      t = { s with regs := t.regs, ports := t.ports } ∧ (∀ r, r ≠ q → t.reg r = s.reg r) ∧ ∀ m, m ≠ n.val → t.port m = s.port m)

/-- After an audit, at start-up or at run time, fault 4 is active exactly where its verdict, SUP_AUDIT0.RESULT, is FAIL; the
verdict is FAIL exactly where the audit shows a disagreeing strap, at start-up a failed port, a stuck bit or an uncorrectable
error. A strobe of SUP_CTL.ACK leaves fault 4 inactive. An audit runs where ports are live and one was begun or the host may begin
it, the self-audit in the start-up after a brownout reset, ACK where the register interface is reached; each answers a next state,
otherwise the state before. -/
def Obligations.AuditFault : Prop :=
  ∀ (s : State) (straps : List (Conversions × Conversions)) (mem : List (Fin 151552 × EccRead)) (loops : List (List (Byte × Fin 4))),
    let verdict (t : State) (kind : Nat) : Prop := t.fld 0x320 2 1 = kind ∧ t.bit 0x302 7 = true ∧ t.sup.auditTime = t.now ∧
      (t.bit 0x300 3 = true ↔ t.fld 0x320 0 2 = 3) ∧
      (t.fld 0x320 0 2 = 3 ↔ t.fld 0x320 8 6 ≠ 0 ∨ (kind = 0 ∧ t.fld 0x320 16 16 ≠ 0) ∨ t.fld 0x321 8 8 ≠ 0 ∨ t.fld 0x321 16 8 ≠ 0)
    (s.boot.live = true → s.sup.audit = 2 ∨ hostReach s = true → ∃ t, exec (.audit straps mem) s = .next t ∧ verdict t 1 ∧ t.fld 0x320 16 16 = s.fld 0x320 16 16) ∧
    (s.boot.scanned = true → s.boot.brownout = true → s.boot.audited = false → s.boot.mantled = false →
      ∃ t, exec (.selfAudit straps mem loops) s = .next t ∧ verdict t 0 ∧ t.boot.audited = true) ∧
    (s.boot.live = false ∨ (s.sup.audit ≠ 2 ∧ hostReach s = false) → exec (.audit straps mem) s = .next s) ∧
    (s.boot.scanned = false ∨ s.boot.brownout = false ∨ s.boot.audited = true ∨ s.boot.mantled = true → exec (.selfAudit straps mem loops) s = .next s) ∧
    (hostReach s = false → exec .ack s = .next s) ∧
    (hostReach s = true → ∃ t, exec .ack s = .next t ∧ t.bit 0x300 3 = false) ∧
    (hostReach s = true → ∃ t, exec (.registerWrite 0x030B#16 1#32) s = .next t ∧ t.bit 0x300 3 = false)

/-- At the end of a FAULT_N cycle, and at the end of a lamp test, SUP_STAT.SHOWN becomes the lowest-numbered active code, 0 where
none is active, and nothing else changes; in a lamp test no cycle ends. ACK leaves codes 4 and 6 inactive and every other code as
it was. Code 6 clears where no system context fault is younger than 600 s, and stays where one is. SUP_CTL.CLRCNT zeroes WDWARN,
SUP_CNT1 and every port's STORMS, and leaves every other register and the rest of those words as they were. Each answers a next
state; the strobes with the register interface out of reach, and the end of a lamp test that does not run, change nothing. -/
def Obligations.FaultPin : Prop :=
  ∀ (s : State) (k : Nat),
    let same (i : Instr) : Prop := exec i s = .next s
    let recent : Bool := match s.sup.sysFaults.getLast? with | some u => withinSeconds 600 u s.now | none => false
    let shows (t : State) : Prop := t.fld 0x300 0 12 = s.fld 0x300 0 12 ∧ (∀ r, r ≠ 0x300 → t.reg r = s.reg r) ∧
      (s.fld 0x300 0 9 = 0 → t.fld 0x300 12 4 = 0) ∧
      (k < 9 → s.bit 0x300 k = true → (∀ j, j < k → s.bit 0x300 j = false) → t.fld 0x300 12 4 = k + 1)
    (s.sup.lamp = false → ∃ t, exec .faultNCycleEnd s = .next t ∧ shows t ∧ t = { s with regs := t.regs }) ∧
    (s.sup.lamp = true → exec .faultNCycleEnd s = .next s) ∧
    (hostReach s = false → same .lamptest ∧ same .ack ∧ same .supClrcnt) ∧ (s.sup.lamp = false → same .lamptestEnd) ∧
    (hostReach s = true → exec .lamptest s = .next { s with sup := { s.sup with lamp := true } }) ∧
    (s.sup.lamp = true → ∃ t, exec .lamptestEnd s = .next t ∧ shows t ∧ t = { s with regs := t.regs, sup := { s.sup with lamp := false } }) ∧
    (hostReach s = true → ∃ t, exec .ack s = .next t ∧ t = { s with regs := t.regs } ∧ (∀ r, r ≠ 0x300 → t.reg r = s.reg r) ∧
      ∀ j, j < 9 → t.bit 0x300 j = (s.bit 0x300 j && j != 3 && j != 5)) ∧
    ((recent = true → same .systemFaultClear) ∧
      (recent = false → ∃ t, exec .systemFaultClear s = .next t ∧ t.bit 0x300 5 = false ∧
        t = { s with regs := t.regs } ∧ ∀ r, r ≠ 0x300 → t.reg r = s.reg r)) ∧
    (hostReach s = true → ∃ t, exec .supClrcnt s = .next t ∧ t = { s with regs := t.regs } ∧ t.fld 0x322 0 16 = 0 ∧ t.fld 0x322 16 16 = s.fld 0x322 16 16 ∧
      t.reg 0x323 = 0#32 ∧ (∀ n : PortId, t.fld (0x310 + n.val) 25 7 = 0 ∧ t.fld (0x310 + n.val) 0 25 = s.fld (0x310 + n.val) 0 25) ∧
      ∀ r, r ≠ 0x322 → r ≠ 0x323 → r < 0x310 ∨ 0x320 ≤ r → t.reg r = s.reg r)

/-- With TPI enabled outside DORMANT, a pulse too narrow or not one second after the last accepted one counts as rejected and
changes nothing else; the first wide one and one so spaced are accepted: each counts, sets TPI's event, keeps its time, and where
TPI is selected its offset to the nearest second is in TIM_OFFSET, saturated. A lost reference is not qualified, keeps no
measurement and is not selected; LOST is set where it was. HOLDEXP ends HOLDOVER as FREE, with its event. The calibration is taken
while LOCKED, clamped to 300 ppm. TPO falls. A trunk that is up, under the stated conditions, sends one TIME packet with its next
sequence number. CLRCNT zeroes TIM_TPI, TIM_STEPS and TIM_COARSE. Each answers a next state; where its condition fails (TPI off or
the memories not up, no HOLDOVER, not LOCKED, no trunk, time off or unset or from CAN, the register interface out of reach) that
state is the one before. -/
def Obligations.TimeReferences : Prop :=
  ∀ (s : State) (edge : BitVec 80) (r : Fin 131) (hf : BitVec 32) (k : TrunkId) (i : Nat),
    let key := refKey r.val
    let inc (t : State) (b lo : Nat) : Prop := t.fld b lo 16 = min (s.fld b lo 16 + 1) 65535
    let same (c : Instr) : Prop := exec c s = .next s
    let gap := diffNs edge ((s.tref 1).last.getD s.tim.tpi)
    let second : Prop := s.tim.tpiFirst = true ∨ (999500000 ≤ gap ∧ gap ≤ 1000500000)
    let sends : Prop := (s.trunk k).up = true ∧ ownAddr s ≠ 0 ∧ s.power.st ≠ .dormant ∧ s.bit 0x4801 2 = true ∧ s.hold.quality ≠ .unset ∧ s.tim.sel ≠ 2 ∧ s.tim.sel ≠ 3
    let seqNo := (s.tim.txSeq[k.val]?).getD 0
    (s.bit 0x4801 0 = false ∨ s.boot.memUp = false ∨ s.power.st = .dormant → ∀ w, same (.tpiPulse w edge)) ∧
    (s.bit 0x4801 0 = true → s.boot.memUp = true → s.power.st ≠ .dormant →
      (∀ w : Bool, w = false ∨ ¬ second → ∃ t, exec (.tpiPulse w edge) s = .next t ∧ t = { s with regs := t.regs } ∧ inc t 0x480F 16 ∧ t.fld 0x480F 0 16 = s.fld 0x480F 0 16 ∧
        ∀ a, a ≠ 0x480F → t.reg a = s.reg a) ∧
      (second → ∃ t, exec (.tpiPulse true edge) s = .next t ∧ inc t 0x480F 0 ∧ t.fld 0x480F 16 16 = s.fld 0x480F 16 16 ∧
        t.bit 0x480D 6 = true ∧ t.tim.tpi = edge ∧ (t.tref 1).last = some edge ∧ t.tim.tpiFirst = false ∧ (t.tref 1).meas.head? = some (tpiOffset edge) ∧
        (t.tim.sel = 1 → t.reg 0x480B = satNs (tpiOffset edge)))) ∧
    (∃ t, exec (.referenceLost r) s = .next t ∧ (t.tref key).qual = false ∧ (t.tref key).meas = [] ∧ t.tim.sel ≠ key ∧
      (s.tim.sel = key → t.bit 0x480D 2 = true) ∧ ∀ j, j ≠ key → t.tref j = s.tref j) ∧
    (s.hold.quality = .holdover → ∃ t, exec .holdexp s = .next t ∧ t.hold.quality = .free ∧ t.bit 0x480D 7 = true ∧ t.bit 0x480D 1 = true ∧
      t.hold.count = s.hold.count) ∧
    (s.hold.quality ≠ .holdover → same .holdexp) ∧ (s.hold.quality ≠ .locked → same (.holdCalibration hf)) ∧ (hostReach s = false → same .timClrcnt) ∧
    (s.hold.quality = .locked → ∃ t, exec (.holdCalibration hf) s = .next t ∧ t = { s with hold := { s.hold with hfreq := t.hold.hfreq } } ∧
      (-19660800 ≤ hf.toInt → hf.toInt ≤ 19660800 → t.hold.hfreq = hf) ∧ (19660800 < hf.toInt → t.hold.hfreq.toInt = 19660800) ∧
      (hf.toInt < -19660800 → t.hold.hfreq.toInt = -19660800)) ∧
    exec .tpoFall s = .next { s with tim := { s.tim with tpo := false } } ∧
    (hostReach s = true → ∃ t, exec .timClrcnt s = .next t ∧ t = { s with regs := t.regs } ∧
      ∀ a, t.reg a = if 0x480F ≤ a ∧ a < 0x4812 then 0#32 else s.reg a) ∧
    (¬ sends → same (.timePacketSend k)) ∧
    (sends → sysRoom s .ctl = true → pickFree s = some i → s.tim.txSeq.length = 6 → s.tim.txMark.length = 6 →
      ∃ t o, exec (.timePacketSend k) s = .next t ∧ t.outQ = s.outQ ++ [o] ∧ o.trunk = some k.val ∧ o.pkt.typ = 7 ∧ o.pkt.src = ownAddr s ∧
        o.pkt.body.length = 20 ∧ (o.pkt.body.drop 2).take 2 = bytesBE 2 seqNo ∧
        (o.pkt.body.drop 4).take 10 = bytesBE 6 (secondsOf (((s.tim.txMark[k.val]?).getD none).getD 0#80)) ++
          bytesBE 4 (((s.tim.txMark[k.val]?).getD none).getD 0#80).toNat ∧
        t.tim.txSeq[k.val]? = some ((seqNo + 1) % 65536) ∧ t.tim.txMark[k.val]? = some none)

/-- With no TIM commit staged: a second boundary brings the count to the next whole second, or to the seconds waiting in item
0x002, which leave UNSET for FREE and set TIM_EVT.SET; every context that is not IDLE gets SECOND; TPO rises where it is enabled,
the quality reaches MINQ, the Mantle layer has been applied and the device is not in DORMANT. A scheduled step loads the first
whole second after the corrected count, one reached within the rounding of e (log entry 48) counting as passed, counts, sets STEP,
and makes P 0. On an empty queue the block's step, by the model's own choice (log entry 9), is one tick: the count and its
remainder together rise by the exact increment, and where no second ends nothing else changes but the contexts' timers.
SECOND_BOUNDARY and TIME_STEP answer a next state; with no step scheduled TIME_STEP changes nothing. -/
def Obligations.SecondsAndSteps : Prop :=
  ∀ (s : State) (n : Nat) (e : Int) (x : CircId),
    let new : Time := BitVec.ofNat 80 (n % 2 ^ 48 * 2 ^ 32)
    let due : Int := (s.now.toNat : Int) + nsToUnits e
    let ticked := s.hold.count.toNat * countDen + s.hold.rem + tickNum s
    (stagedOf s .tim = none → s.tim.setSec = none → ∃ t, exec .secondBoundary s = .next t ∧ t.now = nextSecond s.now ∧ t.hold.rem = 0 ∧
      ((s.ctx x).st ≠ .idle → (t.ctx x).ep.getLsbD 10 = true) ∧ t.hold.quality = s.hold.quality ∧
      t.tim.tpo = (s.bit 0x4802 0 && decide (s.fld 0x4802 16 2 ≤ qCode s.hold.quality) && s.boot.mantled && s.power.st != .dormant) ∧
      t.hold.holdSec = (if s.hold.lost then min (2 ^ 32 - 1) (s.hold.holdSec + 1) else s.hold.holdSec)) ∧
    (stagedOf s .tim = none → s.tim.setSec = some n → ∃ t, exec .secondBoundary s = .next t ∧ t.now = new ∧ t.tim.setSec = none ∧
      t.bit 0x480D 5 = true ∧ t.hold.quality = (if s.hold.quality = .unset then .free else s.hold.quality) ∧
      (new ≠ nextSecond s.now → t.bit 0x480D 0 = true ∧ t.fld 0x4810 0 16 = min (s.fld 0x4810 0 16 + 1) 65535 ∧ t.tim.stepTime = new)) ∧
    (stagedOf s .tim = none → s.tim.plan = some e → 0 ≤ due → due + 2 ^ 32 + 6 < 2 ^ 80 → ∃ t, exec .timeStep s = .next t ∧
      secondsOf t.now * 2 ^ 32 = t.now.toNat ∧ due + 6 < t.now.toNat ∧ (t.now.toNat : Int) ≤ due + 6 + 2 ^ 32 ∧ t.tim.p = 0 ∧ t.tim.plan = none ∧
      t.tim.stepTime = t.now ∧ t.bit 0x480D 0 = true ∧ t.fld 0x4810 0 16 = min (s.fld 0x4810 0 16 + 1) 65535) ∧
    (s.tim.plan = none → exec .timeStep s = .next s) ∧
    (s.pending = [] → ticked < 2 ^ 80 * countDen → ticked / countDen / 2 ^ 32 = secondsOf s.now → ∃ t, step s = .next t ∧
      t.hold.count.toNat * countDen + t.hold.rem = ticked ∧ t.hold.rem < countDen ∧
      t = { s with hold := { s.hold with count := t.hold.count, rem := t.hold.rem }, ctxs := t.ctxs } ∧
      (s.hold.inTime = false → t.ctxs = s.ctxs))

/-- A commit strobe of no group leaves the state as it was, and so does a register write out of the register interface's reach. A
register write of GLB_COMMIT whose bits 7:0 are 0 changes no register's applied copy and no shadow, stages, queues, holds and
applies no instance, sets no DONE, marks no field as host-written, and changes nothing else. -/
def Obligations.CommitOfNothing : Prop :=
  ∀ (s : State) (w : Word),
    exec (.commitStrobe 0#8) s = .next s ∧
    (hostReach s = false → exec (.registerWrite 0x0003#16 w) s = .next s) ∧
    (hostReach s = true → getF w 0 8 = 0 → ∃ t, exec (.registerWrite 0x0003#16 w) s = .next t ∧ (∀ a, t.reg a = s.reg a ∧ t.shad a = s.shad a) ∧
      (∀ a, fget (fun _ => 0#32) t.commit.marks a = fget (fun _ => 0#32) s.commit.marks a) ∧
      t = { s with regs := t.regs, shadow := t.shadow, commit := { s.commit with marks := t.commit.marks } })

/-- State.reset meets the order of Table 4-6: no step of start-up has been taken, so each holds after the ones before it. -/
def Obligations.StartUpOrderAtReset : Prop :=
  State.startUpOrder State.reset

/-- In every state every command, and every step whatever stands at the front of the queue, answers a next state, never a fault or
a refusal; from a state that keeps the order of Table 4-6 that state keeps the order: straps are read only after the release of
reset and never in factory test, the host port and the memories come up only after the straps, the scan after the memories, the
image and the self-audit after the scan, the Mantle layer only after the image and, where the last reset was a brownout reset,
only after the self-audit's verdict, and ports go live only after the Mantle layer. -/
def Obligations.StartUpOrderKept : Prop :=
  ∀ s : State, (∀ i : Instr, ∃ t, exec i s = .next t) ∧ (∃ t, step s = .next t) ∧
    (s.startUpOrder → (∀ t, step s = .next t → t.startUpOrder) ∧ ∀ (i : Instr) (t : State), exec i s = .next t → t.startUpOrder)
end

