-- ==== Sys2Proof/Laws/Bits.lean ====
section
/-! SUPPORT. Sys2Proof/Laws/Bits.lean: bit fields of a word: reading a field after writing it, and after writing another one. -/
namespace Sys2Proof.Machine

/-- The bits of a mask. -/
theorem getLsbD_maskAt (lo wd i : Nat) : (maskAt lo wd).getLsbD i = (decide (i < 32) && decide (lo ≤ i) && decide (i < lo + wd)) := by
  unfold maskAt
  rw [BitVec.getLsbD_ofNat, Nat.testBit_mul_two_pow, Nat.testBit_two_pow_sub_one]
  by_cases h : i < 32 <;> by_cases h2 : lo ≤ i <;> simp [h, h2]
  omega

/-- The bits of a field's value. -/
theorem testBit_getF (w : Word) (lo wd i : Nat) : (getF w lo wd).testBit i = (decide (i < wd) && w.getLsbD (lo + i)) := by
  unfold getF
  rw [Nat.testBit_mod_two_pow, Nat.testBit_div_two_pow]
  simp [BitVec.getLsbD, Nat.add_comm]

/-- The bits of a word with a field replaced. -/
theorem getLsbD_setF (w : Word) (lo wd v i : Nat) :
    (setF w lo wd v).getLsbD i =
      if i < 32 ∧ lo ≤ i ∧ i < lo + wd then v.testBit (i - lo) else w.getLsbD i := by
  unfold setF
  rw [BitVec.getLsbD_or, BitVec.getLsbD_and, BitVec.getLsbD_not, getLsbD_maskAt, BitVec.getLsbD_ofNat, Nat.testBit_mul_two_pow,
    Nat.testBit_mod_two_pow]
  by_cases h : i < 32
  · by_cases h2 : lo ≤ i
    · by_cases h3 : i < lo + wd
      · simp [h, h2, h3, show i - lo < wd by omega]
      · simp [h, h2, h3, show ¬ (i - lo < wd) by omega]
    · simp [h, h2]
  · simp [h, BitVec.getLsbD_of_ge w i (by omega)]

/-- A field reads as what was written to it, cut to its width. -/
theorem getF_setF_same (w : Word) (lo wd v : Nat) (h : lo + wd ≤ 32) : getF (setF w lo wd v) lo wd = v % 2 ^ wd := by
  apply Nat.eq_of_testBit_eq
  intro i
  rw [testBit_getF, getLsbD_setF, Nat.testBit_mod_two_pow]
  by_cases hi : i < wd
  · simp [hi, show lo + i < 32 by omega]
  · simp [hi]

/-- Writing a field leaves a field that shares no bit with it alone. -/
theorem getF_setF_other (w : Word) (lo wd v lo' wd' : Nat) (h : lo + wd ≤ lo' ∨ lo' + wd' ≤ lo) :
    getF (setF w lo wd v) lo' wd' = getF w lo' wd' := by
  apply Nat.eq_of_testBit_eq
  intro i
  rw [testBit_getF, testBit_getF, getLsbD_setF]
  by_cases hi : i < wd'
  · simp only [hi, decide_true, Bool.true_and]
    rw [if_neg (by omega)]
  · simp [hi]

/-- A bit as a number. -/
@[simp] theorem b2n_true : b2n true = 1 := rfl
@[simp] theorem b2n_false : b2n false = 0 := rfl
/-- A bit is 1 exactly where the Bool is true. -/
@[simp] theorem b2n_eq_one (b : Bool) : b2n b = 1 ↔ b = true := by cases b <;> simp [b2n]
/-- A bit fits in one bit. -/
@[simp] theorem b2n_mod_two (b : Bool) : b2n b % 2 = b2n b := by cases b <;> rfl

/-- Writing the value that a field holds changes nothing. -/
theorem setF_getF (w : Word) (lo wd : Nat) : setF w lo wd (getF w lo wd) = w := by
  apply BitVec.eq_of_getLsbD_eq
  intro i hi
  rw [getLsbD_setF]
  split
  · next h => rw [testBit_getF]; simp [show i - lo < wd by omega, show lo + (i - lo) = i by omega]
  · rfl

end Sys2Proof.Machine
end

