-- ==== Sys2Proof/Laws/Maps.lean ====
section
/-! SUPPORT. Sys2Proof/Laws/Maps.lean: the sparse maps: what a write does to a read, and that a write keeps the canonical form. -/
namespace Sys2Proof.Machine

variable {α : Type}

/-- A key that has been erased reads as its default. -/
theorem fget_ferase_same (d : Nat → α) (m : FMap α) (k : Nat) : fget d (ferase m k) k = d k := by
  induction m with
  | nil => rfl
  | cons e t ih =>
    obtain ⟨a, v⟩ := e
    by_cases h : a = k
    · simp [ferase, h, ih]
    · simp [ferase, fget, h, ih]

/-- Erasing a key leaves the others alone. -/
theorem fget_ferase_other (d : Nat → α) (m : FMap α) {j k : Nat} (h : j ≠ k) : fget d (ferase m k) j = fget d m j := by
  induction m with
  | nil => rfl
  | cons e t ih =>
    obtain ⟨a, v⟩ := e
    by_cases hk : a = k
    · subst hk; simp [ferase, fget, ih, Ne.symm h]
    · simp [ferase, fget, hk, ih]

/-- An inserted key reads as what was inserted, where the map does not list it already. -/
theorem fget_fins_same (d : Nat → α) (m : FMap α) (k : Nat) (v : α) (h : ∀ e ∈ m, e.1 ≠ k) : fget d (fins m k v) k = v := by
  induction m with
  | nil => simp [fins, fget]
  | cons e t ih =>
    obtain ⟨a, w⟩ := e
    have ha : a ≠ k := h (a, w) (by simp)
    by_cases hk : k < a
    · simp [fins, hk, fget]
    · simp [fins, hk, fget, ha, ih (fun e he => h e (by simp [he]))]

/-- Inserting a key leaves the others alone. -/
theorem fget_fins_other (d : Nat → α) (m : FMap α) {j k : Nat} (v : α) (h : j ≠ k) : fget d (fins m k v) j = fget d m j := by
  induction m with
  | nil => simp [fins, fget, Ne.symm h]
  | cons e t ih =>
    obtain ⟨a, w⟩ := e
    by_cases hk : k < a
    · simp [fins, hk, fget, Ne.symm h]
    · simp [fins, hk, fget, ih]

/-- An erased key is not listed. -/
theorem mem_ferase_ne (m : FMap α) (k : Nat) : ∀ e ∈ ferase m k, e.1 ≠ k := by
  induction m with
  | nil => simp [ferase]
  | cons e t ih =>
    obtain ⟨a, v⟩ := e
    by_cases hk : a = k
    · simpa [ferase, hk] using ih
    · intro x hx
      simp [ferase, hk] at hx
      rcases hx with rfl | hx
      · exact hk
      · exact ih x hx

variable [DecidableEq α]

/-- A key reads as what was last written to it. -/
@[simp] theorem fget_fset_same (d : Nat → α) (m : FMap α) (k : Nat) (v : α) : fget d (fset d m k v) k = v := by
  unfold fset
  split
  · next h => rw [fget_ferase_same, h]
  · exact fget_fins_same d _ k v (mem_ferase_ne m k)

/-- A write leaves every other key alone. -/
theorem fget_fset_other (d : Nat → α) (m : FMap α) {j k : Nat} (v : α) (h : j ≠ k) : fget d (fset d m k v) j = fget d m j := by
  unfold fset
  split
  · exact fget_ferase_other d m h
  · rw [fget_fins_other d _ v h, fget_ferase_other d m h]

/-- A read after a write. -/
theorem fget_fset (d : Nat → α) (m : FMap α) (j k : Nat) (v : α) : fget d (fset d m k v) j = if j = k then v else fget d m j := by
  by_cases h : j = k
  · subst h; simp
  · simp [h, fget_fset_other d m v h]

/-- A canonical map from a bound on is one from any smaller bound. -/
theorem fwfFrom_mono (d : Nat → α) (m : FMap α) {lo hi : Nat} (h : lo ≤ hi) (w : fwfFrom d hi m = true) : fwfFrom d lo m = true := by
  cases m with
  | nil => rfl
  | cons e t =>
    obtain ⟨a, v⟩ := e
    simp only [fwfFrom, Bool.and_eq_true, decide_eq_true_eq] at w ⊢
    exact ⟨⟨by omega, w.1.2⟩, w.2⟩

/-- Erasing keeps the canonical form. -/
theorem fwfFrom_ferase (d : Nat → α) (m : FMap α) (k lo : Nat) (w : fwfFrom d lo m = true) : fwfFrom d lo (ferase m k) = true := by
  induction m generalizing lo with
  | nil => rfl
  | cons e t ih =>
    obtain ⟨a, v⟩ := e
    have w' := w
    simp only [fwfFrom, Bool.and_eq_true, decide_eq_true_eq] at w'
    by_cases hk : a = k
    · simpa [ferase, hk] using fwfFrom_mono d _ (by omega) (ih (a + 1) w'.2)
    · simp [ferase, hk, fwfFrom, w'.1.1, w'.1.2, ih (a + 1) w'.2]

/-- Inserting a key that is not listed, with a value that is not its default, keeps the canonical form. -/
theorem fwfFrom_fins (d : Nat → α) (m : FMap α) (k lo : Nat) (v : α) (hlo : lo ≤ k) (hv : v ≠ d k) (hm : ∀ e ∈ m, e.1 ≠ k)
    (w : fwfFrom d lo m = true) : fwfFrom d lo (fins m k v) = true := by
  induction m generalizing lo with
  | nil => simp [fins, fwfFrom, hlo, hv]
  | cons e t ih =>
    obtain ⟨a, u⟩ := e
    have w' := w
    simp only [fwfFrom, Bool.and_eq_true, decide_eq_true_eq] at w'
    have ha : a ≠ k := hm (a, u) (by simp)
    by_cases hk : k < a
    · simp only [fins, hk, if_true, fwfFrom, Bool.and_eq_true, decide_eq_true_eq]
      exact ⟨⟨hlo, hv⟩, ⟨by omega, w'.1.2⟩, w'.2⟩
    · simp only [fins, hk, if_false, fwfFrom, Bool.and_eq_true, decide_eq_true_eq]
      exact ⟨w'.1, ih (a + 1) (by omega) (fun e he => hm e (by simp [he])) w'.2⟩

/-- A write keeps the canonical form. -/
theorem fwf_fset (d : Nat → α) (m : FMap α) (k : Nat) (v : α) (w : fwf d m = true) : fwf d (fset d m k v) = true := by
  unfold fset fwf
  split
  · exact fwfFrom_ferase d m k 0 w
  · next h => exact fwfFrom_fins d _ k 0 v (Nat.zero_le k) h (mem_ferase_ne m k) (fwfFrom_ferase d m k 0 w)
omit [DecidableEq α] in
/-- A key erased twice is erased once. -/
theorem ferase_ferase (m : FMap α) (k : Nat) : ferase (ferase m k) k = ferase m k := by
  induction m with
  | nil => rfl
  | cons e t ih =>
    obtain ⟨a, v⟩ := e
    by_cases h : a = k <;> simp [ferase, h, ih]
omit [DecidableEq α] in
/-- Erasing the key that was inserted. -/
theorem ferase_fins (m : FMap α) (k : Nat) (v : α) : ferase (fins m k v) k = ferase m k := by
  induction m with
  | nil => simp [fins, ferase]
  | cons e t ih =>
    obtain ⟨a, w⟩ := e
    unfold fins
    split
    · simp [ferase]
    · simp [ferase, ih]
/-- The last write to a key is the one that counts. -/
@[simp] theorem fset_fset (d : Nat → α) (m : FMap α) (k : Nat) (v w : α) : fset d (fset d m k v) k w = fset d m k w := by
  have h : ferase (fset d m k v) k = ferase m k := by
    unfold fset
    split
    · exact ferase_ferase m k
    · rw [ferase_fins, ferase_ferase]
  unfold fset at h ⊢
  rw [h]

end Sys2Proof.Machine
end

