-- ==== Sys2Proof/Laws/State.lean ====
section
/-! SUPPORT. Sys2Proof/Laws/State.lean: what each named update of the state leaves alone, field by field. -/
namespace Sys2Proof.Machine

/-! `State.setReg` changes `regs` only. -/
@[simp] theorem State.setReg_pending (s : State) (a : Nat) (w : Word) : (s.setReg a w).pending = s.pending := rfl
@[simp] theorem State.setReg_chip (s : State) (a : Nat) (w : Word) : (s.setReg a w).chip = s.chip := rfl
@[simp] theorem State.setReg_fresh (s : State) (a : Nat) (w : Word) : (s.setReg a w).fresh = s.fresh := rfl
@[simp] theorem State.setReg_hold (s : State) (a : Nat) (w : Word) : (s.setReg a w).hold = s.hold := rfl
@[simp] theorem State.setReg_ext (s : State) (a : Nat) (w : Word) : (s.setReg a w).ext = s.ext := rfl
@[simp] theorem State.setReg_power (s : State) (a : Nat) (w : Word) : (s.setReg a w).power = s.power := rfl
@[simp] theorem State.setReg_boot (s : State) (a : Nat) (w : Word) : (s.setReg a w).boot = s.boot := rfl
@[simp] theorem State.setReg_strap (s : State) (a : Nat) (w : Word) : (s.setReg a w).strap = s.strap := rfl
@[simp] theorem State.setReg_shadow (s : State) (a : Nat) (w : Word) : (s.setReg a w).shadow = s.shadow := rfl
@[simp] theorem State.setReg_commit (s : State) (a : Nat) (w : Word) : (s.setReg a w).commit = s.commit := rfl
@[simp] theorem State.setReg_cells (s : State) (a : Nat) (w : Word) : (s.setReg a w).cells = s.cells := rfl
@[simp] theorem State.setReg_circs (s : State) (a : Nat) (w : Word) : (s.setReg a w).circs = s.circs := rfl
@[simp] theorem State.setReg_ports (s : State) (a : Nat) (w : Word) : (s.setReg a w).ports = s.ports := rfl
@[simp] theorem State.setReg_ctxs (s : State) (a : Nat) (w : Word) : (s.setReg a w).ctxs = s.ctxs := rfl
@[simp] theorem State.setReg_outQ (s : State) (a : Nat) (w : Word) : (s.setReg a w).outQ = s.outQ := rfl
@[simp] theorem State.setReg_credits (s : State) (a : Nat) (w : Word) : (s.setReg a w).credits = s.credits := rfl
@[simp] theorem State.setReg_ctlWait (s : State) (a : Nat) (w : Word) : (s.setReg a w).ctlWait = s.ctlWait := rfl
@[simp] theorem State.setReg_fab (s : State) (a : Nat) (w : Word) : (s.setReg a w).fab = s.fab := rfl
@[simp] theorem State.setReg_canA (s : State) (a : Nat) (w : Word) : (s.setReg a w).canA = s.canA := rfl
@[simp] theorem State.setReg_canB (s : State) (a : Nat) (w : Word) : (s.setReg a w).canB = s.canB := rfl
@[simp] theorem State.setReg_tim (s : State) (a : Nat) (w : Word) : (s.setReg a w).tim = s.tim := rfl
@[simp] theorem State.setReg_pool (s : State) (a : Nat) (w : Word) : (s.setReg a w).pool = s.pool := rfl
@[simp] theorem State.setReg_sup (s : State) (a : Nat) (w : Word) : (s.setReg a w).sup = s.sup := rfl
@[simp] theorem State.setReg_jnl (s : State) (a : Nat) (w : Word) : (s.setReg a w).jnl = s.jnl := rfl
@[simp] theorem State.setReg_mem (s : State) (a : Nat) (w : Word) : (s.setReg a w).mem = s.mem := rfl
@[simp] theorem State.setReg_jwrite (s : State) (a : Nat) (w : Word) : (s.setReg a w).jwrite = s.jwrite := rfl
@[simp] theorem State.setReg_host (s : State) (a : Nat) (w : Word) : (s.setReg a w).host = s.host := rfl
@[simp] theorem State.setReg_mbx (s : State) (a : Nat) (w : Word) : (s.setReg a w).mbx = s.mbx := rfl
@[simp] theorem State.setReg_seq (s : State) (a : Nat) (w : Word) : (s.setReg a w).seq = s.seq := rfl

/-! `State.setShad` changes `shadow` only. -/
@[simp] theorem State.setShad_pending (s : State) (a : Nat) (w : Word) : (s.setShad a w).pending = s.pending := rfl
@[simp] theorem State.setShad_chip (s : State) (a : Nat) (w : Word) : (s.setShad a w).chip = s.chip := rfl
@[simp] theorem State.setShad_fresh (s : State) (a : Nat) (w : Word) : (s.setShad a w).fresh = s.fresh := rfl
@[simp] theorem State.setShad_hold (s : State) (a : Nat) (w : Word) : (s.setShad a w).hold = s.hold := rfl
@[simp] theorem State.setShad_ext (s : State) (a : Nat) (w : Word) : (s.setShad a w).ext = s.ext := rfl
@[simp] theorem State.setShad_power (s : State) (a : Nat) (w : Word) : (s.setShad a w).power = s.power := rfl
@[simp] theorem State.setShad_boot (s : State) (a : Nat) (w : Word) : (s.setShad a w).boot = s.boot := rfl
@[simp] theorem State.setShad_strap (s : State) (a : Nat) (w : Word) : (s.setShad a w).strap = s.strap := rfl
@[simp] theorem State.setShad_regs (s : State) (a : Nat) (w : Word) : (s.setShad a w).regs = s.regs := rfl
@[simp] theorem State.setShad_commit (s : State) (a : Nat) (w : Word) : (s.setShad a w).commit = s.commit := rfl
@[simp] theorem State.setShad_cells (s : State) (a : Nat) (w : Word) : (s.setShad a w).cells = s.cells := rfl
@[simp] theorem State.setShad_circs (s : State) (a : Nat) (w : Word) : (s.setShad a w).circs = s.circs := rfl
@[simp] theorem State.setShad_ports (s : State) (a : Nat) (w : Word) : (s.setShad a w).ports = s.ports := rfl
@[simp] theorem State.setShad_ctxs (s : State) (a : Nat) (w : Word) : (s.setShad a w).ctxs = s.ctxs := rfl
@[simp] theorem State.setShad_outQ (s : State) (a : Nat) (w : Word) : (s.setShad a w).outQ = s.outQ := rfl
@[simp] theorem State.setShad_credits (s : State) (a : Nat) (w : Word) : (s.setShad a w).credits = s.credits := rfl
@[simp] theorem State.setShad_ctlWait (s : State) (a : Nat) (w : Word) : (s.setShad a w).ctlWait = s.ctlWait := rfl
@[simp] theorem State.setShad_fab (s : State) (a : Nat) (w : Word) : (s.setShad a w).fab = s.fab := rfl
@[simp] theorem State.setShad_canA (s : State) (a : Nat) (w : Word) : (s.setShad a w).canA = s.canA := rfl
@[simp] theorem State.setShad_canB (s : State) (a : Nat) (w : Word) : (s.setShad a w).canB = s.canB := rfl
@[simp] theorem State.setShad_tim (s : State) (a : Nat) (w : Word) : (s.setShad a w).tim = s.tim := rfl
@[simp] theorem State.setShad_pool (s : State) (a : Nat) (w : Word) : (s.setShad a w).pool = s.pool := rfl
@[simp] theorem State.setShad_sup (s : State) (a : Nat) (w : Word) : (s.setShad a w).sup = s.sup := rfl
@[simp] theorem State.setShad_jnl (s : State) (a : Nat) (w : Word) : (s.setShad a w).jnl = s.jnl := rfl
@[simp] theorem State.setShad_mem (s : State) (a : Nat) (w : Word) : (s.setShad a w).mem = s.mem := rfl
@[simp] theorem State.setShad_jwrite (s : State) (a : Nat) (w : Word) : (s.setShad a w).jwrite = s.jwrite := rfl
@[simp] theorem State.setShad_host (s : State) (a : Nat) (w : Word) : (s.setShad a w).host = s.host := rfl
@[simp] theorem State.setShad_mbx (s : State) (a : Nat) (w : Word) : (s.setShad a w).mbx = s.mbx := rfl
@[simp] theorem State.setShad_seq (s : State) (a : Nat) (w : Word) : (s.setShad a w).seq = s.seq := rfl

/-! `State.setFld` changes `regs` only. -/
@[simp] theorem State.setFld_pending (s : State) (a lo wd v : Nat) : (s.setFld a lo wd v).pending = s.pending := rfl
@[simp] theorem State.setFld_chip (s : State) (a lo wd v : Nat) : (s.setFld a lo wd v).chip = s.chip := rfl
@[simp] theorem State.setFld_fresh (s : State) (a lo wd v : Nat) : (s.setFld a lo wd v).fresh = s.fresh := rfl
@[simp] theorem State.setFld_hold (s : State) (a lo wd v : Nat) : (s.setFld a lo wd v).hold = s.hold := rfl
@[simp] theorem State.setFld_ext (s : State) (a lo wd v : Nat) : (s.setFld a lo wd v).ext = s.ext := rfl
@[simp] theorem State.setFld_power (s : State) (a lo wd v : Nat) : (s.setFld a lo wd v).power = s.power := rfl
@[simp] theorem State.setFld_boot (s : State) (a lo wd v : Nat) : (s.setFld a lo wd v).boot = s.boot := rfl
@[simp] theorem State.setFld_strap (s : State) (a lo wd v : Nat) : (s.setFld a lo wd v).strap = s.strap := rfl
@[simp] theorem State.setFld_shadow (s : State) (a lo wd v : Nat) : (s.setFld a lo wd v).shadow = s.shadow := rfl
@[simp] theorem State.setFld_commit (s : State) (a lo wd v : Nat) : (s.setFld a lo wd v).commit = s.commit := rfl
@[simp] theorem State.setFld_cells (s : State) (a lo wd v : Nat) : (s.setFld a lo wd v).cells = s.cells := rfl
@[simp] theorem State.setFld_circs (s : State) (a lo wd v : Nat) : (s.setFld a lo wd v).circs = s.circs := rfl
@[simp] theorem State.setFld_ports (s : State) (a lo wd v : Nat) : (s.setFld a lo wd v).ports = s.ports := rfl
@[simp] theorem State.setFld_ctxs (s : State) (a lo wd v : Nat) : (s.setFld a lo wd v).ctxs = s.ctxs := rfl
@[simp] theorem State.setFld_outQ (s : State) (a lo wd v : Nat) : (s.setFld a lo wd v).outQ = s.outQ := rfl
@[simp] theorem State.setFld_credits (s : State) (a lo wd v : Nat) : (s.setFld a lo wd v).credits = s.credits := rfl
@[simp] theorem State.setFld_ctlWait (s : State) (a lo wd v : Nat) : (s.setFld a lo wd v).ctlWait = s.ctlWait := rfl
@[simp] theorem State.setFld_fab (s : State) (a lo wd v : Nat) : (s.setFld a lo wd v).fab = s.fab := rfl
@[simp] theorem State.setFld_canA (s : State) (a lo wd v : Nat) : (s.setFld a lo wd v).canA = s.canA := rfl
@[simp] theorem State.setFld_canB (s : State) (a lo wd v : Nat) : (s.setFld a lo wd v).canB = s.canB := rfl
@[simp] theorem State.setFld_tim (s : State) (a lo wd v : Nat) : (s.setFld a lo wd v).tim = s.tim := rfl
@[simp] theorem State.setFld_pool (s : State) (a lo wd v : Nat) : (s.setFld a lo wd v).pool = s.pool := rfl
@[simp] theorem State.setFld_sup (s : State) (a lo wd v : Nat) : (s.setFld a lo wd v).sup = s.sup := rfl
@[simp] theorem State.setFld_jnl (s : State) (a lo wd v : Nat) : (s.setFld a lo wd v).jnl = s.jnl := rfl
@[simp] theorem State.setFld_mem (s : State) (a lo wd v : Nat) : (s.setFld a lo wd v).mem = s.mem := rfl
@[simp] theorem State.setFld_jwrite (s : State) (a lo wd v : Nat) : (s.setFld a lo wd v).jwrite = s.jwrite := rfl
@[simp] theorem State.setFld_host (s : State) (a lo wd v : Nat) : (s.setFld a lo wd v).host = s.host := rfl
@[simp] theorem State.setFld_mbx (s : State) (a lo wd v : Nat) : (s.setFld a lo wd v).mbx = s.mbx := rfl
@[simp] theorem State.setFld_seq (s : State) (a lo wd v : Nat) : (s.setFld a lo wd v).seq = s.seq := rfl

/-! `State.setBit` changes `regs` only. -/
@[simp] theorem State.setBit_pending (s : State) (a i : Nat) (b : Bool) : (s.setBit a i b).pending = s.pending := rfl
@[simp] theorem State.setBit_chip (s : State) (a i : Nat) (b : Bool) : (s.setBit a i b).chip = s.chip := rfl
@[simp] theorem State.setBit_fresh (s : State) (a i : Nat) (b : Bool) : (s.setBit a i b).fresh = s.fresh := rfl
@[simp] theorem State.setBit_hold (s : State) (a i : Nat) (b : Bool) : (s.setBit a i b).hold = s.hold := rfl
@[simp] theorem State.setBit_ext (s : State) (a i : Nat) (b : Bool) : (s.setBit a i b).ext = s.ext := rfl
@[simp] theorem State.setBit_power (s : State) (a i : Nat) (b : Bool) : (s.setBit a i b).power = s.power := rfl
@[simp] theorem State.setBit_boot (s : State) (a i : Nat) (b : Bool) : (s.setBit a i b).boot = s.boot := rfl
@[simp] theorem State.setBit_strap (s : State) (a i : Nat) (b : Bool) : (s.setBit a i b).strap = s.strap := rfl
@[simp] theorem State.setBit_shadow (s : State) (a i : Nat) (b : Bool) : (s.setBit a i b).shadow = s.shadow := rfl
@[simp] theorem State.setBit_commit (s : State) (a i : Nat) (b : Bool) : (s.setBit a i b).commit = s.commit := rfl
@[simp] theorem State.setBit_cells (s : State) (a i : Nat) (b : Bool) : (s.setBit a i b).cells = s.cells := rfl
@[simp] theorem State.setBit_circs (s : State) (a i : Nat) (b : Bool) : (s.setBit a i b).circs = s.circs := rfl
@[simp] theorem State.setBit_ports (s : State) (a i : Nat) (b : Bool) : (s.setBit a i b).ports = s.ports := rfl
@[simp] theorem State.setBit_ctxs (s : State) (a i : Nat) (b : Bool) : (s.setBit a i b).ctxs = s.ctxs := rfl
@[simp] theorem State.setBit_outQ (s : State) (a i : Nat) (b : Bool) : (s.setBit a i b).outQ = s.outQ := rfl
@[simp] theorem State.setBit_credits (s : State) (a i : Nat) (b : Bool) : (s.setBit a i b).credits = s.credits := rfl
@[simp] theorem State.setBit_ctlWait (s : State) (a i : Nat) (b : Bool) : (s.setBit a i b).ctlWait = s.ctlWait := rfl
@[simp] theorem State.setBit_fab (s : State) (a i : Nat) (b : Bool) : (s.setBit a i b).fab = s.fab := rfl
@[simp] theorem State.setBit_canA (s : State) (a i : Nat) (b : Bool) : (s.setBit a i b).canA = s.canA := rfl
@[simp] theorem State.setBit_canB (s : State) (a i : Nat) (b : Bool) : (s.setBit a i b).canB = s.canB := rfl
@[simp] theorem State.setBit_tim (s : State) (a i : Nat) (b : Bool) : (s.setBit a i b).tim = s.tim := rfl
@[simp] theorem State.setBit_pool (s : State) (a i : Nat) (b : Bool) : (s.setBit a i b).pool = s.pool := rfl
@[simp] theorem State.setBit_sup (s : State) (a i : Nat) (b : Bool) : (s.setBit a i b).sup = s.sup := rfl
@[simp] theorem State.setBit_jnl (s : State) (a i : Nat) (b : Bool) : (s.setBit a i b).jnl = s.jnl := rfl
@[simp] theorem State.setBit_mem (s : State) (a i : Nat) (b : Bool) : (s.setBit a i b).mem = s.mem := rfl
@[simp] theorem State.setBit_jwrite (s : State) (a i : Nat) (b : Bool) : (s.setBit a i b).jwrite = s.jwrite := rfl
@[simp] theorem State.setBit_host (s : State) (a i : Nat) (b : Bool) : (s.setBit a i b).host = s.host := rfl
@[simp] theorem State.setBit_mbx (s : State) (a i : Nat) (b : Bool) : (s.setBit a i b).mbx = s.mbx := rfl
@[simp] theorem State.setBit_seq (s : State) (a i : Nat) (b : Bool) : (s.setBit a i b).seq = s.seq := rfl

/-! `State.count` changes `regs` only. -/
@[simp] theorem State.count_pending (s : State) (a lo wd : Nat) : (s.count a lo wd).pending = s.pending := rfl
@[simp] theorem State.count_chip (s : State) (a lo wd : Nat) : (s.count a lo wd).chip = s.chip := rfl
@[simp] theorem State.count_fresh (s : State) (a lo wd : Nat) : (s.count a lo wd).fresh = s.fresh := rfl
@[simp] theorem State.count_hold (s : State) (a lo wd : Nat) : (s.count a lo wd).hold = s.hold := rfl
@[simp] theorem State.count_ext (s : State) (a lo wd : Nat) : (s.count a lo wd).ext = s.ext := rfl
@[simp] theorem State.count_power (s : State) (a lo wd : Nat) : (s.count a lo wd).power = s.power := rfl
@[simp] theorem State.count_boot (s : State) (a lo wd : Nat) : (s.count a lo wd).boot = s.boot := rfl
@[simp] theorem State.count_strap (s : State) (a lo wd : Nat) : (s.count a lo wd).strap = s.strap := rfl
@[simp] theorem State.count_shadow (s : State) (a lo wd : Nat) : (s.count a lo wd).shadow = s.shadow := rfl
@[simp] theorem State.count_commit (s : State) (a lo wd : Nat) : (s.count a lo wd).commit = s.commit := rfl
@[simp] theorem State.count_cells (s : State) (a lo wd : Nat) : (s.count a lo wd).cells = s.cells := rfl
@[simp] theorem State.count_circs (s : State) (a lo wd : Nat) : (s.count a lo wd).circs = s.circs := rfl
@[simp] theorem State.count_ports (s : State) (a lo wd : Nat) : (s.count a lo wd).ports = s.ports := rfl
@[simp] theorem State.count_ctxs (s : State) (a lo wd : Nat) : (s.count a lo wd).ctxs = s.ctxs := rfl
@[simp] theorem State.count_outQ (s : State) (a lo wd : Nat) : (s.count a lo wd).outQ = s.outQ := rfl
@[simp] theorem State.count_credits (s : State) (a lo wd : Nat) : (s.count a lo wd).credits = s.credits := rfl
@[simp] theorem State.count_ctlWait (s : State) (a lo wd : Nat) : (s.count a lo wd).ctlWait = s.ctlWait := rfl
@[simp] theorem State.count_fab (s : State) (a lo wd : Nat) : (s.count a lo wd).fab = s.fab := rfl
@[simp] theorem State.count_canA (s : State) (a lo wd : Nat) : (s.count a lo wd).canA = s.canA := rfl
@[simp] theorem State.count_canB (s : State) (a lo wd : Nat) : (s.count a lo wd).canB = s.canB := rfl
@[simp] theorem State.count_tim (s : State) (a lo wd : Nat) : (s.count a lo wd).tim = s.tim := rfl
@[simp] theorem State.count_pool (s : State) (a lo wd : Nat) : (s.count a lo wd).pool = s.pool := rfl
@[simp] theorem State.count_sup (s : State) (a lo wd : Nat) : (s.count a lo wd).sup = s.sup := rfl
@[simp] theorem State.count_jnl (s : State) (a lo wd : Nat) : (s.count a lo wd).jnl = s.jnl := rfl
@[simp] theorem State.count_mem (s : State) (a lo wd : Nat) : (s.count a lo wd).mem = s.mem := rfl
@[simp] theorem State.count_jwrite (s : State) (a lo wd : Nat) : (s.count a lo wd).jwrite = s.jwrite := rfl
@[simp] theorem State.count_host (s : State) (a lo wd : Nat) : (s.count a lo wd).host = s.host := rfl
@[simp] theorem State.count_mbx (s : State) (a lo wd : Nat) : (s.count a lo wd).mbx = s.mbx := rfl
@[simp] theorem State.count_seq (s : State) (a lo wd : Nat) : (s.count a lo wd).seq = s.seq := rfl

/-! `State.countBy` changes `regs` only. -/
@[simp] theorem State.countBy_pending (s : State) (a lo wd n : Nat) : (s.countBy a lo wd n).pending = s.pending := rfl
@[simp] theorem State.countBy_chip (s : State) (a lo wd n : Nat) : (s.countBy a lo wd n).chip = s.chip := rfl
@[simp] theorem State.countBy_fresh (s : State) (a lo wd n : Nat) : (s.countBy a lo wd n).fresh = s.fresh := rfl
@[simp] theorem State.countBy_hold (s : State) (a lo wd n : Nat) : (s.countBy a lo wd n).hold = s.hold := rfl
@[simp] theorem State.countBy_ext (s : State) (a lo wd n : Nat) : (s.countBy a lo wd n).ext = s.ext := rfl
@[simp] theorem State.countBy_power (s : State) (a lo wd n : Nat) : (s.countBy a lo wd n).power = s.power := rfl
@[simp] theorem State.countBy_boot (s : State) (a lo wd n : Nat) : (s.countBy a lo wd n).boot = s.boot := rfl
@[simp] theorem State.countBy_strap (s : State) (a lo wd n : Nat) : (s.countBy a lo wd n).strap = s.strap := rfl
@[simp] theorem State.countBy_shadow (s : State) (a lo wd n : Nat) : (s.countBy a lo wd n).shadow = s.shadow := rfl
@[simp] theorem State.countBy_commit (s : State) (a lo wd n : Nat) : (s.countBy a lo wd n).commit = s.commit := rfl
@[simp] theorem State.countBy_cells (s : State) (a lo wd n : Nat) : (s.countBy a lo wd n).cells = s.cells := rfl
@[simp] theorem State.countBy_circs (s : State) (a lo wd n : Nat) : (s.countBy a lo wd n).circs = s.circs := rfl
@[simp] theorem State.countBy_ports (s : State) (a lo wd n : Nat) : (s.countBy a lo wd n).ports = s.ports := rfl
@[simp] theorem State.countBy_ctxs (s : State) (a lo wd n : Nat) : (s.countBy a lo wd n).ctxs = s.ctxs := rfl
@[simp] theorem State.countBy_outQ (s : State) (a lo wd n : Nat) : (s.countBy a lo wd n).outQ = s.outQ := rfl
@[simp] theorem State.countBy_credits (s : State) (a lo wd n : Nat) : (s.countBy a lo wd n).credits = s.credits := rfl
@[simp] theorem State.countBy_ctlWait (s : State) (a lo wd n : Nat) : (s.countBy a lo wd n).ctlWait = s.ctlWait := rfl
@[simp] theorem State.countBy_fab (s : State) (a lo wd n : Nat) : (s.countBy a lo wd n).fab = s.fab := rfl
@[simp] theorem State.countBy_canA (s : State) (a lo wd n : Nat) : (s.countBy a lo wd n).canA = s.canA := rfl
@[simp] theorem State.countBy_canB (s : State) (a lo wd n : Nat) : (s.countBy a lo wd n).canB = s.canB := rfl
@[simp] theorem State.countBy_tim (s : State) (a lo wd n : Nat) : (s.countBy a lo wd n).tim = s.tim := rfl
@[simp] theorem State.countBy_pool (s : State) (a lo wd n : Nat) : (s.countBy a lo wd n).pool = s.pool := rfl
@[simp] theorem State.countBy_sup (s : State) (a lo wd n : Nat) : (s.countBy a lo wd n).sup = s.sup := rfl
@[simp] theorem State.countBy_jnl (s : State) (a lo wd n : Nat) : (s.countBy a lo wd n).jnl = s.jnl := rfl
@[simp] theorem State.countBy_mem (s : State) (a lo wd n : Nat) : (s.countBy a lo wd n).mem = s.mem := rfl
@[simp] theorem State.countBy_jwrite (s : State) (a lo wd n : Nat) : (s.countBy a lo wd n).jwrite = s.jwrite := rfl
@[simp] theorem State.countBy_host (s : State) (a lo wd n : Nat) : (s.countBy a lo wd n).host = s.host := rfl
@[simp] theorem State.countBy_mbx (s : State) (a lo wd n : Nat) : (s.countBy a lo wd n).mbx = s.mbx := rfl
@[simp] theorem State.countBy_seq (s : State) (a lo wd n : Nat) : (s.countBy a lo wd n).seq = s.seq := rfl

/-! `State.countWrap` changes `regs` only. -/
@[simp] theorem State.countWrap_pending (s : State) (a : Nat) : (s.countWrap a).pending = s.pending := rfl
@[simp] theorem State.countWrap_chip (s : State) (a : Nat) : (s.countWrap a).chip = s.chip := rfl
@[simp] theorem State.countWrap_fresh (s : State) (a : Nat) : (s.countWrap a).fresh = s.fresh := rfl
@[simp] theorem State.countWrap_hold (s : State) (a : Nat) : (s.countWrap a).hold = s.hold := rfl
@[simp] theorem State.countWrap_ext (s : State) (a : Nat) : (s.countWrap a).ext = s.ext := rfl
@[simp] theorem State.countWrap_power (s : State) (a : Nat) : (s.countWrap a).power = s.power := rfl
@[simp] theorem State.countWrap_boot (s : State) (a : Nat) : (s.countWrap a).boot = s.boot := rfl
@[simp] theorem State.countWrap_strap (s : State) (a : Nat) : (s.countWrap a).strap = s.strap := rfl
@[simp] theorem State.countWrap_shadow (s : State) (a : Nat) : (s.countWrap a).shadow = s.shadow := rfl
@[simp] theorem State.countWrap_commit (s : State) (a : Nat) : (s.countWrap a).commit = s.commit := rfl
@[simp] theorem State.countWrap_cells (s : State) (a : Nat) : (s.countWrap a).cells = s.cells := rfl
@[simp] theorem State.countWrap_circs (s : State) (a : Nat) : (s.countWrap a).circs = s.circs := rfl
@[simp] theorem State.countWrap_ports (s : State) (a : Nat) : (s.countWrap a).ports = s.ports := rfl
@[simp] theorem State.countWrap_ctxs (s : State) (a : Nat) : (s.countWrap a).ctxs = s.ctxs := rfl
@[simp] theorem State.countWrap_outQ (s : State) (a : Nat) : (s.countWrap a).outQ = s.outQ := rfl
@[simp] theorem State.countWrap_credits (s : State) (a : Nat) : (s.countWrap a).credits = s.credits := rfl
@[simp] theorem State.countWrap_ctlWait (s : State) (a : Nat) : (s.countWrap a).ctlWait = s.ctlWait := rfl
@[simp] theorem State.countWrap_fab (s : State) (a : Nat) : (s.countWrap a).fab = s.fab := rfl
@[simp] theorem State.countWrap_canA (s : State) (a : Nat) : (s.countWrap a).canA = s.canA := rfl
@[simp] theorem State.countWrap_canB (s : State) (a : Nat) : (s.countWrap a).canB = s.canB := rfl
@[simp] theorem State.countWrap_tim (s : State) (a : Nat) : (s.countWrap a).tim = s.tim := rfl
@[simp] theorem State.countWrap_pool (s : State) (a : Nat) : (s.countWrap a).pool = s.pool := rfl
@[simp] theorem State.countWrap_sup (s : State) (a : Nat) : (s.countWrap a).sup = s.sup := rfl
@[simp] theorem State.countWrap_jnl (s : State) (a : Nat) : (s.countWrap a).jnl = s.jnl := rfl
@[simp] theorem State.countWrap_mem (s : State) (a : Nat) : (s.countWrap a).mem = s.mem := rfl
@[simp] theorem State.countWrap_jwrite (s : State) (a : Nat) : (s.countWrap a).jwrite = s.jwrite := rfl
@[simp] theorem State.countWrap_host (s : State) (a : Nat) : (s.countWrap a).host = s.host := rfl
@[simp] theorem State.countWrap_mbx (s : State) (a : Nat) : (s.countWrap a).mbx = s.mbx := rfl
@[simp] theorem State.countWrap_seq (s : State) (a : Nat) : (s.countWrap a).seq = s.seq := rfl

/-! `State.setCell` changes `cells` only. -/
@[simp] theorem State.setCell_pending (s : State) (i : Nat) (c : Cell) : (s.setCell i c).pending = s.pending := rfl
@[simp] theorem State.setCell_chip (s : State) (i : Nat) (c : Cell) : (s.setCell i c).chip = s.chip := rfl
@[simp] theorem State.setCell_fresh (s : State) (i : Nat) (c : Cell) : (s.setCell i c).fresh = s.fresh := rfl
@[simp] theorem State.setCell_hold (s : State) (i : Nat) (c : Cell) : (s.setCell i c).hold = s.hold := rfl
@[simp] theorem State.setCell_ext (s : State) (i : Nat) (c : Cell) : (s.setCell i c).ext = s.ext := rfl
@[simp] theorem State.setCell_power (s : State) (i : Nat) (c : Cell) : (s.setCell i c).power = s.power := rfl
@[simp] theorem State.setCell_boot (s : State) (i : Nat) (c : Cell) : (s.setCell i c).boot = s.boot := rfl
@[simp] theorem State.setCell_strap (s : State) (i : Nat) (c : Cell) : (s.setCell i c).strap = s.strap := rfl
@[simp] theorem State.setCell_regs (s : State) (i : Nat) (c : Cell) : (s.setCell i c).regs = s.regs := rfl
@[simp] theorem State.setCell_shadow (s : State) (i : Nat) (c : Cell) : (s.setCell i c).shadow = s.shadow := rfl
@[simp] theorem State.setCell_commit (s : State) (i : Nat) (c : Cell) : (s.setCell i c).commit = s.commit := rfl
@[simp] theorem State.setCell_circs (s : State) (i : Nat) (c : Cell) : (s.setCell i c).circs = s.circs := rfl
@[simp] theorem State.setCell_ports (s : State) (i : Nat) (c : Cell) : (s.setCell i c).ports = s.ports := rfl
@[simp] theorem State.setCell_ctxs (s : State) (i : Nat) (c : Cell) : (s.setCell i c).ctxs = s.ctxs := rfl
@[simp] theorem State.setCell_outQ (s : State) (i : Nat) (c : Cell) : (s.setCell i c).outQ = s.outQ := rfl
@[simp] theorem State.setCell_credits (s : State) (i : Nat) (c : Cell) : (s.setCell i c).credits = s.credits := rfl
@[simp] theorem State.setCell_ctlWait (s : State) (i : Nat) (c : Cell) : (s.setCell i c).ctlWait = s.ctlWait := rfl
@[simp] theorem State.setCell_fab (s : State) (i : Nat) (c : Cell) : (s.setCell i c).fab = s.fab := rfl
@[simp] theorem State.setCell_canA (s : State) (i : Nat) (c : Cell) : (s.setCell i c).canA = s.canA := rfl
@[simp] theorem State.setCell_canB (s : State) (i : Nat) (c : Cell) : (s.setCell i c).canB = s.canB := rfl
@[simp] theorem State.setCell_tim (s : State) (i : Nat) (c : Cell) : (s.setCell i c).tim = s.tim := rfl
@[simp] theorem State.setCell_pool (s : State) (i : Nat) (c : Cell) : (s.setCell i c).pool = s.pool := rfl
@[simp] theorem State.setCell_sup (s : State) (i : Nat) (c : Cell) : (s.setCell i c).sup = s.sup := rfl
@[simp] theorem State.setCell_jnl (s : State) (i : Nat) (c : Cell) : (s.setCell i c).jnl = s.jnl := rfl
@[simp] theorem State.setCell_mem (s : State) (i : Nat) (c : Cell) : (s.setCell i c).mem = s.mem := rfl
@[simp] theorem State.setCell_jwrite (s : State) (i : Nat) (c : Cell) : (s.setCell i c).jwrite = s.jwrite := rfl
@[simp] theorem State.setCell_host (s : State) (i : Nat) (c : Cell) : (s.setCell i c).host = s.host := rfl
@[simp] theorem State.setCell_mbx (s : State) (i : Nat) (c : Cell) : (s.setCell i c).mbx = s.mbx := rfl
@[simp] theorem State.setCell_seq (s : State) (i : Nat) (c : Cell) : (s.setCell i c).seq = s.seq := rfl

/-! `State.setCirc` changes `circs` only. -/
@[simp] theorem State.setCirc_pending (s : State) (c : Nat) (x : Circ) : (s.setCirc c x).pending = s.pending := rfl
@[simp] theorem State.setCirc_chip (s : State) (c : Nat) (x : Circ) : (s.setCirc c x).chip = s.chip := rfl
@[simp] theorem State.setCirc_fresh (s : State) (c : Nat) (x : Circ) : (s.setCirc c x).fresh = s.fresh := rfl
@[simp] theorem State.setCirc_hold (s : State) (c : Nat) (x : Circ) : (s.setCirc c x).hold = s.hold := rfl
@[simp] theorem State.setCirc_ext (s : State) (c : Nat) (x : Circ) : (s.setCirc c x).ext = s.ext := rfl
@[simp] theorem State.setCirc_power (s : State) (c : Nat) (x : Circ) : (s.setCirc c x).power = s.power := rfl
@[simp] theorem State.setCirc_boot (s : State) (c : Nat) (x : Circ) : (s.setCirc c x).boot = s.boot := rfl
@[simp] theorem State.setCirc_strap (s : State) (c : Nat) (x : Circ) : (s.setCirc c x).strap = s.strap := rfl
@[simp] theorem State.setCirc_regs (s : State) (c : Nat) (x : Circ) : (s.setCirc c x).regs = s.regs := rfl
@[simp] theorem State.setCirc_shadow (s : State) (c : Nat) (x : Circ) : (s.setCirc c x).shadow = s.shadow := rfl
@[simp] theorem State.setCirc_commit (s : State) (c : Nat) (x : Circ) : (s.setCirc c x).commit = s.commit := rfl
@[simp] theorem State.setCirc_cells (s : State) (c : Nat) (x : Circ) : (s.setCirc c x).cells = s.cells := rfl
@[simp] theorem State.setCirc_ports (s : State) (c : Nat) (x : Circ) : (s.setCirc c x).ports = s.ports := rfl
@[simp] theorem State.setCirc_ctxs (s : State) (c : Nat) (x : Circ) : (s.setCirc c x).ctxs = s.ctxs := rfl
@[simp] theorem State.setCirc_outQ (s : State) (c : Nat) (x : Circ) : (s.setCirc c x).outQ = s.outQ := rfl
@[simp] theorem State.setCirc_credits (s : State) (c : Nat) (x : Circ) : (s.setCirc c x).credits = s.credits := rfl
@[simp] theorem State.setCirc_ctlWait (s : State) (c : Nat) (x : Circ) : (s.setCirc c x).ctlWait = s.ctlWait := rfl
@[simp] theorem State.setCirc_fab (s : State) (c : Nat) (x : Circ) : (s.setCirc c x).fab = s.fab := rfl
@[simp] theorem State.setCirc_canA (s : State) (c : Nat) (x : Circ) : (s.setCirc c x).canA = s.canA := rfl
@[simp] theorem State.setCirc_canB (s : State) (c : Nat) (x : Circ) : (s.setCirc c x).canB = s.canB := rfl
@[simp] theorem State.setCirc_tim (s : State) (c : Nat) (x : Circ) : (s.setCirc c x).tim = s.tim := rfl
@[simp] theorem State.setCirc_pool (s : State) (c : Nat) (x : Circ) : (s.setCirc c x).pool = s.pool := rfl
@[simp] theorem State.setCirc_sup (s : State) (c : Nat) (x : Circ) : (s.setCirc c x).sup = s.sup := rfl
@[simp] theorem State.setCirc_jnl (s : State) (c : Nat) (x : Circ) : (s.setCirc c x).jnl = s.jnl := rfl
@[simp] theorem State.setCirc_mem (s : State) (c : Nat) (x : Circ) : (s.setCirc c x).mem = s.mem := rfl
@[simp] theorem State.setCirc_jwrite (s : State) (c : Nat) (x : Circ) : (s.setCirc c x).jwrite = s.jwrite := rfl
@[simp] theorem State.setCirc_host (s : State) (c : Nat) (x : Circ) : (s.setCirc c x).host = s.host := rfl
@[simp] theorem State.setCirc_mbx (s : State) (c : Nat) (x : Circ) : (s.setCirc c x).mbx = s.mbx := rfl
@[simp] theorem State.setCirc_seq (s : State) (c : Nat) (x : Circ) : (s.setCirc c x).seq = s.seq := rfl

/-! `State.setPort` changes `ports` only. -/
@[simp] theorem State.setPort_pending (s : State) (n : Nat) (p : Port) : (s.setPort n p).pending = s.pending := rfl
@[simp] theorem State.setPort_chip (s : State) (n : Nat) (p : Port) : (s.setPort n p).chip = s.chip := rfl
@[simp] theorem State.setPort_fresh (s : State) (n : Nat) (p : Port) : (s.setPort n p).fresh = s.fresh := rfl
@[simp] theorem State.setPort_hold (s : State) (n : Nat) (p : Port) : (s.setPort n p).hold = s.hold := rfl
@[simp] theorem State.setPort_ext (s : State) (n : Nat) (p : Port) : (s.setPort n p).ext = s.ext := rfl
@[simp] theorem State.setPort_power (s : State) (n : Nat) (p : Port) : (s.setPort n p).power = s.power := rfl
@[simp] theorem State.setPort_boot (s : State) (n : Nat) (p : Port) : (s.setPort n p).boot = s.boot := rfl
@[simp] theorem State.setPort_strap (s : State) (n : Nat) (p : Port) : (s.setPort n p).strap = s.strap := rfl
@[simp] theorem State.setPort_regs (s : State) (n : Nat) (p : Port) : (s.setPort n p).regs = s.regs := rfl
@[simp] theorem State.setPort_shadow (s : State) (n : Nat) (p : Port) : (s.setPort n p).shadow = s.shadow := rfl
@[simp] theorem State.setPort_commit (s : State) (n : Nat) (p : Port) : (s.setPort n p).commit = s.commit := rfl
@[simp] theorem State.setPort_cells (s : State) (n : Nat) (p : Port) : (s.setPort n p).cells = s.cells := rfl
@[simp] theorem State.setPort_circs (s : State) (n : Nat) (p : Port) : (s.setPort n p).circs = s.circs := rfl
@[simp] theorem State.setPort_ctxs (s : State) (n : Nat) (p : Port) : (s.setPort n p).ctxs = s.ctxs := rfl
@[simp] theorem State.setPort_outQ (s : State) (n : Nat) (p : Port) : (s.setPort n p).outQ = s.outQ := rfl
@[simp] theorem State.setPort_credits (s : State) (n : Nat) (p : Port) : (s.setPort n p).credits = s.credits := rfl
@[simp] theorem State.setPort_ctlWait (s : State) (n : Nat) (p : Port) : (s.setPort n p).ctlWait = s.ctlWait := rfl
@[simp] theorem State.setPort_fab (s : State) (n : Nat) (p : Port) : (s.setPort n p).fab = s.fab := rfl
@[simp] theorem State.setPort_canA (s : State) (n : Nat) (p : Port) : (s.setPort n p).canA = s.canA := rfl
@[simp] theorem State.setPort_canB (s : State) (n : Nat) (p : Port) : (s.setPort n p).canB = s.canB := rfl
@[simp] theorem State.setPort_tim (s : State) (n : Nat) (p : Port) : (s.setPort n p).tim = s.tim := rfl
@[simp] theorem State.setPort_pool (s : State) (n : Nat) (p : Port) : (s.setPort n p).pool = s.pool := rfl
@[simp] theorem State.setPort_sup (s : State) (n : Nat) (p : Port) : (s.setPort n p).sup = s.sup := rfl
@[simp] theorem State.setPort_jnl (s : State) (n : Nat) (p : Port) : (s.setPort n p).jnl = s.jnl := rfl
@[simp] theorem State.setPort_mem (s : State) (n : Nat) (p : Port) : (s.setPort n p).mem = s.mem := rfl
@[simp] theorem State.setPort_jwrite (s : State) (n : Nat) (p : Port) : (s.setPort n p).jwrite = s.jwrite := rfl
@[simp] theorem State.setPort_host (s : State) (n : Nat) (p : Port) : (s.setPort n p).host = s.host := rfl
@[simp] theorem State.setPort_mbx (s : State) (n : Nat) (p : Port) : (s.setPort n p).mbx = s.mbx := rfl
@[simp] theorem State.setPort_seq (s : State) (n : Nat) (p : Port) : (s.setPort n p).seq = s.seq := rfl

/-! `State.setCtx` changes `ctxs` only. -/
@[simp] theorem State.setCtx_pending (s : State) (x : Nat) (k : Ctx) : (s.setCtx x k).pending = s.pending := rfl
@[simp] theorem State.setCtx_chip (s : State) (x : Nat) (k : Ctx) : (s.setCtx x k).chip = s.chip := rfl
@[simp] theorem State.setCtx_fresh (s : State) (x : Nat) (k : Ctx) : (s.setCtx x k).fresh = s.fresh := rfl
@[simp] theorem State.setCtx_hold (s : State) (x : Nat) (k : Ctx) : (s.setCtx x k).hold = s.hold := rfl
@[simp] theorem State.setCtx_ext (s : State) (x : Nat) (k : Ctx) : (s.setCtx x k).ext = s.ext := rfl
@[simp] theorem State.setCtx_power (s : State) (x : Nat) (k : Ctx) : (s.setCtx x k).power = s.power := rfl
@[simp] theorem State.setCtx_boot (s : State) (x : Nat) (k : Ctx) : (s.setCtx x k).boot = s.boot := rfl
@[simp] theorem State.setCtx_strap (s : State) (x : Nat) (k : Ctx) : (s.setCtx x k).strap = s.strap := rfl
@[simp] theorem State.setCtx_regs (s : State) (x : Nat) (k : Ctx) : (s.setCtx x k).regs = s.regs := rfl
@[simp] theorem State.setCtx_shadow (s : State) (x : Nat) (k : Ctx) : (s.setCtx x k).shadow = s.shadow := rfl
@[simp] theorem State.setCtx_commit (s : State) (x : Nat) (k : Ctx) : (s.setCtx x k).commit = s.commit := rfl
@[simp] theorem State.setCtx_cells (s : State) (x : Nat) (k : Ctx) : (s.setCtx x k).cells = s.cells := rfl
@[simp] theorem State.setCtx_circs (s : State) (x : Nat) (k : Ctx) : (s.setCtx x k).circs = s.circs := rfl
@[simp] theorem State.setCtx_ports (s : State) (x : Nat) (k : Ctx) : (s.setCtx x k).ports = s.ports := rfl
@[simp] theorem State.setCtx_outQ (s : State) (x : Nat) (k : Ctx) : (s.setCtx x k).outQ = s.outQ := rfl
@[simp] theorem State.setCtx_credits (s : State) (x : Nat) (k : Ctx) : (s.setCtx x k).credits = s.credits := rfl
@[simp] theorem State.setCtx_ctlWait (s : State) (x : Nat) (k : Ctx) : (s.setCtx x k).ctlWait = s.ctlWait := rfl
@[simp] theorem State.setCtx_fab (s : State) (x : Nat) (k : Ctx) : (s.setCtx x k).fab = s.fab := rfl
@[simp] theorem State.setCtx_canA (s : State) (x : Nat) (k : Ctx) : (s.setCtx x k).canA = s.canA := rfl
@[simp] theorem State.setCtx_canB (s : State) (x : Nat) (k : Ctx) : (s.setCtx x k).canB = s.canB := rfl
@[simp] theorem State.setCtx_tim (s : State) (x : Nat) (k : Ctx) : (s.setCtx x k).tim = s.tim := rfl
@[simp] theorem State.setCtx_pool (s : State) (x : Nat) (k : Ctx) : (s.setCtx x k).pool = s.pool := rfl
@[simp] theorem State.setCtx_sup (s : State) (x : Nat) (k : Ctx) : (s.setCtx x k).sup = s.sup := rfl
@[simp] theorem State.setCtx_jnl (s : State) (x : Nat) (k : Ctx) : (s.setCtx x k).jnl = s.jnl := rfl
@[simp] theorem State.setCtx_mem (s : State) (x : Nat) (k : Ctx) : (s.setCtx x k).mem = s.mem := rfl
@[simp] theorem State.setCtx_jwrite (s : State) (x : Nat) (k : Ctx) : (s.setCtx x k).jwrite = s.jwrite := rfl
@[simp] theorem State.setCtx_host (s : State) (x : Nat) (k : Ctx) : (s.setCtx x k).host = s.host := rfl
@[simp] theorem State.setCtx_mbx (s : State) (x : Nat) (k : Ctx) : (s.setCtx x k).mbx = s.mbx := rfl
@[simp] theorem State.setCtx_seq (s : State) (x : Nat) (k : Ctx) : (s.setCtx x k).seq = s.seq := rfl

end Sys2Proof.Machine
end

