-- ==== Sys2Proof/Laws/Ops.lean ====
section
/-! SUPPORT. Sys2Proof/Laws/Ops.lean: what the named operations on registers, cells, circuits, ports and contexts do to a read, and
what journaling and the fault catalogue leave alone. -/
namespace Sys2Proof.Machine

/-! ## Reads after writes -/

/-- A register word after a write of one. -/
theorem State.reg_setReg (s : State) (a b : Nat) (w : Word) : (s.setReg a w).reg b = if b = a then w else s.reg b :=
  fget_fset resetWord s.regs b a w
/-- A shadow word after a write of one. -/
theorem State.shad_setShad (s : State) (a b : Nat) (w : Word) : (s.setShad a w).shad b = if b = a then w else s.shad b :=
  fget_fset resetWord s.shadow b a w
/-- A shadow write leaves the applied copies alone, and the other way round. -/
@[simp] theorem State.reg_setShad (s : State) (a b : Nat) (w : Word) : (s.setShad a w).reg b = s.reg b := rfl
@[simp] theorem State.shad_setReg (s : State) (a b : Nat) (w : Word) : (s.setReg a w).shad b = s.shad b := rfl
@[simp] theorem State.shad_setFld (s : State) (a lo wd v b : Nat) : (s.setFld a lo wd v).shad b = s.shad b := rfl
@[simp] theorem State.shad_setBit (s : State) (a i : Nat) (v : Bool) (b : Nat) : (s.setBit a i v).shad b = s.shad b := rfl

/-- A register word after a write of one of its fields, or of another word's. -/
theorem State.reg_setFld (s : State) (a lo wd v b : Nat) :
    (s.setFld a lo wd v).reg b = if b = a then setF (s.reg a) lo wd v else s.reg b := State.reg_setReg s a b _
/-- Another word after a write of a field. -/
theorem State.reg_setFld_other (s : State) (a lo wd v : Nat) {b : Nat} (h : b ≠ a) : (s.setFld a lo wd v).reg b = s.reg b := by
  rw [State.reg_setFld, if_neg h]
/-- A field reads as what was written to it. -/
theorem State.fld_setFld_same (s : State) (a lo wd v : Nat) (h : lo + wd ≤ 32) : (s.setFld a lo wd v).fld a lo wd = v % 2 ^ wd := by
  unfold State.fld
  rw [State.reg_setFld, if_pos rfl, getF_setF_same _ _ _ _ h]
/-- A field of the same word that shares no bit keeps its value. -/
theorem State.fld_setFld_disjoint (s : State) (a lo wd v lo' wd' : Nat) (h : lo + wd ≤ lo' ∨ lo' + wd' ≤ lo) :
    (s.setFld a lo wd v).fld a lo' wd' = s.fld a lo' wd' := by
  unfold State.fld
  rw [State.reg_setFld, if_pos rfl, getF_setF_other _ _ _ _ _ _ h]
/-- A field of another word keeps its value. -/
theorem State.fld_setFld_other (s : State) (a lo wd v lo' wd' : Nat) {b : Nat} (h : b ≠ a) :
    (s.setFld a lo wd v).fld b lo' wd' = s.fld b lo' wd' := by
  unfold State.fld
  rw [State.reg_setFld_other s a lo wd v h]
/-- A bit reads as what was written to it. -/
theorem State.bit_setBit_same (s : State) (a i : Nat) (b : Bool) (h : i < 32) : (s.setBit a i b).bit a i = b := by
  unfold State.bit State.setBit
  rw [State.reg_setFld, if_pos rfl, getF_setF_same _ _ _ _ (by omega)]
  cases b <;> rfl
/-- Another word after a write of a bit. -/
theorem State.reg_setBit_other (s : State) (a i : Nat) (v : Bool) {b : Nat} (h : b ≠ a) : (s.setBit a i v).reg b = s.reg b :=
  State.reg_setFld_other s a i 1 _ h
/-- Another bit of the same word keeps its value. -/
theorem State.bit_setBit_other (s : State) (a i j : Nat) (v : Bool) (h : j ≠ i) : (s.setBit a i v).bit a j = s.bit a j := by
  unfold State.bit State.setBit
  rw [State.reg_setFld, if_pos rfl, getF_setF_other _ _ _ _ _ _ (by omega)]
/-- A bit of another word keeps its value. -/
theorem State.bit_setBit_word (s : State) (a i j : Nat) (v : Bool) {b : Nat} (h : b ≠ a) : (s.setBit a i v).bit b j = s.bit b j := by
  unfold State.bit
  rw [State.reg_setBit_other s a i v h]
/-- A counter leaves every other word alone. -/
theorem State.reg_count_other (s : State) (a lo wd : Nat) {b : Nat} (h : b ≠ a) : (s.count a lo wd).reg b = s.reg b :=
  State.reg_setFld_other s a lo wd _ h
/-- A saturating counter counts once below its end and stays at its end. -/
theorem State.fld_count_same (s : State) (a lo wd : Nat) (h : lo + wd ≤ 32) :
    (s.count a lo wd).fld a lo wd = satInc wd (s.fld a lo wd) := by
  unfold State.count
  rw [State.fld_setFld_same _ _ _ _ _ h, Nat.mod_eq_of_lt]
  have := Nat.two_pow_pos wd
  unfold satInc
  split <;> omega

/-- Cells, circuits, ports and contexts after a write of one. -/
theorem State.cell_setCell (s : State) (i j : Nat) (c : Cell) : (s.setCell i c).cell j = if j = i then c else s.cell j :=
  fget_fset _ s.cells j i c
theorem State.circ_setCirc (s : State) (i j : Nat) (c : Circ) : (s.setCirc i c).circ j = if j = i then c else s.circ j :=
  fget_fset _ s.circs j i c
theorem State.port_setPort (s : State) (i j : Nat) (p : Port) : (s.setPort i p).port j = if j = i then p else s.port j :=
  fget_fset _ s.ports j i p
theorem State.ctx_setCtx (s : State) (i j : Nat) (k : Ctx) : (s.setCtx i k).ctx j = if j = i then k else s.ctx j :=
  fget_fset _ s.ctxs j i k

/-! ## The canonical forms -/

/-- Register writes keep the canonical form. -/
theorem State.setReg_wf (s : State) (a : Nat) (w : Word) (h : fwf resetWord s.regs = true) : fwf resetWord (s.setReg a w).regs = true :=
  fwf_fset resetWord s.regs a w h
theorem State.setShad_wf (s : State) (a : Nat) (w : Word) (h : fwf resetWord s.shadow = true) :
    fwf resetWord (s.setShad a w).shadow = true := fwf_fset resetWord s.shadow a w h
theorem State.setFld_wf (s : State) (a lo wd v : Nat) (h : fwf resetWord s.regs = true) :
    fwf resetWord (s.setFld a lo wd v).regs = true := State.setReg_wf s a _ h
theorem State.setBit_wf (s : State) (a i : Nat) (b : Bool) (h : fwf resetWord s.regs = true) :
    fwf resetWord (s.setBit a i b).regs = true := State.setReg_wf s a _ h
theorem State.setCell_wf (s : State) (i : Nat) (c : Cell) (h : fwf (fun _ => ({} : Cell)) s.cells = true) :
    fwf (fun _ => ({} : Cell)) (s.setCell i c).cells = true := fwf_fset _ s.cells i c h
theorem State.setCirc_wf (s : State) (c : Nat) (x : Circ) (h : fwf (fun _ => ({} : Circ)) s.circs = true) :
    fwf (fun _ => ({} : Circ)) (s.setCirc c x).circs = true := fwf_fset _ s.circs c x h
theorem State.setPort_wf (s : State) (n : Nat) (p : Port) (h : fwf (fun _ => ({} : Port)) s.ports = true) :
    fwf (fun _ => ({} : Port)) (s.setPort n p).ports = true := fwf_fset _ s.ports n p h
theorem State.setCtx_wf (s : State) (x : Nat) (k : Ctx) (h : fwf (fun _ => ({} : Ctx)) s.ctxs = true) :
    fwf (fun _ => ({} : Ctx)) (s.setCtx x k).ctxs = true := fwf_fset _ s.ctxs x k h

end Sys2Proof.Machine
end

