-- ==== Sys2Proof/Laws/Journal.lean ====
section
/-! SUPPORT. Sys2Proof/Laws/Journal.lean: what allocating a system cell, journaling a record and raising or clearing a fault leave
alone. A record touches the system reserve's cells, the journal's staging and the words 0x2006, 0x2008, 0x3107 and 0x3109 only. -/
namespace Sys2Proof.Machine

/-! ## `allocSys` -/
@[simp] theorem allocSys_pending (s : State) (u : SysUse) : (allocSys s u).2.pending = s.pending := by unfold allocSys; split <;> rfl
@[simp] theorem allocSys_chip (s : State) (u : SysUse) : (allocSys s u).2.chip = s.chip := by unfold allocSys; split <;> rfl
@[simp] theorem allocSys_hold (s : State) (u : SysUse) : (allocSys s u).2.hold = s.hold := by unfold allocSys; split <;> rfl
@[simp] theorem allocSys_ext (s : State) (u : SysUse) : (allocSys s u).2.ext = s.ext := by unfold allocSys; split <;> rfl
@[simp] theorem allocSys_power (s : State) (u : SysUse) : (allocSys s u).2.power = s.power := by unfold allocSys; split <;> rfl
@[simp] theorem allocSys_boot (s : State) (u : SysUse) : (allocSys s u).2.boot = s.boot := by unfold allocSys; split <;> rfl
@[simp] theorem allocSys_strap (s : State) (u : SysUse) : (allocSys s u).2.strap = s.strap := by unfold allocSys; split <;> rfl
@[simp] theorem allocSys_shadow (s : State) (u : SysUse) : (allocSys s u).2.shadow = s.shadow := by unfold allocSys; split <;> rfl
@[simp] theorem allocSys_commit (s : State) (u : SysUse) : (allocSys s u).2.commit = s.commit := by unfold allocSys; split <;> rfl
@[simp] theorem allocSys_circs (s : State) (u : SysUse) : (allocSys s u).2.circs = s.circs := by unfold allocSys; split <;> rfl
@[simp] theorem allocSys_ports (s : State) (u : SysUse) : (allocSys s u).2.ports = s.ports := by unfold allocSys; split <;> rfl
@[simp] theorem allocSys_ctxs (s : State) (u : SysUse) : (allocSys s u).2.ctxs = s.ctxs := by unfold allocSys; split <;> rfl
@[simp] theorem allocSys_outQ (s : State) (u : SysUse) : (allocSys s u).2.outQ = s.outQ := by unfold allocSys; split <;> rfl
@[simp] theorem allocSys_credits (s : State) (u : SysUse) : (allocSys s u).2.credits = s.credits := by unfold allocSys; split <;> rfl
@[simp] theorem allocSys_ctlWait (s : State) (u : SysUse) : (allocSys s u).2.ctlWait = s.ctlWait := by unfold allocSys; split <;> rfl
@[simp] theorem allocSys_fab (s : State) (u : SysUse) : (allocSys s u).2.fab = s.fab := by unfold allocSys; split <;> rfl
@[simp] theorem allocSys_canA (s : State) (u : SysUse) : (allocSys s u).2.canA = s.canA := by unfold allocSys; split <;> rfl
@[simp] theorem allocSys_canB (s : State) (u : SysUse) : (allocSys s u).2.canB = s.canB := by unfold allocSys; split <;> rfl
@[simp] theorem allocSys_tim (s : State) (u : SysUse) : (allocSys s u).2.tim = s.tim := by unfold allocSys; split <;> rfl
@[simp] theorem allocSys_pool (s : State) (u : SysUse) : (allocSys s u).2.pool = s.pool := by unfold allocSys; split <;> rfl
@[simp] theorem allocSys_sup (s : State) (u : SysUse) : (allocSys s u).2.sup = s.sup := by unfold allocSys; split <;> rfl
@[simp] theorem allocSys_mem (s : State) (u : SysUse) : (allocSys s u).2.mem = s.mem := by unfold allocSys; split <;> rfl
@[simp] theorem allocSys_jwrite (s : State) (u : SysUse) : (allocSys s u).2.jwrite = s.jwrite := by unfold allocSys; split <;> rfl
@[simp] theorem allocSys_host (s : State) (u : SysUse) : (allocSys s u).2.host = s.host := by unfold allocSys; split <;> rfl
@[simp] theorem allocSys_mbx (s : State) (u : SysUse) : (allocSys s u).2.mbx = s.mbx := by unfold allocSys; split <;> rfl
@[simp] theorem allocSys_seq (s : State) (u : SysUse) : (allocSys s u).2.seq = s.seq := by unfold allocSys; split <;> rfl
@[simp] theorem allocSys_jnl (s : State) (u : SysUse) : (allocSys s u).2.jnl = s.jnl := by unfold allocSys; split <;> rfl
/-- Registers after an allocation from the system reserve. -/
theorem allocSys_reg (s : State) (u : SysUse) {b : Nat} (h : b ≠ 0x2006 ∧ b ≠ 0x2008) : (allocSys s u).2.reg b = s.reg b := by
  unfold allocSys
  split
  · rfl
  · rw [State.reg_setBit_other _ _ _ _ h.1, State.reg_count_other _ _ _ _ h.2]

/-! ## `loseRecord` -/
@[simp] theorem loseRecord_pending (s : State) : (loseRecord s).pending = s.pending := rfl
@[simp] theorem loseRecord_chip (s : State) : (loseRecord s).chip = s.chip := rfl
@[simp] theorem loseRecord_hold (s : State) : (loseRecord s).hold = s.hold := rfl
@[simp] theorem loseRecord_ext (s : State) : (loseRecord s).ext = s.ext := rfl
@[simp] theorem loseRecord_power (s : State) : (loseRecord s).power = s.power := rfl
@[simp] theorem loseRecord_boot (s : State) : (loseRecord s).boot = s.boot := rfl
@[simp] theorem loseRecord_strap (s : State) : (loseRecord s).strap = s.strap := rfl
@[simp] theorem loseRecord_shadow (s : State) : (loseRecord s).shadow = s.shadow := rfl
@[simp] theorem loseRecord_commit (s : State) : (loseRecord s).commit = s.commit := rfl
@[simp] theorem loseRecord_circs (s : State) : (loseRecord s).circs = s.circs := rfl
@[simp] theorem loseRecord_ports (s : State) : (loseRecord s).ports = s.ports := rfl
@[simp] theorem loseRecord_ctxs (s : State) : (loseRecord s).ctxs = s.ctxs := rfl
@[simp] theorem loseRecord_outQ (s : State) : (loseRecord s).outQ = s.outQ := rfl
@[simp] theorem loseRecord_credits (s : State) : (loseRecord s).credits = s.credits := rfl
@[simp] theorem loseRecord_ctlWait (s : State) : (loseRecord s).ctlWait = s.ctlWait := rfl
@[simp] theorem loseRecord_fab (s : State) : (loseRecord s).fab = s.fab := rfl
@[simp] theorem loseRecord_canA (s : State) : (loseRecord s).canA = s.canA := rfl
@[simp] theorem loseRecord_canB (s : State) : (loseRecord s).canB = s.canB := rfl
@[simp] theorem loseRecord_tim (s : State) : (loseRecord s).tim = s.tim := rfl
@[simp] theorem loseRecord_pool (s : State) : (loseRecord s).pool = s.pool := rfl
@[simp] theorem loseRecord_sup (s : State) : (loseRecord s).sup = s.sup := rfl
@[simp] theorem loseRecord_mem (s : State) : (loseRecord s).mem = s.mem := rfl
@[simp] theorem loseRecord_jwrite (s : State) : (loseRecord s).jwrite = s.jwrite := rfl
@[simp] theorem loseRecord_host (s : State) : (loseRecord s).host = s.host := rfl
@[simp] theorem loseRecord_mbx (s : State) : (loseRecord s).mbx = s.mbx := rfl
@[simp] theorem loseRecord_seq (s : State) : (loseRecord s).seq = s.seq := rfl
/-! ## `stageRecord` -/
@[simp] theorem stageRecord_pending (s : State) (r : JRec) : (stageRecord s r).pending = s.pending := by
  unfold stageRecord
  split
  · rfl
  · split <;> (next h => have e := allocSys_pending s .jnl; rw [h] at e; exact e)
@[simp] theorem stageRecord_chip (s : State) (r : JRec) : (stageRecord s r).chip = s.chip := by
  unfold stageRecord
  split
  · rfl
  · split <;> (next h => have e := allocSys_chip s .jnl; rw [h] at e; exact e)
@[simp] theorem stageRecord_hold (s : State) (r : JRec) : (stageRecord s r).hold = s.hold := by
  unfold stageRecord
  split
  · rfl
  · split <;> (next h => have e := allocSys_hold s .jnl; rw [h] at e; exact e)
@[simp] theorem stageRecord_ext (s : State) (r : JRec) : (stageRecord s r).ext = s.ext := by
  unfold stageRecord
  split
  · rfl
  · split <;> (next h => have e := allocSys_ext s .jnl; rw [h] at e; exact e)
@[simp] theorem stageRecord_power (s : State) (r : JRec) : (stageRecord s r).power = s.power := by
  unfold stageRecord
  split
  · rfl
  · split <;> (next h => have e := allocSys_power s .jnl; rw [h] at e; exact e)
@[simp] theorem stageRecord_boot (s : State) (r : JRec) : (stageRecord s r).boot = s.boot := by
  unfold stageRecord
  split
  · rfl
  · split <;> (next h => have e := allocSys_boot s .jnl; rw [h] at e; exact e)
@[simp] theorem stageRecord_strap (s : State) (r : JRec) : (stageRecord s r).strap = s.strap := by
  unfold stageRecord
  split
  · rfl
  · split <;> (next h => have e := allocSys_strap s .jnl; rw [h] at e; exact e)
@[simp] theorem stageRecord_shadow (s : State) (r : JRec) : (stageRecord s r).shadow = s.shadow := by
  unfold stageRecord
  split
  · rfl
  · split <;> (next h => have e := allocSys_shadow s .jnl; rw [h] at e; exact e)
@[simp] theorem stageRecord_commit (s : State) (r : JRec) : (stageRecord s r).commit = s.commit := by
  unfold stageRecord
  split
  · rfl
  · split <;> (next h => have e := allocSys_commit s .jnl; rw [h] at e; exact e)
@[simp] theorem stageRecord_circs (s : State) (r : JRec) : (stageRecord s r).circs = s.circs := by
  unfold stageRecord
  split
  · rfl
  · split <;> (next h => have e := allocSys_circs s .jnl; rw [h] at e; exact e)
@[simp] theorem stageRecord_ports (s : State) (r : JRec) : (stageRecord s r).ports = s.ports := by
  unfold stageRecord
  split
  · rfl
  · split <;> (next h => have e := allocSys_ports s .jnl; rw [h] at e; exact e)
@[simp] theorem stageRecord_ctxs (s : State) (r : JRec) : (stageRecord s r).ctxs = s.ctxs := by
  unfold stageRecord
  split
  · rfl
  · split <;> (next h => have e := allocSys_ctxs s .jnl; rw [h] at e; exact e)
@[simp] theorem stageRecord_outQ (s : State) (r : JRec) : (stageRecord s r).outQ = s.outQ := by
  unfold stageRecord
  split
  · rfl
  · split <;> (next h => have e := allocSys_outQ s .jnl; rw [h] at e; exact e)
@[simp] theorem stageRecord_credits (s : State) (r : JRec) : (stageRecord s r).credits = s.credits := by
  unfold stageRecord
  split
  · rfl
  · split <;> (next h => have e := allocSys_credits s .jnl; rw [h] at e; exact e)
@[simp] theorem stageRecord_ctlWait (s : State) (r : JRec) : (stageRecord s r).ctlWait = s.ctlWait := by
  unfold stageRecord
  split
  · rfl
  · split <;> (next h => have e := allocSys_ctlWait s .jnl; rw [h] at e; exact e)
@[simp] theorem stageRecord_fab (s : State) (r : JRec) : (stageRecord s r).fab = s.fab := by
  unfold stageRecord
  split
  · rfl
  · split <;> (next h => have e := allocSys_fab s .jnl; rw [h] at e; exact e)
@[simp] theorem stageRecord_canA (s : State) (r : JRec) : (stageRecord s r).canA = s.canA := by
  unfold stageRecord
  split
  · rfl
  · split <;> (next h => have e := allocSys_canA s .jnl; rw [h] at e; exact e)
@[simp] theorem stageRecord_canB (s : State) (r : JRec) : (stageRecord s r).canB = s.canB := by
  unfold stageRecord
  split
  · rfl
  · split <;> (next h => have e := allocSys_canB s .jnl; rw [h] at e; exact e)
@[simp] theorem stageRecord_tim (s : State) (r : JRec) : (stageRecord s r).tim = s.tim := by
  unfold stageRecord
  split
  · rfl
  · split <;> (next h => have e := allocSys_tim s .jnl; rw [h] at e; exact e)
@[simp] theorem stageRecord_pool (s : State) (r : JRec) : (stageRecord s r).pool = s.pool := by
  unfold stageRecord
  split
  · rfl
  · split <;> (next h => have e := allocSys_pool s .jnl; rw [h] at e; exact e)
@[simp] theorem stageRecord_sup (s : State) (r : JRec) : (stageRecord s r).sup = s.sup := by
  unfold stageRecord
  split
  · rfl
  · split <;> (next h => have e := allocSys_sup s .jnl; rw [h] at e; exact e)
@[simp] theorem stageRecord_mem (s : State) (r : JRec) : (stageRecord s r).mem = s.mem := by
  unfold stageRecord
  split
  · rfl
  · split <;> (next h => have e := allocSys_mem s .jnl; rw [h] at e; exact e)
@[simp] theorem stageRecord_jwrite (s : State) (r : JRec) : (stageRecord s r).jwrite = s.jwrite := by
  unfold stageRecord
  split
  · rfl
  · split <;> (next h => have e := allocSys_jwrite s .jnl; rw [h] at e; exact e)
@[simp] theorem stageRecord_host (s : State) (r : JRec) : (stageRecord s r).host = s.host := by
  unfold stageRecord
  split
  · rfl
  · split <;> (next h => have e := allocSys_host s .jnl; rw [h] at e; exact e)
@[simp] theorem stageRecord_mbx (s : State) (r : JRec) : (stageRecord s r).mbx = s.mbx := by
  unfold stageRecord
  split
  · rfl
  · split <;> (next h => have e := allocSys_mbx s .jnl; rw [h] at e; exact e)
@[simp] theorem stageRecord_seq (s : State) (r : JRec) : (stageRecord s r).seq = s.seq := by
  unfold stageRecord
  split
  · rfl
  · split <;> (next h => have e := allocSys_seq s .jnl; rw [h] at e; exact e)
/-- The words that a record may touch. -/
def recordWords (b : Nat) : Prop := b = 0x2006 ∨ b = 0x2008 ∨ b = 0x3107 ∨ b = 0x3109

/-- Registers after a record that is lost. -/
theorem loseRecord_reg (s : State) {b : Nat} (h : ¬ recordWords b) : (loseRecord s).reg b = s.reg b := by
  unfold recordWords at h
  unfold loseRecord
  rw [State.reg_setBit_other _ _ _ _ (by omega), State.reg_count_other _ _ _ _ (by omega)]

/-- Registers after a record is staged. -/
theorem stageRecord_reg (s : State) (r : JRec) {b : Nat} (h : ¬ recordWords b) : (stageRecord s r).reg b = s.reg b := by
  have h' : b ≠ 0x2006 ∧ b ≠ 0x2008 := by unfold recordWords at h; omega
  unfold stageRecord
  split
  · exact loseRecord_reg s h
  · split <;> (next e => have f := allocSys_reg s .jnl h'; rw [e] at f; exact f)

/-! ## `journalStruct` -/
@[simp] theorem journalStruct_pending (s : State) (t src : Nat) (p : List Byte) : (journalStruct s t src p).pending = s.pending := stageRecord_pending s _
@[simp] theorem journalStruct_chip (s : State) (t src : Nat) (p : List Byte) : (journalStruct s t src p).chip = s.chip := stageRecord_chip s _
@[simp] theorem journalStruct_hold (s : State) (t src : Nat) (p : List Byte) : (journalStruct s t src p).hold = s.hold := stageRecord_hold s _
@[simp] theorem journalStruct_ext (s : State) (t src : Nat) (p : List Byte) : (journalStruct s t src p).ext = s.ext := stageRecord_ext s _
@[simp] theorem journalStruct_power (s : State) (t src : Nat) (p : List Byte) : (journalStruct s t src p).power = s.power := stageRecord_power s _
@[simp] theorem journalStruct_boot (s : State) (t src : Nat) (p : List Byte) : (journalStruct s t src p).boot = s.boot := stageRecord_boot s _
@[simp] theorem journalStruct_strap (s : State) (t src : Nat) (p : List Byte) : (journalStruct s t src p).strap = s.strap := stageRecord_strap s _
@[simp] theorem journalStruct_shadow (s : State) (t src : Nat) (p : List Byte) : (journalStruct s t src p).shadow = s.shadow := stageRecord_shadow s _
@[simp] theorem journalStruct_commit (s : State) (t src : Nat) (p : List Byte) : (journalStruct s t src p).commit = s.commit := stageRecord_commit s _
@[simp] theorem journalStruct_circs (s : State) (t src : Nat) (p : List Byte) : (journalStruct s t src p).circs = s.circs := stageRecord_circs s _
@[simp] theorem journalStruct_ports (s : State) (t src : Nat) (p : List Byte) : (journalStruct s t src p).ports = s.ports := stageRecord_ports s _
@[simp] theorem journalStruct_ctxs (s : State) (t src : Nat) (p : List Byte) : (journalStruct s t src p).ctxs = s.ctxs := stageRecord_ctxs s _
@[simp] theorem journalStruct_outQ (s : State) (t src : Nat) (p : List Byte) : (journalStruct s t src p).outQ = s.outQ := stageRecord_outQ s _
@[simp] theorem journalStruct_credits (s : State) (t src : Nat) (p : List Byte) : (journalStruct s t src p).credits = s.credits := stageRecord_credits s _
@[simp] theorem journalStruct_ctlWait (s : State) (t src : Nat) (p : List Byte) : (journalStruct s t src p).ctlWait = s.ctlWait := stageRecord_ctlWait s _
@[simp] theorem journalStruct_fab (s : State) (t src : Nat) (p : List Byte) : (journalStruct s t src p).fab = s.fab := stageRecord_fab s _
@[simp] theorem journalStruct_canA (s : State) (t src : Nat) (p : List Byte) : (journalStruct s t src p).canA = s.canA := stageRecord_canA s _
@[simp] theorem journalStruct_canB (s : State) (t src : Nat) (p : List Byte) : (journalStruct s t src p).canB = s.canB := stageRecord_canB s _
@[simp] theorem journalStruct_tim (s : State) (t src : Nat) (p : List Byte) : (journalStruct s t src p).tim = s.tim := stageRecord_tim s _
@[simp] theorem journalStruct_pool (s : State) (t src : Nat) (p : List Byte) : (journalStruct s t src p).pool = s.pool := stageRecord_pool s _
@[simp] theorem journalStruct_sup (s : State) (t src : Nat) (p : List Byte) : (journalStruct s t src p).sup = s.sup := stageRecord_sup s _
@[simp] theorem journalStruct_mem (s : State) (t src : Nat) (p : List Byte) : (journalStruct s t src p).mem = s.mem := stageRecord_mem s _
@[simp] theorem journalStruct_jwrite (s : State) (t src : Nat) (p : List Byte) : (journalStruct s t src p).jwrite = s.jwrite := stageRecord_jwrite s _
@[simp] theorem journalStruct_host (s : State) (t src : Nat) (p : List Byte) : (journalStruct s t src p).host = s.host := stageRecord_host s _
@[simp] theorem journalStruct_mbx (s : State) (t src : Nat) (p : List Byte) : (journalStruct s t src p).mbx = s.mbx := stageRecord_mbx s _
@[simp] theorem journalStruct_seq (s : State) (t src : Nat) (p : List Byte) : (journalStruct s t src p).seq = s.seq := stageRecord_seq s _
/-! ## `journal` -/
@[simp] theorem journal_pending (s : State) (t src : Nat) (p : List Byte) : (journal s t src p).pending = s.pending := by
  unfold journal
  dsimp only
  split
  · exact stageRecord_pending s _
  · split
    · exact loseRecord_pending s
    · exact stageRecord_pending _ _
@[simp] theorem journal_chip (s : State) (t src : Nat) (p : List Byte) : (journal s t src p).chip = s.chip := by
  unfold journal
  dsimp only
  split
  · exact stageRecord_chip s _
  · split
    · exact loseRecord_chip s
    · exact stageRecord_chip _ _
@[simp] theorem journal_hold (s : State) (t src : Nat) (p : List Byte) : (journal s t src p).hold = s.hold := by
  unfold journal
  dsimp only
  split
  · exact stageRecord_hold s _
  · split
    · exact loseRecord_hold s
    · exact stageRecord_hold _ _
@[simp] theorem journal_ext (s : State) (t src : Nat) (p : List Byte) : (journal s t src p).ext = s.ext := by
  unfold journal
  dsimp only
  split
  · exact stageRecord_ext s _
  · split
    · exact loseRecord_ext s
    · exact stageRecord_ext _ _
@[simp] theorem journal_power (s : State) (t src : Nat) (p : List Byte) : (journal s t src p).power = s.power := by
  unfold journal
  dsimp only
  split
  · exact stageRecord_power s _
  · split
    · exact loseRecord_power s
    · exact stageRecord_power _ _
@[simp] theorem journal_boot (s : State) (t src : Nat) (p : List Byte) : (journal s t src p).boot = s.boot := by
  unfold journal
  dsimp only
  split
  · exact stageRecord_boot s _
  · split
    · exact loseRecord_boot s
    · exact stageRecord_boot _ _
@[simp] theorem journal_strap (s : State) (t src : Nat) (p : List Byte) : (journal s t src p).strap = s.strap := by
  unfold journal
  dsimp only
  split
  · exact stageRecord_strap s _
  · split
    · exact loseRecord_strap s
    · exact stageRecord_strap _ _
@[simp] theorem journal_shadow (s : State) (t src : Nat) (p : List Byte) : (journal s t src p).shadow = s.shadow := by
  unfold journal
  dsimp only
  split
  · exact stageRecord_shadow s _
  · split
    · exact loseRecord_shadow s
    · exact stageRecord_shadow _ _
@[simp] theorem journal_commit (s : State) (t src : Nat) (p : List Byte) : (journal s t src p).commit = s.commit := by
  unfold journal
  dsimp only
  split
  · exact stageRecord_commit s _
  · split
    · exact loseRecord_commit s
    · exact stageRecord_commit _ _
@[simp] theorem journal_circs (s : State) (t src : Nat) (p : List Byte) : (journal s t src p).circs = s.circs := by
  unfold journal
  dsimp only
  split
  · exact stageRecord_circs s _
  · split
    · exact loseRecord_circs s
    · exact stageRecord_circs _ _
@[simp] theorem journal_ports (s : State) (t src : Nat) (p : List Byte) : (journal s t src p).ports = s.ports := by
  unfold journal
  dsimp only
  split
  · exact stageRecord_ports s _
  · split
    · exact loseRecord_ports s
    · exact stageRecord_ports _ _
@[simp] theorem journal_ctxs (s : State) (t src : Nat) (p : List Byte) : (journal s t src p).ctxs = s.ctxs := by
  unfold journal
  dsimp only
  split
  · exact stageRecord_ctxs s _
  · split
    · exact loseRecord_ctxs s
    · exact stageRecord_ctxs _ _
@[simp] theorem journal_outQ (s : State) (t src : Nat) (p : List Byte) : (journal s t src p).outQ = s.outQ := by
  unfold journal
  dsimp only
  split
  · exact stageRecord_outQ s _
  · split
    · exact loseRecord_outQ s
    · exact stageRecord_outQ _ _
@[simp] theorem journal_credits (s : State) (t src : Nat) (p : List Byte) : (journal s t src p).credits = s.credits := by
  unfold journal
  dsimp only
  split
  · exact stageRecord_credits s _
  · split
    · exact loseRecord_credits s
    · exact stageRecord_credits _ _
@[simp] theorem journal_ctlWait (s : State) (t src : Nat) (p : List Byte) : (journal s t src p).ctlWait = s.ctlWait := by
  unfold journal
  dsimp only
  split
  · exact stageRecord_ctlWait s _
  · split
    · exact loseRecord_ctlWait s
    · exact stageRecord_ctlWait _ _
@[simp] theorem journal_fab (s : State) (t src : Nat) (p : List Byte) : (journal s t src p).fab = s.fab := by
  unfold journal
  dsimp only
  split
  · exact stageRecord_fab s _
  · split
    · exact loseRecord_fab s
    · exact stageRecord_fab _ _
@[simp] theorem journal_canA (s : State) (t src : Nat) (p : List Byte) : (journal s t src p).canA = s.canA := by
  unfold journal
  dsimp only
  split
  · exact stageRecord_canA s _
  · split
    · exact loseRecord_canA s
    · exact stageRecord_canA _ _
@[simp] theorem journal_canB (s : State) (t src : Nat) (p : List Byte) : (journal s t src p).canB = s.canB := by
  unfold journal
  dsimp only
  split
  · exact stageRecord_canB s _
  · split
    · exact loseRecord_canB s
    · exact stageRecord_canB _ _
@[simp] theorem journal_tim (s : State) (t src : Nat) (p : List Byte) : (journal s t src p).tim = s.tim := by
  unfold journal
  dsimp only
  split
  · exact stageRecord_tim s _
  · split
    · exact loseRecord_tim s
    · exact stageRecord_tim _ _
@[simp] theorem journal_pool (s : State) (t src : Nat) (p : List Byte) : (journal s t src p).pool = s.pool := by
  unfold journal
  dsimp only
  split
  · exact stageRecord_pool s _
  · split
    · exact loseRecord_pool s
    · exact stageRecord_pool _ _
@[simp] theorem journal_sup (s : State) (t src : Nat) (p : List Byte) : (journal s t src p).sup = s.sup := by
  unfold journal
  dsimp only
  split
  · exact stageRecord_sup s _
  · split
    · exact loseRecord_sup s
    · exact stageRecord_sup _ _
@[simp] theorem journal_mem (s : State) (t src : Nat) (p : List Byte) : (journal s t src p).mem = s.mem := by
  unfold journal
  dsimp only
  split
  · exact stageRecord_mem s _
  · split
    · exact loseRecord_mem s
    · exact stageRecord_mem _ _
@[simp] theorem journal_jwrite (s : State) (t src : Nat) (p : List Byte) : (journal s t src p).jwrite = s.jwrite := by
  unfold journal
  dsimp only
  split
  · exact stageRecord_jwrite s _
  · split
    · exact loseRecord_jwrite s
    · exact stageRecord_jwrite _ _
@[simp] theorem journal_host (s : State) (t src : Nat) (p : List Byte) : (journal s t src p).host = s.host := by
  unfold journal
  dsimp only
  split
  · exact stageRecord_host s _
  · split
    · exact loseRecord_host s
    · exact stageRecord_host _ _
@[simp] theorem journal_mbx (s : State) (t src : Nat) (p : List Byte) : (journal s t src p).mbx = s.mbx := by
  unfold journal
  dsimp only
  split
  · exact stageRecord_mbx s _
  · split
    · exact loseRecord_mbx s
    · exact stageRecord_mbx _ _
@[simp] theorem journal_seq (s : State) (t src : Nat) (p : List Byte) : (journal s t src p).seq = s.seq := by
  unfold journal
  dsimp only
  split
  · exact stageRecord_seq s _
  · split
    · exact loseRecord_seq s
    · exact stageRecord_seq _ _
/-- Registers after a record is journaled. -/
theorem journalStruct_reg (s : State) (t src : Nat) (p : List Byte) {b : Nat} (h : ¬ recordWords b) :
    (journalStruct s t src p).reg b = s.reg b := stageRecord_reg s _ h
theorem journal_reg (s : State) (t src : Nat) (p : List Byte) {b : Nat} (h : ¬ recordWords b) : (journal s t src p).reg b = s.reg b := by
  unfold journal
  dsimp only
  split
  · exact stageRecord_reg s _ h
  · split
    · exact loseRecord_reg s h
    · exact stageRecord_reg _ _ h

/-! ## The fault catalogue -/
@[simp] theorem raiseFault_pending (s : State) (c : Nat) : (raiseFault s c).pending = s.pending := by
  unfold raiseFault; dsimp only; split
  · rfl
  · split <;> rfl
@[simp] theorem clearFault_pending (s : State) (c : Nat) : (clearFault s c).pending = s.pending := by
  unfold clearFault; dsimp only; split <;> rfl
@[simp] theorem putFault_pending (s : State) (c : Nat) (b : Bool) : (putFault s c b).pending = s.pending := by
  unfold putFault; split
  · exact raiseFault_pending s c
  · exact clearFault_pending s c
@[simp] theorem raiseFault_chip (s : State) (c : Nat) : (raiseFault s c).chip = s.chip := by
  unfold raiseFault; dsimp only; split
  · rfl
  · split <;> rfl
@[simp] theorem clearFault_chip (s : State) (c : Nat) : (clearFault s c).chip = s.chip := by
  unfold clearFault; dsimp only; split <;> rfl
@[simp] theorem putFault_chip (s : State) (c : Nat) (b : Bool) : (putFault s c b).chip = s.chip := by
  unfold putFault; split
  · exact raiseFault_chip s c
  · exact clearFault_chip s c
@[simp] theorem raiseFault_fresh (s : State) (c : Nat) : (raiseFault s c).fresh = s.fresh := by
  unfold raiseFault; dsimp only; split
  · rfl
  · split <;> rfl
@[simp] theorem clearFault_fresh (s : State) (c : Nat) : (clearFault s c).fresh = s.fresh := by
  unfold clearFault; dsimp only; split <;> rfl
@[simp] theorem putFault_fresh (s : State) (c : Nat) (b : Bool) : (putFault s c b).fresh = s.fresh := by
  unfold putFault; split
  · exact raiseFault_fresh s c
  · exact clearFault_fresh s c
@[simp] theorem raiseFault_hold (s : State) (c : Nat) : (raiseFault s c).hold = s.hold := by
  unfold raiseFault; dsimp only; split
  · rfl
  · split <;> rfl
@[simp] theorem clearFault_hold (s : State) (c : Nat) : (clearFault s c).hold = s.hold := by
  unfold clearFault; dsimp only; split <;> rfl
@[simp] theorem putFault_hold (s : State) (c : Nat) (b : Bool) : (putFault s c b).hold = s.hold := by
  unfold putFault; split
  · exact raiseFault_hold s c
  · exact clearFault_hold s c
@[simp] theorem raiseFault_ext (s : State) (c : Nat) : (raiseFault s c).ext = s.ext := by
  unfold raiseFault; dsimp only; split
  · rfl
  · split <;> rfl
@[simp] theorem clearFault_ext (s : State) (c : Nat) : (clearFault s c).ext = s.ext := by
  unfold clearFault; dsimp only; split <;> rfl
@[simp] theorem putFault_ext (s : State) (c : Nat) (b : Bool) : (putFault s c b).ext = s.ext := by
  unfold putFault; split
  · exact raiseFault_ext s c
  · exact clearFault_ext s c
@[simp] theorem raiseFault_power (s : State) (c : Nat) : (raiseFault s c).power = s.power := by
  unfold raiseFault; dsimp only; split
  · rfl
  · split <;> rfl
@[simp] theorem clearFault_power (s : State) (c : Nat) : (clearFault s c).power = s.power := by
  unfold clearFault; dsimp only; split <;> rfl
@[simp] theorem putFault_power (s : State) (c : Nat) (b : Bool) : (putFault s c b).power = s.power := by
  unfold putFault; split
  · exact raiseFault_power s c
  · exact clearFault_power s c
@[simp] theorem raiseFault_boot (s : State) (c : Nat) : (raiseFault s c).boot = s.boot := by
  unfold raiseFault; dsimp only; split
  · rfl
  · split <;> rfl
@[simp] theorem clearFault_boot (s : State) (c : Nat) : (clearFault s c).boot = s.boot := by
  unfold clearFault; dsimp only; split <;> rfl
@[simp] theorem putFault_boot (s : State) (c : Nat) (b : Bool) : (putFault s c b).boot = s.boot := by
  unfold putFault; split
  · exact raiseFault_boot s c
  · exact clearFault_boot s c
@[simp] theorem raiseFault_strap (s : State) (c : Nat) : (raiseFault s c).strap = s.strap := by
  unfold raiseFault; dsimp only; split
  · rfl
  · split <;> rfl
@[simp] theorem clearFault_strap (s : State) (c : Nat) : (clearFault s c).strap = s.strap := by
  unfold clearFault; dsimp only; split <;> rfl
@[simp] theorem putFault_strap (s : State) (c : Nat) (b : Bool) : (putFault s c b).strap = s.strap := by
  unfold putFault; split
  · exact raiseFault_strap s c
  · exact clearFault_strap s c
@[simp] theorem raiseFault_shadow (s : State) (c : Nat) : (raiseFault s c).shadow = s.shadow := by
  unfold raiseFault; dsimp only; split
  · rfl
  · split <;> rfl
@[simp] theorem clearFault_shadow (s : State) (c : Nat) : (clearFault s c).shadow = s.shadow := by
  unfold clearFault; dsimp only; split <;> rfl
@[simp] theorem putFault_shadow (s : State) (c : Nat) (b : Bool) : (putFault s c b).shadow = s.shadow := by
  unfold putFault; split
  · exact raiseFault_shadow s c
  · exact clearFault_shadow s c
@[simp] theorem raiseFault_commit (s : State) (c : Nat) : (raiseFault s c).commit = s.commit := by
  unfold raiseFault; dsimp only; split
  · rfl
  · split <;> rfl
@[simp] theorem clearFault_commit (s : State) (c : Nat) : (clearFault s c).commit = s.commit := by
  unfold clearFault; dsimp only; split <;> rfl
@[simp] theorem putFault_commit (s : State) (c : Nat) (b : Bool) : (putFault s c b).commit = s.commit := by
  unfold putFault; split
  · exact raiseFault_commit s c
  · exact clearFault_commit s c
@[simp] theorem raiseFault_cells (s : State) (c : Nat) : (raiseFault s c).cells = s.cells := by
  unfold raiseFault; dsimp only; split
  · rfl
  · split <;> rfl
@[simp] theorem clearFault_cells (s : State) (c : Nat) : (clearFault s c).cells = s.cells := by
  unfold clearFault; dsimp only; split <;> rfl
@[simp] theorem putFault_cells (s : State) (c : Nat) (b : Bool) : (putFault s c b).cells = s.cells := by
  unfold putFault; split
  · exact raiseFault_cells s c
  · exact clearFault_cells s c
@[simp] theorem raiseFault_circs (s : State) (c : Nat) : (raiseFault s c).circs = s.circs := by
  unfold raiseFault; dsimp only; split
  · rfl
  · split <;> rfl
@[simp] theorem clearFault_circs (s : State) (c : Nat) : (clearFault s c).circs = s.circs := by
  unfold clearFault; dsimp only; split <;> rfl
@[simp] theorem putFault_circs (s : State) (c : Nat) (b : Bool) : (putFault s c b).circs = s.circs := by
  unfold putFault; split
  · exact raiseFault_circs s c
  · exact clearFault_circs s c
@[simp] theorem raiseFault_ports (s : State) (c : Nat) : (raiseFault s c).ports = s.ports := by
  unfold raiseFault; dsimp only; split
  · rfl
  · split <;> rfl
@[simp] theorem clearFault_ports (s : State) (c : Nat) : (clearFault s c).ports = s.ports := by
  unfold clearFault; dsimp only; split <;> rfl
@[simp] theorem putFault_ports (s : State) (c : Nat) (b : Bool) : (putFault s c b).ports = s.ports := by
  unfold putFault; split
  · exact raiseFault_ports s c
  · exact clearFault_ports s c
@[simp] theorem raiseFault_ctxs (s : State) (c : Nat) : (raiseFault s c).ctxs = s.ctxs := by
  unfold raiseFault; dsimp only; split
  · rfl
  · split <;> rfl
@[simp] theorem clearFault_ctxs (s : State) (c : Nat) : (clearFault s c).ctxs = s.ctxs := by
  unfold clearFault; dsimp only; split <;> rfl
@[simp] theorem putFault_ctxs (s : State) (c : Nat) (b : Bool) : (putFault s c b).ctxs = s.ctxs := by
  unfold putFault; split
  · exact raiseFault_ctxs s c
  · exact clearFault_ctxs s c
@[simp] theorem raiseFault_outQ (s : State) (c : Nat) : (raiseFault s c).outQ = s.outQ := by
  unfold raiseFault; dsimp only; split
  · rfl
  · split <;> rfl
@[simp] theorem clearFault_outQ (s : State) (c : Nat) : (clearFault s c).outQ = s.outQ := by
  unfold clearFault; dsimp only; split <;> rfl
@[simp] theorem putFault_outQ (s : State) (c : Nat) (b : Bool) : (putFault s c b).outQ = s.outQ := by
  unfold putFault; split
  · exact raiseFault_outQ s c
  · exact clearFault_outQ s c
@[simp] theorem raiseFault_credits (s : State) (c : Nat) : (raiseFault s c).credits = s.credits := by
  unfold raiseFault; dsimp only; split
  · rfl
  · split <;> rfl
@[simp] theorem clearFault_credits (s : State) (c : Nat) : (clearFault s c).credits = s.credits := by
  unfold clearFault; dsimp only; split <;> rfl
@[simp] theorem putFault_credits (s : State) (c : Nat) (b : Bool) : (putFault s c b).credits = s.credits := by
  unfold putFault; split
  · exact raiseFault_credits s c
  · exact clearFault_credits s c
@[simp] theorem raiseFault_ctlWait (s : State) (c : Nat) : (raiseFault s c).ctlWait = s.ctlWait := by
  unfold raiseFault; dsimp only; split
  · rfl
  · split <;> rfl
@[simp] theorem clearFault_ctlWait (s : State) (c : Nat) : (clearFault s c).ctlWait = s.ctlWait := by
  unfold clearFault; dsimp only; split <;> rfl
@[simp] theorem putFault_ctlWait (s : State) (c : Nat) (b : Bool) : (putFault s c b).ctlWait = s.ctlWait := by
  unfold putFault; split
  · exact raiseFault_ctlWait s c
  · exact clearFault_ctlWait s c
@[simp] theorem raiseFault_fab (s : State) (c : Nat) : (raiseFault s c).fab = s.fab := by
  unfold raiseFault; dsimp only; split
  · rfl
  · split <;> rfl
@[simp] theorem clearFault_fab (s : State) (c : Nat) : (clearFault s c).fab = s.fab := by
  unfold clearFault; dsimp only; split <;> rfl
@[simp] theorem putFault_fab (s : State) (c : Nat) (b : Bool) : (putFault s c b).fab = s.fab := by
  unfold putFault; split
  · exact raiseFault_fab s c
  · exact clearFault_fab s c
@[simp] theorem raiseFault_canA (s : State) (c : Nat) : (raiseFault s c).canA = s.canA := by
  unfold raiseFault; dsimp only; split
  · rfl
  · split <;> rfl
@[simp] theorem clearFault_canA (s : State) (c : Nat) : (clearFault s c).canA = s.canA := by
  unfold clearFault; dsimp only; split <;> rfl
@[simp] theorem putFault_canA (s : State) (c : Nat) (b : Bool) : (putFault s c b).canA = s.canA := by
  unfold putFault; split
  · exact raiseFault_canA s c
  · exact clearFault_canA s c
@[simp] theorem raiseFault_canB (s : State) (c : Nat) : (raiseFault s c).canB = s.canB := by
  unfold raiseFault; dsimp only; split
  · rfl
  · split <;> rfl
@[simp] theorem clearFault_canB (s : State) (c : Nat) : (clearFault s c).canB = s.canB := by
  unfold clearFault; dsimp only; split <;> rfl
@[simp] theorem putFault_canB (s : State) (c : Nat) (b : Bool) : (putFault s c b).canB = s.canB := by
  unfold putFault; split
  · exact raiseFault_canB s c
  · exact clearFault_canB s c
@[simp] theorem raiseFault_tim (s : State) (c : Nat) : (raiseFault s c).tim = s.tim := by
  unfold raiseFault; dsimp only; split
  · rfl
  · split <;> rfl
@[simp] theorem clearFault_tim (s : State) (c : Nat) : (clearFault s c).tim = s.tim := by
  unfold clearFault; dsimp only; split <;> rfl
@[simp] theorem putFault_tim (s : State) (c : Nat) (b : Bool) : (putFault s c b).tim = s.tim := by
  unfold putFault; split
  · exact raiseFault_tim s c
  · exact clearFault_tim s c
@[simp] theorem raiseFault_pool (s : State) (c : Nat) : (raiseFault s c).pool = s.pool := by
  unfold raiseFault; dsimp only; split
  · rfl
  · split <;> rfl
@[simp] theorem clearFault_pool (s : State) (c : Nat) : (clearFault s c).pool = s.pool := by
  unfold clearFault; dsimp only; split <;> rfl
@[simp] theorem putFault_pool (s : State) (c : Nat) (b : Bool) : (putFault s c b).pool = s.pool := by
  unfold putFault; split
  · exact raiseFault_pool s c
  · exact clearFault_pool s c
@[simp] theorem raiseFault_sup (s : State) (c : Nat) : (raiseFault s c).sup = s.sup := by
  unfold raiseFault; dsimp only; split
  · rfl
  · split <;> rfl
@[simp] theorem clearFault_sup (s : State) (c : Nat) : (clearFault s c).sup = s.sup := by
  unfold clearFault; dsimp only; split <;> rfl
@[simp] theorem putFault_sup (s : State) (c : Nat) (b : Bool) : (putFault s c b).sup = s.sup := by
  unfold putFault; split
  · exact raiseFault_sup s c
  · exact clearFault_sup s c
@[simp] theorem raiseFault_jnl (s : State) (c : Nat) : (raiseFault s c).jnl = s.jnl := by
  unfold raiseFault; dsimp only; split
  · rfl
  · split <;> rfl
@[simp] theorem clearFault_jnl (s : State) (c : Nat) : (clearFault s c).jnl = s.jnl := by
  unfold clearFault; dsimp only; split <;> rfl
@[simp] theorem putFault_jnl (s : State) (c : Nat) (b : Bool) : (putFault s c b).jnl = s.jnl := by
  unfold putFault; split
  · exact raiseFault_jnl s c
  · exact clearFault_jnl s c
@[simp] theorem raiseFault_mem (s : State) (c : Nat) : (raiseFault s c).mem = s.mem := by
  unfold raiseFault; dsimp only; split
  · rfl
  · split <;> rfl
@[simp] theorem clearFault_mem (s : State) (c : Nat) : (clearFault s c).mem = s.mem := by
  unfold clearFault; dsimp only; split <;> rfl
@[simp] theorem putFault_mem (s : State) (c : Nat) (b : Bool) : (putFault s c b).mem = s.mem := by
  unfold putFault; split
  · exact raiseFault_mem s c
  · exact clearFault_mem s c
@[simp] theorem raiseFault_jwrite (s : State) (c : Nat) : (raiseFault s c).jwrite = s.jwrite := by
  unfold raiseFault; dsimp only; split
  · rfl
  · split <;> rfl
@[simp] theorem clearFault_jwrite (s : State) (c : Nat) : (clearFault s c).jwrite = s.jwrite := by
  unfold clearFault; dsimp only; split <;> rfl
@[simp] theorem putFault_jwrite (s : State) (c : Nat) (b : Bool) : (putFault s c b).jwrite = s.jwrite := by
  unfold putFault; split
  · exact raiseFault_jwrite s c
  · exact clearFault_jwrite s c
@[simp] theorem raiseFault_host (s : State) (c : Nat) : (raiseFault s c).host = s.host := by
  unfold raiseFault; dsimp only; split
  · rfl
  · split <;> rfl
@[simp] theorem clearFault_host (s : State) (c : Nat) : (clearFault s c).host = s.host := by
  unfold clearFault; dsimp only; split <;> rfl
@[simp] theorem putFault_host (s : State) (c : Nat) (b : Bool) : (putFault s c b).host = s.host := by
  unfold putFault; split
  · exact raiseFault_host s c
  · exact clearFault_host s c
@[simp] theorem raiseFault_mbx (s : State) (c : Nat) : (raiseFault s c).mbx = s.mbx := by
  unfold raiseFault; dsimp only; split
  · rfl
  · split <;> rfl
@[simp] theorem clearFault_mbx (s : State) (c : Nat) : (clearFault s c).mbx = s.mbx := by
  unfold clearFault; dsimp only; split <;> rfl
@[simp] theorem putFault_mbx (s : State) (c : Nat) (b : Bool) : (putFault s c b).mbx = s.mbx := by
  unfold putFault; split
  · exact raiseFault_mbx s c
  · exact clearFault_mbx s c
@[simp] theorem raiseFault_seq (s : State) (c : Nat) : (raiseFault s c).seq = s.seq := by
  unfold raiseFault; dsimp only; split
  · rfl
  · split <;> rfl
@[simp] theorem clearFault_seq (s : State) (c : Nat) : (clearFault s c).seq = s.seq := by
  unfold clearFault; dsimp only; split <;> rfl
@[simp] theorem putFault_seq (s : State) (c : Nat) (b : Bool) : (putFault s c b).seq = s.seq := by
  unfold putFault; split
  · exact raiseFault_seq s c
  · exact clearFault_seq s c
/-- Registers after a fault is raised or cleared. -/
theorem raiseFault_reg (s : State) (c : Nat) {b : Nat} (h : b ≠ 0x300 ∧ b ≠ 0x301 ∧ b ≠ 0x302) : (raiseFault s c).reg b = s.reg b := by
  have e : (((s.setBit 0x300 (c - 1)).setBit 0x301 (c - 1)).setBit 0x302 8).reg b = s.reg b := by
    rw [State.reg_setBit_other _ _ _ _ h.2.2, State.reg_setBit_other _ _ _ _ h.2.1, State.reg_setBit_other _ _ _ _ h.1]
  unfold raiseFault
  dsimp only
  split
  · rfl
  · split
    · exact (State.reg_setFld_other _ _ _ _ _ h.1).trans e
    · exact e
theorem clearFault_reg (s : State) (c : Nat) {b : Nat} (h : b ≠ 0x300) : (clearFault s c).reg b = s.reg b := by
  unfold clearFault
  dsimp only
  split
  · rw [State.reg_setFld_other _ _ _ _ _ h, State.reg_setBit_other _ _ _ _ h]
  · exact State.reg_setBit_other _ _ _ _ h

end Sys2Proof.Machine
end

