-- ==== Sys2Proof/Laws/Seq.lean ====
section
/-! SUPPORT. Sys2Proof/Laws/Seq.lean: what issuing an instruction comes to: the fetch, the counts, the effect and the program address. -/
namespace Sys2Proof.Machine

/-! ## Contexts -/

@[simp] theorem ctx_setCtx_same (s : State) (x : Nat) (k : Ctx) : (s.setCtx x k).ctx x = k := by simp [State.ctx_setCtx]
/-- The last change of a context is the one that counts. -/
@[simp] theorem setCtx_setCtx (s : State) (x : Nat) (k l : Ctx) : (s.setCtx x k).setCtx x l = s.setCtx x l := by
  unfold State.setCtx; simp
theorem ctx_setCtx_other (s : State) (x : Nat) (k : Ctx) {y : Nat} (h : y ≠ x) : (s.setCtx x k).ctx y = s.ctx y := by
  rw [State.ctx_setCtx, if_neg h]
/-- A changed context reads as it was changed to. -/
@[simp] theorem ctx_modCtx (s : State) (x : Nat) (f : Ctx → Ctx) : (modCtx s x f).ctx x = f (s.ctx x) := by simp [modCtx]
theorem ctx_modCtx_other (s : State) (x : Nat) (f : Ctx → Ctx) {y : Nat} (h : y ≠ x) : (modCtx s x f).ctx y = s.ctx y :=
  ctx_setCtx_other s x _ h
/-- Two changes of one context are one. -/
theorem modCtx_modCtx (s : State) (x : Nat) (f g : Ctx → Ctx) : modCtx (modCtx s x f) x g = modCtx s x (fun k => g (f k)) := by
  simp [modCtx]
@[simp] theorem ctx_setGreg (s : State) (x : Nat) (r : Reg) (v : Word) :
    (setGreg s x r v).ctx x = { s.ctx x with g := (fset (fun _ => 0#32) (s.ctx x).g r.val v), gBad := ((s.ctx x).gBad.filter (· != r.val)) } :=
  ctx_modCtx s x _
/-- A general register after a write of one. -/
theorem greg_setGreg (s : State) (x : Nat) (d r : Reg) (v : Word) :
    greg (setGreg s x d v) x r = if r = d then v else greg s x r := by
  unfold greg
  rw [ctx_setGreg]
  show fget (fun _ => 0#32) (fset (fun _ => 0#32) _ _ _) _ = _
  rw [fget_fset]
  by_cases h : r = d
  · subst h; simp
  · rw [if_neg h, if_neg (fun e => h (Fin.ext e))]
@[simp] theorem greg_setGreg_same (s : State) (x : Nat) (d : Reg) (v : Word) : greg (setGreg s x d v) x d = v := by
  rw [greg_setGreg, if_pos rfl]

/-! ## The prefetch lines and the counts -/

@[simp] theorem requestFill_ctxs (s : State) (la : Nat) : (requestFill s la).ctxs = s.ctxs := by unfold requestFill; split <;> rfl
/-- A request for a fill changes the list of requested fills only. -/
theorem requestFill_eq (s : State) (la : Nat) :
    requestFill s la = { s with mem := { s.mem with fills := (requestFill s la).mem.fills } } := by
  unfold requestFill; split <;> rfl
/-- A hit in the XIP window changes the order of the lines and the list of requested fills only. -/
theorem touchLine_eq (s : State) (a : Nat) :
    touchLine s a = { s with seq := { s.seq with lines := (touchLine s a).seq.lines }, mem := { s.mem with fills := (touchLine s a).mem.fills } } := by
  unfold touchLine
  split
  · rfl
  · simp only []
    split <;> split
    · rw [requestFill_eq]
    · rfl
    · rw [requestFill_eq]
    · rfl
@[simp] theorem touchLine_ctx (s : State) (a x : Nat) : (touchLine s a).ctx x = s.ctx x := by
  unfold State.ctx; rw [touchLine_eq]
@[simp] theorem touchLine_reg (s : State) (a r : Nat) : (touchLine s a).reg r = s.reg r := by
  unfold State.reg; rw [touchLine_eq]
@[simp] theorem touchLine_overLimit (s : State) (a x : Nat) : overLimit (touchLine s a) x = overLimit s x := by
  unfold overLimit State.fld; simp

/-- The state in which context `x`'s instruction is counted: it waits for no port, and its line has been used. -/
def atFetch (s : State) (x : Nat) : State := touchLine (modCtx s x (fun k => { k with portWait := none })) (progAddr (s.ctx x))

@[simp] theorem atFetch_ctx (s : State) (x : Nat) : (atFetch s x).ctx x = { s.ctx x with portWait := none } := by
  rw [atFetch, touchLine_ctx, ctx_modCtx]
theorem atFetch_ctx_other (s : State) (x : Nat) {y : Nat} (h : y ≠ x) : (atFetch s x).ctx y = s.ctx y := by
  rw [atFetch, touchLine_ctx, ctx_modCtx_other _ _ _ h]
@[simp] theorem atFetch_overLimit (s : State) (x : Nat) : overLimit (atFetch s x) x = overLimit s x := by
  unfold overLimit State.fld
  rw [atFetch_ctx, atFetch, touchLine_reg]
  rfl

/-- The state in which an instruction's effect is computed: its fetch and its issue counted. -/
def atIssue (s : State) (x : Nat) (wait : Bool) : State := noteIssue (atFetch s x) x wait

@[simp] theorem atIssue_ctx (s : State) (x : Nat) (w : Bool) :
    (atIssue s x w).ctx x =
      { s.ctx x with portWait := none, issued := (s.ctx x).issued + 1, runCount := if w then 0 else (s.ctx x).runCount + 1 } := by
  have h := ctx_modCtx (atFetch s x) x (fun k => { k with runCount := if w then 0 else k.runCount + 1, issued := k.issued + 1 })
  rw [atFetch_ctx] at h
  exact h
theorem atIssue_ctx_other (s : State) (x : Nat) (w : Bool) {y : Nat} (h : y ≠ x) : (atIssue s x w).ctx y = s.ctx y := by
  rw [← atFetch_ctx_other s x h]
  exact ctx_modCtx_other (atFetch s x) x
    (fun k => { k with runCount := if w then 0 else k.runCount + 1, issued := k.issued + 1 }) h
@[simp] theorem atIssue_greg (s : State) (x : Nat) (w : Bool) (r : Reg) : greg (atIssue s x w) x r = greg s x r := by
  unfold greg; rw [atIssue_ctx]
/-- Counting an issue changes the context's counts, the lines' order, requested fills and the cores' counts only. -/
theorem atIssue_eq (s : State) (x : Nat) (w : Bool) :
    atIssue s x w = { s with ctxs := (atIssue s x w).ctxs, seq := { s.seq with lines := (atIssue s x w).seq.lines, issued := (atIssue s x w).seq.issued },
                             mem := { s.mem with fills := (atIssue s x w).mem.fills } } := by
  unfold atIssue noteIssue atFetch modCtx
  rw [touchLine_eq]
  rfl

/-! ## Issue -/

/-- An instruction that is fetched within the run limit has its effect. -/
theorem issue_runs (s : State) (x : Nat) (op : SeqOp) (f : State → Act) (h : issues s x op = true) :
    issue x op f s =
      match f (atIssue s x (isWait op)) with
      | .go s' => advance s' x (progAddr (s.ctx x) + 1)
      | .jump s' b => advance s' x b
      | .fault c => ctxFaultC (atIssue s x (isWait op)) x c
      | .faulted s' => s'
      | .block p => modCtx s x (fun k => { k with portWait := some p })
      | .load d b la => waitFill (modCtx (atIssue s x (isWait op)) x (fun k => { k with ldp := some (d.val, b) })) x la := by
  unfold issues fetches at h
  simp only [Bool.and_eq_true] at h
  obtain ⟨⟨⟨hr, hf⟩, ho⟩, hb⟩ := h
  have hl : (!isWait op && overLimit s x) = false := by
    cases hw : isWait op <;> simp_all
  unfold issue issueIf
  rw [hr]
  split at hf
  · next w hw =>
    have hg : (op.reads.any (fun r => ((atIssue s x (isWait op)).ctx x).gBad.contains r.val)) = false := by
      rw [atIssue_ctx]; simpa using hb
    simp only [Bool.not_true, if_false, hw, hf, Bool.false_eq_true]
    change (if (!isWait op && overLimit (atFetch s x) x) = true then _ else
      if (op.reads.any fun r => ((atIssue s x (isWait op)).ctx x).gBad.contains r.val) = true then _ else _) = _
    rw [atFetch_overLimit, hl, hg]
    rfl
  · cases hf
/-- An effect that ends with the next instruction. -/
theorem issue_goes (s : State) (x : Nat) (op : SeqOp) (f : State → Act) (t : State) (h : issues s x op = true)
    (hw : isWait op = false) (ht : f (atIssue s x false) = .go t) :
    issue x op f s = advance t x (progAddr (s.ctx x) + 1) := by
  rw [issue_runs s x op f h, hw, ht]
/-- A context that issues is in RUN. -/
theorem issues_run (s : State) (x : Nat) (op : SeqOp) (h : issues s x op = true) : (s.ctx x).st = .run := by
  unfold issues fetches ctxReady at h
  simp only [Bool.and_eq_true, beq_iff_eq] at h
  exact h.1.1.1.1.1.1.1

/-- The program address that a context is set to. -/
@[simp] theorem progAddr_setProg (k : Ctx) (a : Nat) (h : a < 2 ^ 23) : progAddr (setProg k a) = a := by
  unfold progAddr setProg
  simp only [BitVec.toNat_ofNat, decide_eq_true_eq]
  split <;> omega
/-- A context in RUN moves on. -/
theorem advance_run (s : State) (x a : Nat) (h : (s.ctx x).st = .run) : advance s x a = modCtx s x (fun k => setProg k (a % 2 ^ 23)) := by
  unfold advance modCtx; simp [h]

/-! ## Results -/

/-- An effect that changes its context only, at an address it moves on or jumps to. -/
theorem ctxOnly_advance (s : State) (x a : Nat) (k : Ctx) (w : Bool) :
    ctxOnly s (modCtx ((atIssue s x w).setCtx x k) x (fun k => setProg k (a % 2 ^ 23))) x := by
  constructor
  · unfold State.issuedAs modCtx State.setCtx
    simp only []
    rw [atIssue_eq]
  · intro y hy
    rw [ctx_modCtx_other _ _ _ hy, ctx_setCtx_other _ _ _ hy, atIssue_ctx_other _ _ _ hy]

/-- An instruction whose effect makes its context `k` completes with it. -/
theorem setsCtx_of (i : Instr) (s : State) (x : Nat) (op : SeqOp) (f : State → Act) (k : Ctx)
    (hx : issues s x op = true) (he : exec i s = .next (issue x op f s))
    (hf : f (atIssue s x (isWait op)) = .go ((atIssue s x (isWait op)).setCtx x (withRun k ((atIssue s x (isWait op)).ctx x))))
    (hk : k.st = .run ∨ k.st = .wait) : setsCtx i s x k := by
  refine ⟨_, he, ?_⟩
  rw [issue_runs s x op f hx, hf]
  have ha : advance ((atIssue s x (isWait op)).setCtx x (withRun k ((atIssue s x (isWait op)).ctx x))) x (progAddr (s.ctx x) + 1) =
      modCtx ((atIssue s x (isWait op)).setCtx x (withRun k ((atIssue s x (isWait op)).ctx x))) x
        (fun k => setProg k ((progAddr (s.ctx x) + 1) % 2 ^ 23)) := by
    unfold advance; rw [ctx_setCtx_same]
    rcases hk with h | h <;> simp [withRun, h, modCtx]
  simp only [ha]
  refine ⟨ctxOnly_advance _ _ _ _ _, ?_, ?_⟩
  · rw [ctx_modCtx, ctx_setCtx_same]; rfl
  · rw [ctx_modCtx]; exact progAddr_setProg _ _ (Nat.mod_lt _ (by decide))

/-- A jump that makes its context `k` completes with it at its target. -/
theorem runsTo_of (i : Instr) (s : State) (x a : Nat) (op : SeqOp) (f : State → Act) (k : Ctx)
    (hx : issues s x op = true) (he : exec i s = .next (issue x op f s))
    (hf : f (atIssue s x (isWait op)) = .jump ((atIssue s x (isWait op)).setCtx x (withRun k ((atIssue s x (isWait op)).ctx x))) a)
    (hk : k.st = .run) : runsTo i s x k (a % 2 ^ 23) := by
  refine ⟨_, he, ?_⟩
  rw [issue_runs s x op f hx, hf]
  have ha : advance ((atIssue s x (isWait op)).setCtx x (withRun k ((atIssue s x (isWait op)).ctx x))) x a =
      modCtx ((atIssue s x (isWait op)).setCtx x (withRun k ((atIssue s x (isWait op)).ctx x))) x (fun k => setProg k (a % 2 ^ 23)) := by
    unfold advance; rw [ctx_setCtx_same]; simp [withRun, hk, modCtx]
  simp only [ha]
  refine ⟨ctxOnly_advance _ _ _ _ _, ?_, ?_⟩
  · rw [ctx_modCtx, ctx_setCtx_same]; rfl
  · rw [ctx_modCtx]; exact progAddr_setProg _ _ (Nat.mod_lt _ (by decide))

/-- A context that changes in registers and flags only gives its result. -/
theorem givesResult_of (i : Instr) (s : State) (x : Nat) (d : Option Reg) (v : Word) (k : Ctx) (h : setsCtx i s x k)
    (hk : k = { s.ctx x with g := k.g, z := k.z, n := k.n, c := k.c, v := k.v })
    (hg : k.g = match d with | some r => fset (fun _ => 0#32) (s.ctx x).g r.val v | none => (s.ctx x).g) :
    givesResult i s x d v (k.z, k.n, k.c, k.v) := by
  obtain ⟨t, he, ho, hc, hp⟩ := h
  have hgr : ∀ r : Reg, greg t x r = fget (fun _ => 0#32) k.g r.val := by
    intro r; unfold greg; rw [hc]; rfl
  refine ⟨t, he, ⟨ho, ?_⟩, hp, ?_, ?_, ?_⟩
  · rw [hc, hk]; rfl
  · intro r hr
    rw [hgr, hg]
    cases d with
    | none => rfl
    | some d => exact fget_fset_other _ _ _ (fun e => hr (congrArg some (Fin.ext e.symm)))
  · intro r hr
    rw [hgr, hg, hr]
    simp
  · unfold znvc; rw [hc]; rfl

end Sys2Proof.Machine
end

