-- ==== Sys2Proof/Machine/Pins.lean ====
section
/-! DEFINITION. Sys2Proof/Machine/Pins.lean: what the output pins carry in a state (Table 3-2, R74, R76, R124), as views of State: no
command reads a pin of its own device back. -/
namespace Sys2Proof.Machine

/-- What an output pin carries: not driven, or driven. -/
inductive PinLevel where
  | highZ | low | high
  deriving DecidableEq, Repr

/-- A driven level. -/
def drive (b : Bool) : PinLevel := if b then .high else .low

/-- An open-drain pin: driven low, or released. -/
def openDrain (low : Bool) : PinLevel := if low then .low else .highZ

/-- Every output is high-Z: in OFF (R122), and in factory test until the next reset (R76). -/
def pinsOff (s : State) : Bool := s.power.low || s.boot.factory

/-- The port's pins are configured: the Mantle layer has been applied (R74). -/
def portDriven (s : State) (n : Nat) : Bool := !pinsOff s && s.boot.mantled && present s n

/-- TXD: mark in DORMANT, on a gloved or disabled port and in standby (R68, R124, R181, R206), else what the transmitter sends. -/
def txdPin (s : State) (n : Nat) : PinLevel :=
  if !portDriven s n then .highZ
  else if s.power.st == .dormant || (s.port n).gloved || !pEn s n then .high
  else match (s.port n).line with | (b, _) :: _ => drive b | [] => .high

/-- DE is asserted (R216–R218). -/
def deOut (s : State) (n : Nat) : Bool :=
  pEn s n && pRole s n == 2 && (s.port n).de && !(s.port n).gloved && s.power.st != .dormant

/-- CTL (R210, R216): RTS is asserted low and DE asserted high where CTLPOL is 0, and CTLPOL 1 inverts; the inactive level of the role Off
is low where CTLPOL is 0 (DESIGN CHOICE, log entry 57). -/
def ctlPin (s : State) (n : Nat) : PinLevel :=
  if !portDriven s n then .highZ
  else
    let pol := s.bit (pAddr n 0) 4
    match pRole s n with
    | 1 => drive (pol != !rtsOut s n)
    | 2 => drive (pol != deOut s n)
    | _ => drive pol

/-- The frame whose bits CTX carries: one on the bus of a channel in NORMAL or RESTRICTED mode; in LOOP mode, in DORMANT and during a
relock CTX is recessive (R124, R130, R445). -/
def ctxFrame (s : State) (ch : Nat) : Option CanFrame :=
  if canListens s ch && canMode s ch != 3 && !s.power.relock then ((s.can ch).onBus).map (·.2) else none

/-- CTXA and CTXB while they carry neither a frame's bits nor the dominant ACK bit (R434): recessive. -/
def ctxIdle (s : State) : PinLevel := if pinsOff s then .highZ else .high

/-- The channel drives the ACK bit of the frame on the bus dominant (R434). -/
def ctxAck (s : State) (ch : Nat) : Bool := canListens s ch && canMode s ch != 3 && (s.can ch).ack

/-- TPO (R540, R541): at its inactive level while EN is 0 and below MINQ; low in reset, until the Mantle layer is applied and in DORMANT whatever POL holds. -/
def tpoPin (s : State) : PinLevel :=
  if pinsOff s then .highZ
  else if !s.boot.mantled || s.power.st == .dormant then .low
  else drive ((s.tim.tpo && s.bit 0x4802 0 && decide (s.fld 0x4802 16 2 ≤ qCode s.hold.quality)) != s.bit 0x4802 1)

/-- STAT: a level, or a pattern of Table 16-3 by its code. -/
inductive StatOut where
  | level (l : PinLevel)
  | pattern (code : Nat)
  deriving DecidableEq, Repr

/-- STAT (R565, R567): low in reset, before step 9 and in the retry of R104 (pattern 0), high in a lamp test. -/
def statPin (s : State) : StatOut :=
  if pinsOff s then .level .highZ
  else if !s.boot.strapped then .level .low
  else if s.sup.lamp then .level .high
  else if statPat s = 0 then .level .low
  else .pattern (statPat s)

/-- FAULT_N (R566, R567): one cycle of the code shown, as levels (true for released) with their times in ms; empty while released. -/
def faultCycle (s : State) : List (Bool × Nat) :=
  let n := s.fld 0x300 12 4
  if pinsOff s || n = 0 then []
  else (List.replicate (n - 1) [(false, 200), (true, 200)]).flatten ++ [(false, 200), (true, 1600)]

/-- FAULT_N in a lamp test: low (R567). -/
def faultLamp (s : State) : PinLevel := openDrain (s.sup.lamp && !pinsOff s)

/-- HIRQ_N (R164, R165). -/
def hirqPin (s : State) : PinLevel := openDrain (hirq s && !pinsOff s)

/-- AUX7 as HCO in chain mode, from the time the port answers (R423): it holds its level while HSEL_N is high and in DORMANT. -/
def hcoPin (s : State) : PinLevel :=
  if !pinsOff s && s.boot.hostUp && hostMode s == 1 then drive s.host.hco else .highZ

/-- The device masters the memory port: an entry runs, or MSEL0_N stays asserted over a park (R96, R370). -/
def masters (s : State) : Bool := !pinsOff s && (s.mem.active.isSome || s.mem.parked.isSome)

/-- MSEL0_N and MSEL1_N (R96, R376): low for the memory that the running entry goes to, released by a device that does not master. -/
def mselPin (s : State) (k : Nat) : PinLevel :=
  openDrain (masters s && (match s.mem.active with | some e => kindMem s e == k + 1 | none => k == 0))

end Sys2Proof.Machine
end

