-- ==== Sys2Proof/WellFormed.lean ====
section
/-! DEFINITION. Sys2Proof/WellFormed.lean: which operands the outside world can supply. The types of the operands keep most of what the
specification says of them; the checks here are the rest. `exec` answers for every operand, well-formed or not. -/
namespace Sys2Proof

/-- The number of data bytes that a DLC stands for (R432; ISO 11898-1): a remote frame carries none. -/
def canDataLen (fdf rtr : Bool) (dlc : Nat) : Nat :=
  if rtr && !fdf then 0
  else if dlc ≤ 8 then dlc
  else if !fdf then 8
  else match dlc with | 9 => 12 | 10 => 16 | 11 => 20 | 12 => 24 | 13 => 32 | 14 => 48 | _ => 64

/-- A CAN frame: an identifier of 11 or 29 bits, a DLC of 4 bits, the data that the DLC announces; BRS and ESI only in an FD frame,
RTR only in a classical one. -/
def CanFrame.wf (f : CanFrame) : Bool :=
  decide (f.id < 2 ^ (if f.xtd then 29 else 11)) && decide (f.dlc < 16) && f.data.length == canDataLen f.fdf f.rtr f.dlc &&
  (f.fdf || (!f.brs && !f.esi)) && !(f.fdf && f.rtr)

/-- The data words that H0 and H1 announce (R395): N for WR and PUSH, 2 for RMW, 4 for an MBX write, else none. -/
def HostFrame.due (f : HostFrame) : Nat :=
  match f.h0.toNat / 2 ^ 28 with
  | 2 => f.h0.toNat % 64 + 1
  | 3 => 2
  | 4 => if f.h1.toNat / 2 ^ 16 % 2 = 1 then 4 else 0
  | 5 => f.h0.toNat % 64 + 1
  | _ => 0

/-- A whole host phase has the data words that it announces (R395). -/
def HostFrame.wf (f : HostFrame) : Bool := f.data.length == f.due

/-- What is seen at a select release: at most 66 words before a trailer (R395); a chain frame of `m` clocks has no bit above bit
m − 1 (R424). -/
def HostEnd.wf : HostEnd → Bool
  | .broken ws _ => decide (ws.length ≤ 66)
  | .rest _ _ _ => true
  | .chain m bits => decide (64 ≤ m) || decide (bits.toNat < 2 ^ m)

/-- Memories found at a start-up: byte addresses of at most 32 bits in the flash, and within the FRAM's 64 KiB (R366). -/
def MemFit.wf (f : MemFit) : Bool :=
  f.flashData.all (fun e => decide (e.1 < 2 ^ 32)) && f.framData.all (fun e => decide (e.1 < 2 ^ 16))

/-- One strap reading is eight conversions (R38). -/
def convWf (c : Conversions) : Bool := c.length == 8

/-- An audit's strap check reads each of the six pins, and each again where the boundary rule asks for it (R41, Table 16-2). -/
def strapsWf (l : List (Conversions × Conversions)) : Bool := l.length == 6 && l.all (fun e => convWf e.1 && convWf e.2)

/-- A character has at most a start bit, nine data bits and parity or mark bit together, and a stop bit to be sampled (R169, R172). -/
def RxBits.wf (r : RxBits) : Bool := decide (r.samples.length ≤ 11)

/-- The operands of a command are what the outside world can supply: six strap readings of eight conversions each, six pairs of them in
an audit, one loopback result for each of the 16 ports; the sampled bits of one character; a field that ends within its word (R344). Of
every other command the operands' types say all. -/
def Instr.wf : Instr → Bool
  | .pllLocked (some f) => f.wf
  | .strapSlotEnd c _ => convWf c
  | .measureDone l => l.length == 6 && l.all convWf
  | .selfAudit straps _ loops => strapsWf straps && loops.length == 16
  | .audit straps _ => strapsWf straps
  | .characterReceive _ r => r.wf
  | .gloveEnd _ loop => decide (loop.length ≤ 16)
  | .ext _ _ _ l p => decide (l.toNat + 1 + p.toNat ≤ 32)
  | .ins _ _ _ l p => decide (l.toNat + 1 + p.toNat ≤ 32)
  | .memEntryDone din => decide (din.length ≤ 32)
  | .hostSelectRelease e => e.wf
  | .hostNop f => f.wf
  | .hostRd f => f.wf
  | .hostWr f => f.wf
  | .hostRmw f => f.wf
  | .hostMbxRead f => f.wf
  | .hostMbxWrite f => f.wf
  | .hostPush f _ => f.wf
  | .hostPull f _ => f.wf
  | .hostSnapshot f => f.wf
  | .hostAgain f => f.wf
  | .hostIllegal f => f.wf
  | .canFrameReceived _ f _ => f.wf
  | .canError _ _ _ _ (some p) _ => p.1.wf
  | _ => true

end Sys2Proof
end

