-- ==== Sys2Proof/Tests/Slice0.lean ====
section
/-! SUPPORT. Sys2Proof/Tests/Slice0.lean: the model's own tests: an ill-formed command for each check of `Instr.wf`; small tests on
values that the specification's tables and examples give, the rule named at each; and for every statement that has hypotheses, a
state and operands that meet them, clause by clause. -/
open Sys2Proof Sys2Proof.Machine
namespace Sys2Proof.Tests
set_option Elab.async false

/-! ## States to test on -/

/-- A machine whose ports are live, nothing configured. -/
def live : State :=
  { boot := { started := true, strapped := true, hostUp := true, memUp := true, scanned := true, imaged := true, audited := true,
              mantled := true, live := true },
    power := { released := true } }

/-- Applied words, and shadows, put into a state. -/
def regs (s : State) (l : List (Nat × Word)) : State := l.foldl (fun s e => s.setReg e.1 e.2) s
def shads (s : State) (l : List (Nat × Word)) : State := l.foldl (fun s e => s.setShad e.1 e.2) s

/-- Context 3 in RUN with `k` at instruction RAM address 0, which holds `op`; its circuit in RUN. -/
def at3 (op : SeqOp) (k : Ctx := {}) : State :=
  { live with circs := [(3, { st := .run })], ctxs := [(3, { k with st := .run })], regs := [(0xC000, seqEncode op)] }

/-- What a command leads to. -/
def after (c : Instr) (s : State) : State := outState (exec c s) s

/-- Port 2 enabled, feeding circuit 3, in HOLD mode; its state `p`. -/
def hold2 (p : Port) (s : State := live) : State := (regs s [(0x880, 1#32), (0x883, 0x8300#32)]).setPort 2 p

/-- Circuit 3 in RUN and enabled, bound to host, with these queues. -/
def run3 (k : Circ) (s : State := live) : State := (regs s [(0x10C0, 1#32), (0x10C1, 3#32)]).setCirc 3 { k with st := .run }

/-- A framed host frame with its CRC, and a framed port with a frame in progress. -/
def frame (h0 h1 : Word) (data : List Word := []) : HostFrame := ⟨h0, h1, data, BitVec.ofNat 32 (crc16 (h0 :: h1 :: data) 0)⟩
def selected (h : HostIf) (s : State := live) : State := { s with host := { h with selected := true } }

/-- A chain command word with its CHK, waiting. -/
def chainWord (op addr data : Nat) : BitVec 64 := withChk (op * 2 ^ 60 + addr * 2 ^ 32 + data)
def chained (b : BitVec 64) (h : HostIf := {}) : State := { live with host := { h with cmd := some ⟨b, false, 0#64⟩ } }

/-- A machine that is not reached by the host, in a power state. -/
def down (st : PowerState) : State := { live with power := { live.power with st := st } }
/-- A strap reading: eight conversions of one value. -/
def conv (mv : BitVec 12) : Conversions := List.replicate 8 mv
/-- The samples of a bit at space and at mark. -/
def sp : Sample3 := 0#3
def mk : Sample3 := 7#3

/-! ## Ill-formed commands are refused by the checks -/

theorem test_wf_memory_fit : Instr.wf (.pllLocked (some ⟨true, 0#24, none, [(2 ^ 32, 0#8)], false, 0#24, 0#24, []⟩)) = false := by decide +kernel
theorem test_wf_measure : Instr.wf (.measureDone [conv 0#12]) = false := by decide +kernel
theorem test_wf_self_audit : Instr.wf (.selfAudit (List.replicate 6 (conv 0#12, conv 0#12)) [] []) = false := by decide +kernel
theorem test_wf_slot_end : Instr.wf (.strapSlotEnd [0#12] 0#8) = false := by decide +kernel
theorem test_wf_character : Instr.wf (.characterReceive 0 ⟨List.replicate 12 sp, true, 0#8, 0#80⟩) = false := by decide +kernel
theorem test_wf_audit : Instr.wf (.audit [] []) = false := by decide +kernel
theorem test_wf_glove_end : Instr.wf (.gloveEnd 0 (List.replicate 17 (0#8, 0))) = false := by decide +kernel
theorem test_wf_ext : Instr.wf (.ext 0 1 2 31#5 1#5) = false := by decide +kernel
theorem test_wf_ins : Instr.wf (.ins 0 1 2 31#5 1#5) = false := by decide +kernel
theorem test_wf_entry_words : Instr.wf (.memEntryDone (List.replicate 33 0#32)) = false := by decide +kernel
theorem test_wf_select_release : Instr.wf (.hostSelectRelease (.chain 8 0x100#64)) = false := by decide +kernel
theorem test_wf_broken_phase : Instr.wf (.hostSelectRelease (.broken (List.replicate 67 0#32) false)) = false := by decide +kernel
theorem test_wf_host_frames : ([Instr.hostNop, .hostRd, .hostWr, .hostRmw, .hostMbxRead, .hostMbxWrite, (.hostPush · none), (.hostPull · none),
    .hostSnapshot, .hostAgain, .hostIllegal].all (fun c => !(c ⟨0#32, 0#32, [0#32], 0#32⟩).wf)) = true := by decide +kernel
theorem test_wf_can_received : Instr.wf (.canFrameReceived 0 ⟨false, 2048, false, false, false, false, 0, []⟩ 0#80) = false := by decide +kernel
theorem test_wf_can_error : Instr.wf (.canError 0 0 false false (some (⟨false, 1, false, false, false, false, 9, []⟩, 0#80)) none) = false := by decide +kernel
theorem test_wf_accepts : ([Instr.ext 0 1 2 31#5 0#5, .ins 0 1 2 7#5 24#5, .measureDone (List.replicate 6 (conv 0#12)), .nop 3,
    .hostNop (frame 0#32 0#32), .hostWr (frame 0x20000000#32 0x0A#32 [1#32])].all Instr.wf) = true := by decide +kernel

/-! ## Values that the specification gives -/

/-- The identification fields as reset leaves them, and CRC-32C (R274) of its published check string. -/
theorem test_reset_id : State.reset.reg 0 = 0x52011064#32 := by decide +kernel
theorem test_crc32c_check : crc32c [0x31, 0x32, 0x33, 0x34, 0x35, 0x36, 0x37, 0x38, 0x39] = 0xE3069283#32 := by decide +kernel
/-- R343: ADD wraps, with carry and no overflow. -/
theorem test_add_wraps : (after (.add 3 1 2 3) (at3 (.add 1 2 3) { g := [(2, 0xFFFFFFFF#32), (3, 2#32)] })).ctxs.map
    (fun e => (e.2.g, e.2.c, e.2.v)) = [([(1, 1#32), (2, 0xFFFFFFFF#32), (3, 2#32)], true, false)] := by decide +kernel
/-- R346: CALL pushes the next address and jumps. -/
theorem test_call_pushes : ((after (.call 3 0x100#23) (at3 (.call 0x100#23))).ctxs.map (fun e => (e.2.pc, e.2.stack))) =
    [(0x100#22, [1#23])] := by decide +kernel
/-- R313: WAIT with EM 0 faults with code 12. -/
theorem test_dead_wait : (after (.wait 3 0) (at3 (.wait 0))).fld (xAddr 3 2) 8 4 = 12 := by decide +kernel
/-- R16 and R15: a read clears the RC bits that it returned. -/
theorem test_read_clears : (after (.readClear 0x000B#16) (regs live [(0x0B, 0x29#32)])).reg 0x0B = 0#32 := by decide +kernel
/-- R18: a value above a field's range clamps to its end, noted in GLB_LASTCLAMP (R156). -/
theorem test_temphigh_clamps : (after (.registerWrite 0x0307#16 0x08FCFF00#32) live).fld 0x12 0 16 = 0x307 := by decide +kernel
/-- R556, Table 16-1: a storm at level 3 gloves for 8 s, and the level becomes 4. -/
theorem test_glove_period : let t := after (.breakStorm 2) (regs (hold2 { lineBrk := true }) [(0x312, 0x300#32)])
    ((t.port 2).gloveEnd, t.fld 0x312 8 4) = (8 * 2 ^ 32, 4) := by decide +kernel
/-- R561, R562: a stuck bit in the audit's memory pass is a FAIL, with fault 4. -/
theorem test_audit_fail : let t := after (.audit (List.replicate 6 (conv 0#12, conv 0#12)) [(0, .stuck)]) live
    (t.fld 0x320 0 2, t.bit 0x300 3, (after .ack t).bit 0x300 3) = (3, true, false) := by decide +kernel
/-- R113: a reset keeps the time count and counts itself. -/
theorem test_pin_reset : let t := after (.pinReset false) { live with hold := { count := 7#80 } }
    (t.now, t.hold.resets, t.power.cause, t.boot.started) = (7#80, 1, 2, false) := by decide +kernel
/-- R522: without a correction, 1 024 000 TIME ticks make one second; one tick is 4194 units and 0.304 of one. -/
theorem test_tick : (tickHold { live with hold := { inTime := true } }).count = 4194#80 := by decide +kernel

/-! ## Witnesses: the statements' hypotheses hold somewhere -/

theorem witness_StepRunsFrontCommand : ({ live with pending := [.nop 3, .ack] }).pending = .nop 3 :: [.ack] := by decide +kernel
theorem witness_RegisterWriteLands :
    hostReach live = true ∧ hostReach (down .dormant) = false ∧
    absentPort { live with chip := { grade := 8 } } 0xA00 = true ∧
    (absentPort live 0x307 = false ∧ accMask .w1s 0x307 = 0#32 ∧ 0x307 < 0xC000 ∧ (0x307 < 0x20 ∨ 0x26 ≤ 0x307)) ∧
    (∃ f ∈ fieldsAt 0x307, f.acc = .rb ∧ clampVal (presentMask live) f.clamp (getF 0xFF00#32 f.lo f.wd) ≠ getF 0xFF00#32 f.lo f.wd) ∧
    live.bit 0x02 0 = false ∧ authReq (regs live [(0x2400, 8#32)]) = true := by decide +kernel
theorem witness_MailboxCommands :
    hostReach live = true ∧ hostReach (regs live [(0x20, 0xB002#32)]) = true ∧ live.mbx.capturing = false ∧ ¬ (0xF000#16 = 0#16 ∨ mbxNames live 0xF000) ∧ ({ live with mbx := { capturing := true } }).mbx.capturing = true ∧
    mbxRo (regs live [(0x20, 1#32)]) ((regs live [(0x20, 1#32)]).fld 0x20 0 16) = true ∧
    (let s := regs live [(0x20, 0xB002#32)]; mbxRo s (s.fld 0x20 0 16) = false ∧ s.fld 0x20 0 16 = 0xB002) ∧
    (let s := (regs live [(0x20, 0x8034#32)]).setCtx 3 { st := .halted }
     mbxRo s (s.fld 0x20 0 16) = false ∧ s.fld 0x20 0 16 = 0x8000 + 16 * 3 + 1 + 3) := by decide +kernel

/-- The commit premises, and one staged commit. -/
def commits (s : State) : Prop :=
  s.boot.mantled = true ∧ s.power.relock = false ∧ s.power.st ≠ .dormant ∧ s.commit.queued = []
def oneStaged (i : Inst) : Staged := ⟨i, [0], (instAddrs i).map (fun a => (a, 3#32, 3#32)), false⟩
def stagedState (i : Inst) : State := { live with commit := { staged := [oneStaged i] } }
theorem witness_CommitStrobes :
    (let s := { live with boot := { live.boot with mantled := false } }
     hostReach s = true ∧ s.boot.mantled = false) ∧ hostReach live = true ∧ commits live ∧ live.commit.staged = [] ∧ (0x80#8 ≠ 0#8 ∧ 0x80#8 &&& 0x0F#8 = 0#8) ∧
    (∀ i ∈ strobedInsts live 0x20, instDiffers live i = false) ∧
    (.mem ∈ strobedInsts live 0x20 ∧ instDiffers (shads live [(0x3031, 0x00FF0000#32)]) .mem = true) ∧ live.host.selected = false := by
  unfold commits; decide +kernel
theorem witness_CommitsApply :
    (∀ i ∈ [Inst.seq, .mem, .port 2, .circ 3, .cana, .canb], commits (stagedState i) ∧
      (oneStaged i).writes ≠ [] ∧ (oneStaged i).words.map (fun w => w.1) = instAddrs i ∧ (oneStaged i).slow = false) ∧
    (let h (i : Inst) (a : Nat) := (oneStaged i).words.find? (fun w => w.1 == a) = some (a, 3#32, 3#32)
     h .seq 0x2402 ∧ h .mem 0x3031 ∧ h (.port 2) (pAddr 2 1) ∧ h .cana (chAddr 0 1) ∧ h .canb (chAddr 1 1)) ∧
    (∀ x ∈ List.range 64, atInstr live x = true) ∧ jnlBetween live = true ∧
    live.mem.active = none ∧ (live.port 2).rxBusy = false ∧ (live.port 2).tx = .idle ∧ (live.circ 3).st = .disabled ∧
    heldBy live 3 = 0 ∧ (newWord live (oneStaged (.circ 3)) (cAddr 3 0)).getLsbD 0 = true ∧
    getF (newWord live (oneStaged (.circ 3)) (cAddr 3 1)) 0 2 = 3 ∧ (live.can 0).onBus = none ∧ live.fld 0x0A 0 8 ≠ 0 := by
  unfold commits; decide +kernel
/-- Group 1 switching to code 3; its commit staged. -/
def switching (stopped : Bool) : State :=
  { live with
    power := { released := true, groups := [{}, { running := true, switching := true, stopped := stopped, code := 2, target := 3 }, {}, {}] },
    ports := (List.range 4).map (fun k => (4 + k, { frozen := true })),
    commit := { staged := [⟨.clk, [0], [(0x201, 0x70#32, 0x30#32)], false⟩] } }
theorem witness_GroupClockSwitch :
    (let s := { switching false with ports := [] }
     present s 5 = true ∧ pSwitching s 5 = true ∧ (s.group (5 / 4)).stopped = false ∧ freezable s 5 = true) ∧
    (let s := switching false; (s.group 1).switching = true ∧ (s.group 1).stopped = false ∧ s.power.groups.length = 4 ∧
      ∀ k, k < 4 → present s (4 * 1 + k) = true → (s.port (4 * 1 + k)).frozen = true) ∧
    (let s := switching true; (s.group 1).stopped = true ∧ (s.group 1).target < 8 ∧ commits s ∧
      ∀ h, h < 4 → getF ((s.reg 0x201 &&& ~~~0x70#32) ||| (0x30#32 &&& 0x70#32)) (4 * h) 3 =
        if h = 1 then (s.group 1).target else s.fld 0x201 (4 * h) 3) := by unfold commits; decide +kernel

theorem witness_SeqSumsAndComparisons :
    ∀ op ∈ [SeqOp.add 1 2 3, .sub 1 2 3, .cmp 1 2, .addi 1 2 0x3FFFF#18, .cmpi 1 5#18], issues (at3 op) 3 op = true := by decide +kernel
theorem witness_SeqLogicAndProducts :
    ∀ op ∈ [SeqOp.and 1 2 3, .or 1 2 3, .xor 1 2 3, .mul 1 2 3, .andi 1 2 5#18, .ori 1 2 5#18, .xori 1 2 5#18],
      issues (at3 op) 3 op = true := by decide +kernel
theorem witness_SeqShifts :
    ∀ op ∈ [SeqOp.shl 1 2 3, .shr 1 2 3, .sar 1 2 3, .shiShl 1 2 31#5, .shiShr 1 2 0#5, .shiSar 1 2 31#5, .shiRor 1 2 0#5],
      issues (at3 op) 3 op = true := by decide +kernel
theorem witness_SeqFieldsAndConstants :
    (∀ op ∈ [SeqOp.movi 1 5#18, .movh 1 5#16, .ext 1 2 31#5 0#5, .ins 1 2 7#5 24#5, .btst 1 31#5, .ldp 1 2],
      issues (at3 op) 3 op = true) ∧
    fetchWord (at3 (.ldp 1 2)) ((greg (at3 (.ldp 1 2)) 3 2).toNat % 2 ^ 23) = .word (seqEncode (.ldp 1 2)) := by decide +kernel
theorem witness_SeqControlFlow :
    (∀ op ∈ [SeqOp.br .eq 3#22, .jmp 5#23, .call 5#23, .jr 1, .nop], issues (at3 op) 3 op = true ∧ ((at3 op).ctx 3).stack.length < 4) ∧
    (let s := at3 .ret { stack := [5#23] }; issues s 3 .ret = true ∧ (s.ctx 3).stack = 5#23 :: []) := by decide +kernel
theorem witness_SeqFaultsOfIssue :
    (let s := at3 .nop { pc := 0x4800#22 }
     ctxReady s 3 = true ∧ (s.circ 3).st ≠ .disabled ∧ fetchWord s (progAddr (s.ctx 3)) = .fault 2) ∧
    (let s := regs (at3 .nop) [(0x2400, 0x40#32)]; ctxReady s 3 = true ∧ fetchWord s (progAddr (s.ctx 3)) = .fault 3) ∧
    (let s := { at3 .nop with pool := { iramBad := [0] } }; ctxReady s 3 = true ∧ fetchWord s (progAddr (s.ctx 3)) = .fault 4) ∧
    (let s := regs (at3 .nop { runCount := 1024 }) [(0x2402, 1#32)]
     isWait .nop = false ∧ fetches s 3 .nop = true ∧ overLimit s 3 = true) ∧
    (let s := at3 .nop { pc := 1#22 }
     ctxReady s 3 = true ∧ overLimit s 3 = false ∧ fetchWord s (progAddr (s.ctx 3)) = .word 0#32 ∧ seqDecode 0#32 = none) ∧
    (let s := at3 (.add 1 2 3) { gBad := [2] }
     seqForm (.add 3 1 2 3) = some (3, .add 1 2 3) ∧ fetches s 3 (.add 1 2 3) = true ∧ overLimit s 3 = false ∧
     (SeqOp.add 1 2 3).reads.any (fun r => (s.ctx 3).gBad.contains r.val) = true ∧ (s.circ 3).st ≠ .disabled) ∧
    seqForm (.nop 3) = some (3, .nop) := by decide +kernel
theorem witness_SeqFaultsOfEffect :
    (let s := at3 (.call 5#23) { stack := [1#23, 2#23, 3#23, 4#23] }; issues s 3 (.call 5#23) = true ∧ (s.ctx 3).stack.length = 4) ∧
    (issues (at3 .ret) 3 .ret = true ∧ ((at3 .ret).ctx 3).stack = []) ∧
    (issues (at3 (.wait 0)) 3 (.wait 0) = true ∧ ((at3 (.wait 0)).ctx 3).em = 0#16) ∧
    (∀ op ∈ [SeqOp.prx 1 2, .prxNb 1 2, .prxTs 1 2, .ptx 1 2, .ptxL 1 2, .ptxNb 1 2, .pbrk 2, .curPass, .curFree, .curSeek 1, .curHdr 1 2,
        .rd 1 false false false true, .curClose 1 true false true, .curDisc, .wr 1 false false true],
      issues (at3 op) 3 op = true ∧ feedsCtx (at3 op) 3 2 = false ∧ ((at3 op).ctx 3).rcur = .empty ∧ wcurOf (at3 op) 3 = none ∧
        ((at3 op).circ 3).st ≠ .disabled) ∧
    (let s := (at3 (.rd 1 false false false true) { rcur := .held 9 2 true }).setCell 9 { owner := .circ 3, st := .closed, payload := [1, 2, 3, 4, 5] }
     issues s 3 (.rd 1 false false false true) = true ∧ (s.ctx 3).rcur = .held 9 2 true ∧ (s.cell 9).payload.length < 2 + 4) := by decide +kernel
theorem witness_SeqWaitAndMasks :
    (let s := at3 (.wait 1) { em := 3#16, ep := 6#16 }; issues s 3 (.wait 1) = true ∧ (s.ctx 3).ep &&& (s.ctx 3).em ≠ 0#16) ∧
    (let s := at3 (.wait 1) { em := 3#16, ep := 4#16 }
     issues s 3 (.wait 1) = true ∧ (s.ctx 3).em ≠ 0#16 ∧ (s.ctx 3).ep &&& (s.ctx 3).em = 0#16) ∧
    (∀ op ∈ [SeqOp.evmSet 1 5#14, .evmOr 1 5#14, .evmClr 1 5#14, .evmSetr 1 2, .evmPeek 1 5#14], issues (at3 op) 3 op = true) ∧
    (let s := live.setCtx 3 { st := .wait, em := 1#16, ep := 1#16 }
     (s.ctx 3).st = .wait ∧ (s.ctx 3).ep &&& (s.ctx 3).em ≠ 0#16 ∧ stockAt (progAddr (s.ctx 3)) = none ∧ s.power.relock = false ∧
     s.power.st ≠ .dormant) := by decide +kernel
theorem witness_SeqTimersAndTime :
    (∀ op ∈ [SeqOp.tmrStart true 1, .tmrSti false 5#14, .tmrStop true, .tmrRead false 1, .timFrac 1, .timSecl 1, .timSech 1],
      issues (at3 op) 3 op = true) ∧ (({ live with ctxs := [(3, { tm1 := ⟨true, 5⟩ })] }).ctx 3).tm1.run = true := by decide +kernel
theorem witness_SeqCrcEngine :
    ∀ op ∈ [SeqOp.crcCfg 1 1 true false, .crcInit 1, .crcFeed 1, .crcFeedw 1, .crcRead 1 2],
      issues (at3 op) 3 op = true ∧ ((at3 op).ctx 3).crc.width = 8 := by decide +kernel
theorem witness_SeqPatternMatchers :
    ∀ op ∈ [SeqOp.pmVal true 1, .pmMask false 1, .pmLen true 4, .pmClr, .pmFeed 1 2], issues (at3 op) 3 op = true := by decide +kernel
theorem witness_SeqCreditAndSystem :
    ∀ op ∈ [SeqOp.crdCredits 1, .crdHeld 1, .crdWaiting 1, .crdState 1, .crdInbox 1, .sysCnt0, .sysCnt1, .sysSignal 3, .sysSignal 0],
      issues (at3 op) 3 op = true := by decide +kernel
/-- A received character, and a character to send. -/
def rxC : RxChar := ⟨0x55#8, true, 0, false, false, true, 8, 5#80, crc32c [0x55#8]⟩
def txC : TxChar := ⟨0x55#8, false, false, none, crc32c [0x55#8]⟩
theorem witness_SeqPortCharacters :
    issues (at3 (.pst 1 2)) 3 (.pst 1 2) = true ∧
    (∀ op ∈ [SeqOp.prx 1 2, .prxNb 1 2, .prxTs 1 2, .ptx 1 2, .ptxL 1 2, .ptxNb 1 2, .pbrk 2],
      let s := hold2 { rxHold := some rxC } (at3 op)
      let e := hold2 { txHold := some txC } (at3 op)
      let off := regs s [(0x880, 0#32)]
      issues s 3 op = true ∧ feedsCtx s 3 2 = true ∧ holdReady s 2 = true ∧ (s.port 2).rxHold = some rxC ∧ (s.port 2).txHold = none ∧
      issues e 3 op = true ∧ feedsCtx e 3 2 = true ∧ holdReady e 2 = true ∧ (e.port 2).rxHold = none ∧ (e.port 2).txHold ≠ none ∧
      issues off 3 op = true ∧ feedsCtx off 3 2 = true ∧ holdReady off 2 = false ∧ pEn off 2 = false ∧ pEn s 2 = true ∧
      (s.port 2).tx ≠ .brk) := by decide +kernel
/-- Circuit 3's closed cell 9 of three bytes, and its open cell 10 of WCUR. -/
def cell9 : Cell := { owner := .circ 3, st := .closed, payload := [1, 2, 3], sleeve := crc32c [1, 2, 3] }
def cell10 : Cell := { owner := .circ 3, st := .openS, holder := .wcur 3, payload := [7] }
def cells (op : SeqOp) (k : Ctx := {}) (x : Cell := cell10) : State :=
  { ((at3 op k).setCell 9 cell9).setCell 10 x with circs := [(3, { st := .run, inbox := [9, 11] })] }
theorem witness_SeqReadCursor :
    (let s := cells (.curTake 1); issues s 3 (.curTake 1) = true ∧ (s.ctx 3).rcur = .empty ∧ (s.circ 3).inbox = 9 :: [11] ∧
      (s.circ 3).st = .run) ∧
    (issues (at3 (.curTake 1)) 3 (.curTake 1) = true ∧ ((at3 (.curTake 1)).circ 3).inbox = []) ∧
    (∀ op ∈ [SeqOp.curPass, .curFree, .curSeek 1, .curInfo 1 false, .curInfo 1 true, .curHdr 1 3, .curFreei 1],
      let s := cells op { rcur := .held 9 0 false, g := [(1, 2#32)] }
      issues s 3 op = true ∧ (s.ctx 3).rcur = .held 9 0 false ∧ (s.cell 9).owner = .circ 3 ∧ 0 < (greg s 3 1).toNat ∧
        (greg s 3 1).toNat ≤ (s.cell 9).payload.length ∧ wcurOf s 3 = some 10 ∧ issues (at3 op) 3 op = true ∧
        ((at3 op).ctx 3).rcur = .empty ∧ wcurOf (at3 op) 3 = none ∧ ((at3 op).cell 0).owner = .free ∧ (greg (at3 op) 3 1).toNat = 0) ∧
    (let s := cells (.curSeek 1) { rcur := .held 9 2 true, g := [(1, 2#32)] }; (greg s 3 1).toNat = 2 ∧ 2 ≤ (s.cell 9).payload.length) ∧
    (let s := cells (.curSeek 1) { rcur := .held 9 0 true, g := [(1, 4#32)] }; (s.cell 9).payload.length < (greg s 3 1).toNat) ∧
    (let s := cells .curPass { rcur := .held 9 2 true }; (s.ctx 3).rcur = .held 9 2 true ∧ sleeveBad (s.cell 9) = false) ∧
    issues (at3 (.curHdr 1 3) { rcur := .lost }) 3 (.curHdr 1 3) = true ∧
    (let s := cells (.curFreei 1) { g := [(1, 9#32)] }
     issues s 3 (.curFreei 1) = true ∧ 9 = (greg s 3 1).toNat % 4096 ∧ wcurOf s 3 ≠ some 9 ∧ (s.cell 9).st ≠ .taken) := by decide +kernel
theorem witness_SeqWriteCursor :
    (let s := cells (.curAlloc 1); issues s 3 (.curAlloc 1) = true ∧ (s.circ 3).st = .run ∧ wcurOf s 3 = some 10) ∧
    (let s := regs (at3 (.curAlloc 1)) [(cAddr 3 2, 0x00100000#32)]
     issues s 3 (.curAlloc 1) = true ∧ wcurOf s 3 = none ∧ allocDecide s 3 false = .granted ∧
     pickFree s = some (Config.cellChoice 0 % 4096)) ∧
    (let s := regs (at3 (.curAlloc 1)) [(cAddr 3 2, 0#32)]; allocDecide s 3 false = .ceiling) ∧
    (let s := regs (at3 (.curAlloc 1)) ((List.range 16).map (fun c => (cAddr (c + 8) 2, 0xFF#32)) ++ [(cAddr 3 2, 0x00100000#32), (cAddr 3 0, 0x30#32)])
     allocDecide s 3 false = .pool) ∧
    (let s := cells (.curClose 1 true false true)
     issues s 3 (.curClose 1 true false true) = true ∧ wcurOf s 3 = some 10 ∧ (s.cell 10).owner = .circ 3 ∧ (s.cell 10).payload ≠ []) ∧
    (let s := cells (.curClose 1 true false true) {} { cell10 with payload := [] }; wcurOf s 3 = some 10 ∧ (s.cell 10).payload = []) ∧
    (issues (cells .curDisc) 3 .curDisc = true ∧ wcurOf (cells .curDisc) 3 = some 10) := by
  refine ⟨by decide +kernel, ⟨by decide +kernel, by decide +kernel, by decide +kernel, rfl⟩, by decide +kernel, by decide +kernel, by decide +kernel, by decide +kernel, by decide +kernel⟩
theorem witness_SeqCellBytes :
    (∀ op ∈ [SeqOp.rd 1 true true false false, .rd 1 false false true true, .wr 1 true false true, .wr 1 false true false, .copy 1 true],
      let s := cells op { rcur := .held 9 1 true, g := [(1, 2#32)], chLatch := some (5#8, crc32c [5#8]) }
      issues s 3 op = true ∧ (s.ctx 3).rcur = .held 9 1 true ∧ (s.cell 9).bad = [] ∧ wcurOf s 3 = some 10 ∧ (s.cell 10).bad = [] ∧
      1 + 1 ≤ (s.cell 9).payload.length ∧ (s.cell 9).payload.length < 1 + 4 ∧ (s.cell 10).payload.length + 4 ≤ 240 ∧
      (s.ctx 3).chLatch = some (5#8, crc32c [5#8]) ∧ crc32c [5#8] ≠ 0#32 ∧ (s.cell 10).owner = .circ 3 ∧ ((cells op).ctx 3).chLatch = none ∧ issues (cells op) 3 op = true ∧ 9 ≠ 10 ∧
      1 + (greg s 3 1).toNat ≤ (s.cell 9).payload.length ∧ greg s 3 1 ≠ 0#32 ∧ greg (cells op { rcur := .held 9 1 true }) 3 1 = 0#32) := by decide +kernel
theorem witness_SeqCodeRoundTrip :
    (SeqOp.ext 1 2 31#5 0#5).wf = true ∧ (SeqOp.ext 1 2 31#5 1#5).wf = false ∧ seqDecode 0x04C48000#32 = some (.add 3 1 2) := by decide +kernel
theorem witness_ContextControl :
    hostReach (live.setCtx 3 { st := .wait }) = true ∧ hostReach (down .dormant) = false ∧
    ((live.setCtx 3 { st := .wait }).ctx 3).st = .wait ∧
    (let k := (live.setCtx 3 { st := .run }).ctx 3; k.st = .run ∧ k.fill = none ∧ k.cutReq = false) ∧
    (let k := (live.setCtx 3 { st := .run, fill := some 5 }).ctx 3; k.st = .run ∧ k.fill ≠ none ∧ k.cutReq = false) ∧
    ((live.setCtx 3 { st := .halted }).ctx 3).st = .halted ∧ (live.ctx 3).st = .idle ∧
    (run3 {}).circs.map (fun e => e.2.st) = [.run] ∧
    (let s := live.setCtx 71 { st := .faulted }; (s.ctx (64 + 7)).st = .faulted ∧ s.ctlWait = []) := by decide +kernel
/-- R308: RESUME goes back to the state that HALT found; R305: START begins at ENTRY with G15 the circuit number. -/
theorem test_halt_resume : let t := after (.halt 3) (run3 {} (live.setCtx 3 { st := .wait }))
    ((t.ctx 3).st, ((after (.resume 3) t).ctx 3).st) = (.halted, .wait) := by decide +kernel
theorem test_start : let t := after (.start 3) (regs (run3 {} (live.setCtx 3 { st := .wait, e := true })) [(0x2830, 0x4100#32)])
    ((t.ctx 3).st, progAddr (t.ctx 3), greg t 3 15, (t.ctx 3).e) = (.run, 0x4100, 3#32, false) := by decide +kernel
/-- A fill of line 5 in progress, for which context 3 of a circuit in RUN waits. -/
def filling (fails : Nat) : State :=
  { run3 {} (live.setCtx 3 { st := .run, fill := some 5 }) with mem := { active := some (.xip 5) }, seq := { fails := fails } }
theorem witness_FillsAndLoads :
    hostReach live = true ∧ fillBusy live = false ∧ fillBusy (filling 0) = true ∧ live.mem.active = none ∧
    ((filling 0).mem.active = some (.xip 5) ∧ (filling 0).seq.inv = false ∧ (filling 0).seq.fails < 2) ∧
    (2 ≤ (filling 2).seq.fails ∧ ((filling 2).ctx 3).fill = some 5 ∧ ((filling 2).ctx 3).cutReq = false ∧ ((filling 2).circ 3).st = .run) ∧
    (live.bit 0x2400 0 = false ∧ live.bit 0x3001 0 = false) ∧
    (let s := regs (at3 .nop) [(0x3001, 1#32)]
     hostReach s = true ∧ s.bit 0x3001 0 = true ∧ (s.ctx 3).st = .run ∧ (s.ctx 3).fill = none ∧ (s.ctx 3).cutReq = false ∧
     inLoadable (progAddr (s.ctx 3)) = true) ∧
    (let s := regs live [(0x2400, 1#32)]
     s.bit 0x2400 0 = true ∧ s.mem.active ≠ some .image ∧ s.boot.live = true ∧ loadWaits s = false ∧ s.commit.staged = [] ∧
     s.commit.queued = []) := by decide +kernel
/-- R322: the third failed fill in a row faults the contexts that wait for it with code 11. -/
theorem test_xip_fault : let t := after (.xipFillDone 1) (filling 2)
    ((t.ctx 3).st, t.fld (xAddr 3 2) 8 4) = (.faulted, 11) := by decide +kernel
theorem witness_MemoryArbiter :
    (let s := { live with mem := { chainReq := true } }
     s.mem.active = none ∧ s.power.relock = false ∧ s.power.st ≠ .dormant ∧ s.boot.memUp = true ∧ s.mem.progBusy = false ∧
     s.mem.erasing = none ∧ s.mem.again = none ∧ (∀ n ∈ s.mem.passed, n < 64) ∧ startDelay s ≤ (255#8).toNat ∧ (0#8).toNat < startDelay s ∧
     (wantSecond s || !s.mem.fills.isEmpty || wantFirst s || (s.mem.imageReq && !loadWaits s) || s.mem.chainReq || s.mem.hostReq ||
       (wantErase s).isSome) = true) ∧
    (wantSecond live || !live.mem.fills.isEmpty || wantFirst live || (live.mem.imageReq && !loadWaits live) || live.mem.chainReq ||
      live.mem.hostReq || (wantErase live).isSome) = false ∧ (filling 0).mem.active ≠ none := by decide +kernel
/-- A host entry of one output byte: 0x06, or the bulk erase 0xC7, which R375 refuses. -/
def entry (cmd : Word) : State := regs live [(0x3008, 1#32), (0x3010, cmd)]
/-- A chain cycle of 8 output bits in progress, after an earlier one. -/
def chaining : State := { regs live [(0x3031, 8#32)] with mem := { active := some .chain, colls := 6, chainRan := true, chainShift := [true] } }
theorem witness_MemoryEntries :
    ([(0x06000000#32, false), (0xC7000000#32, true)].all (fun e => hostReach (entry e.1) && !(entry e.1).bit 0x3030 1 &&
      (hostPeriods ((entry e.1).setReg 0x3030 0#32)).any (periodRefused ((entry e.1).setReg 0x3030 0#32) (!(entry e.1).bit 0x3008 8)) == e.2)) = true ∧
    (regs live [(0x3030, 2#32)]).bit 0x3030 1 = true ∧
    ((regs live [(0x3031, 0x10000#32)]).fld 0x3031 16 8 ≠ 0 ∧ live.boot.live = true ∧ live.fld 0x3031 16 8 = 0) ∧
    (chaining.mem.active = some .chain ∧ chaining.mem.colls < 7 ∧ chaining.power.relock = false) ∧
    (let s := { live with mem := { active := some .host, colls := 7 } }; s.mem.active = some .host ∧ 7 ≤ s.mem.colls) ∧
    ({ live with mem := { active := some .image } }).mem.active = some .image ∧
    (let s := { live with mem := { progBusy := true } }; s.mem.progBusy = true ∧ s.mem.retry = none) ∧
    (let s := { live with mem := { erasing := some 0x1000 } }; s.mem.progBusy = false ∧ s.mem.erasing = some 0x1000 ∧ s.mem.retry = none) ∧
    (let s := { live with mem := { parked := some 32 } }; s.mem.active = none ∧ s.mem.parked ≠ none) ∧
    (hostRefused (entry 0x06000000#32) = false ∧ hostRefused (entry 0xC7000000#32) = true) ∧
    ({ live with mem := { retry := some .program } }).mem.retry = some .program ∧
    ({ live with mem := { retry := some .erase } }).mem.retry = some .erase := by decide +kernel
/-- R377: a cycle latches what the cycle before shifted out; R378: its input bits stand in MEM_CHIN0. -/
theorem test_chain_cycle : let t := after (.memEntryDone [0xA5000000#32]) chaining
    (t.mem.chainOut, t.reg 0x3038, t.bit 0x3034 4) = ([true], 0xA5000000#32, true) := by decide +kernel
theorem witness_JournalCommands :
    hostReach live = true ∧ formatBad live = true ∧
    (let s := regs live [(0x3100, 1#32), (0x3001, 1#32), (0x3002, 22#32), (0x3104, 0x00100100#32)]; formatBad s = false ∧ hostReach s = true) ∧
    (live.fld 0x3106 0 16 ≠ 0) ∧ (regs live [(0x3106, 0#32)]).fld 0x3106 0 16 = 0 ∧
    (let s := { live with jwrite := { verify := some 1 } }
     s.jwrite.verify = some 1 ∧ headerDue s = false ∧ (5#64 : BitVec 64) ≠ s.chip.uid ∧ live.jwrite.verify = none) := by decide +kernel
/-- A machine whose power has been released and whose start-up has come as far as `b`. -/
def booting (b : Boot) : State := { State.reset with boot := b, power := { released := true } }
theorem witness_ResetCauses :
    (inReset State.reset = true ∧ inReset live = false) ∧
    (let s := { live with sup := { wdRun := true } }
     s.sup.wdRun = true ∧ s.power.relock = false ∧ s.power.st ≠ .dormant ∧ 1#8 ≠ 0#8) ∧ live.sup.wdRun = false ∧
    (let s := { live with power := { rstArmed := true } }; hostReach s = true ∧ s.power.rstArmed = true) ∧
    hostReach (down .dormant) = false ∧ live.power.rstArmed = false ∧
    ({ live with power := { relock := true } }).power.relock = true ∧ live.power.relock = false := by decide +kernel
theorem witness_SupplyAndStrobes :
    ({ live with power := { low := true } }).power.low = true ∧
    (State.reset.power.low = false ∧ State.reset.power.released = false ∧ State.reset.power.cause ≤ 1) ∧ live.power.released = true ∧
    (hostReach live = true ∧ hostReach (down .dormant) = false) ∧
    ({ live with power := { pfiLow := true } }).power.pfiLow = true ∧ live.power.pfiLow = false := by decide +kernel
/-- The power-on release takes BATOK only with the HOLD crystal; an intact run marker makes a brownout of it. -/
theorem test_power_on_release : let s := { State.reset with hold := { runMarker := true } }
    let t := after (.powerOnRelease true true true) s
    (t.power.batOk, t.power.cause, t.hold.brown, (after (.powerOnRelease true true false) s).power.batOk,
      (after (.powerOnRelease true false true) s).power.cause) = (true, 1, 1, false, 0) := by decide +kernel
theorem witness_StartUpSteps :
    (let s := booting {}; s.power.low = false ∧ s.power.released = true ∧ s.boot.started = false) ∧ State.reset.power.released = false ∧
    (let s := booting { started := true }
     s.boot.started = true ∧ s.boot.strapped = false ∧ s.boot.factory = false ∧ s.strap.slot < 5 ∧ s.boot.hostUp = false ∧
     s.power.st ≠ .dormant) ∧
    (let s := { booting { started := true } with strap := { slot := 5, mv := [0, 125, 250, 375, 500, 0] } }
     s.strap.slot = 5 ∧ ∀ k, k < 6 → (levelOf (((listSet s.strap.mv 5 (meanOf (conv 620)))[k]?).getD 0)).isSome = true) ∧
    (let s := { booting { started := true } with strap := { slot := 6, again := [2, 4] } }
     s.boot.strapped = false ∧ s.boot.factory = false ∧ s.strap.slot = 6 ∧ s.strap.again = 2 :: [4]) ∧
    (State.reset.boot.started = false ∧ live.boot.strapped = true ∧ (down .dormant).power.waking = false ∧ live.boot.hostUp = true) ∧
    (let s := { live with power := { st := .dormant, waking := true } }; s.boot.started = true ∧ s.power.waking = true) ∧
    (let s := regs (booting { started := true, strapped := true }) [(0x200, 1#32)]
     s.power.waking = false ∧ (s.boot.started && s.boot.strapped && s.bit 0x200 0 && !s.boot.hostUp) = true) ∧
    (live.power.waking = false ∧ (live.boot.started && live.boot.strapped && live.bit 0x200 0 && !live.boot.hostUp) = false) ∧
    (let s := booting { memUp := true }; s.boot.memUp = true ∧ s.boot.scanned = false) ∧ live.boot.scanned = true ∧
    (let s := booting { scanned := true }; s.boot.scanned = true ∧ s.boot.imaged = false ∧ s.bit 0x3001 0 = false) ∧ live.boot.imaged = true ∧
    (let s := booting { imaged := true, brownout := true, audited := true }
     (s.boot.imaged && !s.boot.mantled && (!s.boot.brownout || s.boot.audited) && !s.power.relock) = true) ∧
    (let s := booting { imaged := true, brownout := true }
     (s.boot.imaged && !s.boot.mantled && (!s.boot.brownout || s.boot.audited) && !s.power.relock) = false) ∧
    (let s := booting { mantled := true }; s.boot.mantled = true ∧ s.boot.live = false ∧ s.power.relock = false) ∧ live.boot.live = true ∧
    (let s := regs { live with hold := { inTime := true } } [(0x200, 2#32)]; s.bit 0x200 1 = true ∧ s.hold.inTime = true) ∧
    (let s := regs { live with hold := { valid := true } } [(0x200, 2#32)]
     s.bit 0x200 1 = true ∧ s.hold.inTime = false ∧ s.hold.valid = true) ∧
    (let s := regs live [(0x200, 2#32)]; s.bit 0x200 1 = true ∧ s.hold.inTime = false ∧ s.hold.valid = false) ∧
    live.bit 0x200 1 = false := by decide +kernel
/-- DORMANT, with port 2, the host select and the WAKE pin among the enabled sources and the wake timer running. -/
def asleep : State := { regs live [(0x880, 1#32), (0x203, 0x30004#32), (0x202, 0x10000#32)] with power := { released := true, st := .dormant } }
theorem witness_LockAndPowerStates :
    lockedNow (regs live [(0x200, 2#32)]) = true ∧ (lockedNow live = false ∧ live.power.st ≠ .dormant ∧ (down .dormant).power.st = .dormant) ∧
    (let s := { regs live [(0x200, 2#32)] with mem := { active := some .host } }; lockedNow s = true ∧ s.mem.active = some .host) ∧
    (let s := { live with power := { relock := true, rootLost := true } }
     s.power.relock = true ∧ s.commit.staged = [] ∧ s.power.rootLost = true) ∧ live.power.relock = false ∧
    (let s := regs live [(0x202, 1#32)]
     s.power.st = .run ∧ s.boot.live = true ∧ s.power.relock = false ∧ s.bit 0x202 0 = true ∧ (∀ x, x < 72 → (s.ctx x).st ≠ .run) ∧
     ∀ n, n < 16 → (s.port n).tx = .idle ∧ (s.port n).rxBusy = false) ∧
    ((regs live [(0x202, 0#32)]).bit 0x202 0 = false ∧ (down .quiet).power.st = .quiet ∧ live.power.st ≠ .quiet) ∧
    (let s := regs live [(0x200, 0x10#32)]
     s.bit 0x200 4 = true ∧ s.boot.live = true ∧ s.power.relock = false ∧ s.power.st ≠ .dormant ∧ mayRest s = true) ∧ live.bit 0x200 4 = false ∧
    (asleep.power.st = .dormant ∧ asleep.power.waking = false ∧ (0x4#20).getLsbD 2 = true ∧ present asleep 2 = true ∧ pEn asleep 2 = true ∧
      asleep.bit 0x203 2 = true ∧ (0x10000#20).getLsbD 16 = true ∧ asleep.fld 0x105 9 2 ≠ 2 ∧ asleep.bit 0x203 16 = true ∧
      (0x20000#20).getLsbD 17 = true ∧ asleep.bit 0x203 17 = true ∧ (0x80000#20).getLsbD 19 = true ∧ asleep.fld 0x202 16 16 ≠ 0) ∧
    (let s := { live with power := { waking := true } }; s.power.waking = true ∧ s.power.slowWake = false ∧ s.commit.staged = []) ∧
    ({ live with power := { waking := true, slowWake := true } }).power.slowWake = true ∧ live.power.waking = false := by decide +kernel
theorem witness_StrapCommands :
    (hostReach live = true ∧ hostReach (down .dormant) = false) ∧
    (let s := { live with strap := { measuring := true } }
     s.strap.measuring = true ∧ (after (.measureDone (List.replicate 6 (conv 0x7D0))) s).fld 0x112 0 24 ≠ s.fld 0x100 0 24) ∧
    live.strap.measuring = false ∧
    (let s := { live with strap := { handbackRun := true }, power := { relock := true } }
     s.commit.staged = [] ∧ s.commit.queued = [] ∧ hostReach s = true ∧ s.strap.handbackRun = true ∧ commitsRun s = false) ∧
    live.strap.handbackRun = false ∧
    ({ live with strap := { twinWait := true } }).strap.twinWait = true ∧ live.strap.twinWait = false := by decide +kernel
theorem witness_PortReceiver :
    let ready (s : State) : Bool :=
      let p := s.port 2
      pLive s 2 && !p.frozen && !p.gloved && !s.power.relock && !rxMuted s 2
    let lost (s : State) : Bool :=
      let p := s.port 2
      (pLive s 2 || (s.power.waking && present s 2 && pEn s 2)) && !p.gloved && !rxMuted s 2 &&
        (p.frozen || pSwitching s 2 || !(p.armed || p.rearm || p.lineBrk))
    let on := hold2 { armed := true }
    let cts := regs (hold2 {}) [(0x884, 1#32)]
    let taken (s : State) (level : Bool) : Bool :=
      s.boot.mantled && present s 2 && hasCts s 2 && (s.port 2).cts != (level == s.bit (pAddr 2 0) 5)
    (ready (hold2 {}) = true ∧ ((hold2 {}).port 2).armed = false) ∧ ready (hold2 { gloved := true }) = false ∧
    (let s := hold2 { rearm := true }; ready s = true ∧ (s.port 2).rearm = true ∧ (s.port 2).lineBrk = false) ∧
    (rxOn on 2 = true ∧ (on.port 2).rxBusy = false ∧ majority sp = false ∧ majority mk = true) ∧ rxOn (hold2 {}) 2 = false ∧
    lost (hold2 {}) = true ∧ lost on = false ∧
    (let s := hold2 { lineBrk := true }; ready s = true ∧ (s.port 2).lineBrk = true) ∧
    (hostReach (hold2 {}) = true ∧ present (hold2 {}) 2 = true ∧ ((hold2 {}).port 2).tx ≠ .brk) ∧ ((hold2 { tx := .brk }).port 2).tx = .brk ∧
    hostReach (down .dormant) = false ∧
    (taken cts false = true ∧ pFlow cts 2 = 1 ∧ portTrunk cts 2 = none ∧ pFeed cts 2 = some 3) ∧ taken cts true = false := by
  decide +kernel
/-- Characters as received: good, and a break. -/
def good : RxBits := ⟨[sp, mk, sp, mk, sp, mk, sp, mk, sp, mk], true, 0#8, 9#80⟩
def brk : RxBits := ⟨List.replicate 10 sp, false, 0#8, 9#80⟩
/-- Port 2 in CELL mode with an open receive cell 9 of circuit 3. -/
def rx9 : Cell := { owner := .circ 3, st := .openS, holder := .portRx 2, payload := [7] }
def cellRx (p : Port) : State := (regs (hold2 p) [(0x880, 3#32)]).setCell 9 rx9
/-- R172, R174: the majority of the three samples of each bit makes the character; samples that disagree make noise. -/
theorem test_noise : let r := { good with samples := sp :: 6#3 :: good.samples.drop 2 }
    (rxData (hold2 { armed := true }) 2 r, rxNoise (hold2 { armed := true }) 2 r, rxNoise (hold2 { armed := true }) 2 good) =
      (0x55#8, true, false) := by decide +kernel
theorem witness_PortStores :
    (∀ p ∈ [{ armed := true }, { armed := true, rxHold := some rxC : Port }], let s := hold2 p
      rxOn s 2 = true ∧ rxBit good 0 = false ∧ portTrunk s 2 = none ∧ pCell s 2 = false ∧ pFeed s 2 = some 3 ∧ charClass s 2 good = 0 ∧
      flowKind s 2 (rxData s 2 good) (pNine s 2 && rxPar s 2 good) 0 = 0 ∧ charClass s 2 brk = 3 ∧ rxBit brk 0 = false) ∧
    ((hold2 { armed := true }).port 2).rxHold = none ∧ rxOn (hold2 {}) 2 = false ∧
    (let s := cellRx { armed := true, timeout := true }
     rxOn s 2 = true ∧ pCell s 2 = true ∧ pAddrMode s 2 = 0 ∧ pFeed s 2 = some 3 ∧ openRx s 2 3 = some 9 ∧ (s.cell 9).bad = [] ∧
     (s.cell 9).payload.length < 239 ∧ charClass s 2 good = 0 ∧ flowKind s 2 (rxData s 2 good) (pNine s 2 && rxPar s 2 good) 0 = 0 ∧
     crc32c [rxData s 2 good ^^^ 1#8] ≠ crc32c [rxData s 2 good] ∧ (s.cell 9).owner = .circ 3 ∧
     hostReach s = true ∧ present s 2 = true ∧ pLive s 2 = true ∧ (s.port 2).timeout = true ∧ (s.port 2).frozen = false ∧ portTrunk s 2 = none ∧
     s.cells.filter (fun e => e.2.st == .openS && e.2.holder == .portRx 2) = [(9, rx9)] ∧ s.cell 9 = rx9 ∧ rx9.owner = .circ 3 ∧
     rx9.payload ≠ [] ∧ (twinRule s && s.strap.standby) = false ∧ cTap s 3 = false) := by decide +kernel
theorem witness_PortTransmitter :
    (∀ p ∈ [{ brkReq := true }, { txHold := some txC }, { txHold := some { txC with check := 0#32 } }, { tx := .char }, { tx := .brk : Port }],
      let s := hold2 p
      txHeld s 2 = false ∧ portTrunk s 2 = none ∧ pFlow s 2 = 0 ∧ pRole s 2 ≠ 2 ∧ pCell s 2 = false ∧ (s.port 2).txCell = none) ∧
    crc32c [txC.data] = txC.check ∧ crc32c [0x55#8] ≠ 0#32 ∧
    (let s := regs (hold2 { brkReq := true }) [(0x880, 0x49#32), (0x886, 5#32)]
     txHeld s 2 = false ∧ pCell s 2 = false ∧ pRole s 2 = 2 ∧ pEcho s 2 = true ∧ (s.port 2).de = false ∧ (s.port 2).tx = .idle ∧
     s.fld (pAddr 2 6) 0 8 ≠ 0) ∧
    (let s := (regs (hold2 { tx := .char, txCell := some 9 }) [(0x880, 3#32)]).setCell 9 { cell9 with st := .taken, holder := .portTx 2 }
     txHeld s 2 = false ∧ portTrunk s 2 = none ∧ pFlow s 2 = 0 ∧ pRole s 2 ≠ 2 ∧ pCell s 2 = true ∧ (s.port 2).txCell = some 9 ∧
     (s.cell 9).abandon = false ∧ (s.cell 9).bad = [] ∧ (s.port 2).txOff + 1 < (s.cell 9).payload.length) ∧
    (let s := hold2 { tx := .lead, item := .brk }; (s.port 2).tx = .lead ∧ txHeld s 2 = false ∧ (s.port 2).item = .brk) ∧
    ((hold2 { tx := .lag }).port 2).tx = .lag := by decide +kernel

/-- Circuit 3 in RUN with a ceiling of 16 cells, in class 1; the same at its ceiling; and a state whose shared pool is spent. -/
def roomy : State := regs (run3 {}) [(cAddr 3 2, 0x00100000#32)]
def spent : State := regs (run3 {}) ((List.range 16).map (fun c => (cAddr (c + 8) 2, 0xFF#32)) ++ [(cAddr 3 2, 0x00100000#32), (cAddr 3 0, 0x31#32)])
theorem witness_CellAllocation :
    (pickFree roomy = some (Config.cellChoice 0 % 4096)) ∧
    (allocDecide roomy 3 true = .granted ∧ allocDecide roomy 3 false = .granted ∧ allocDecide live 3 true = .state ∧
     allocDecide (regs (run3 {}) [(cAddr 3 2, 0#32)]) 3 true = .ceiling ∧ allocDecide spent 3 true = .pool ∧ sysRoom roomy .ctl = true ∧
     sysRoom { live with cells := (List.range 48).map (fun i => (i, { owner := .sys .relay, st := .openS })) } .relay = false) ∧
    ((∀ u, sysRoom roomy u = true) ∧ (∃ q ∈ [Requester.push 3, .control], reqCirc q = none) ∧ (∀ e ∈ roomy.cells, e.2.holder ≠ .wcur 3) ∧
     ∀ q ∈ [Requester.port 2 3, .ctx 3], mayAsk (live.setCell 10 cell10) q = false) ∧
    (let s := live.setCell 9 cell9; (s.cell 9).owner = .circ 3 ∧ (s.cell 9).st ≠ .taken ∧ (s.cell 9).retire = false ∧ (s.cell 9).origin / 2 ^ 22 ≠ 1 ∧
      (s.cell 8).owner = .free ∧ s.mapsWf = true ∧ (s.cell 9).owner ≠ .circ 4 ∧ (s.cell 9).owner ≠ .free ∧
      ((run3 {} s).circ 3).st ≠ .disabled) ∧
    ((live.setCell 9 { cell9 with st := .taken }).cell 9).st = .taken := by
  refine ⟨rfl, by decide +kernel, ⟨by intro u; cases u <;> decide +kernel, ⟨.control, by simp, rfl⟩, by decide +kernel, by decide +kernel⟩,
    by decide +kernel, by decide +kernel⟩
/-- A device that owns address 5, with a valid route to 0x123 over trunk 2 (hop 0x7) and trunk 2 up. -/
def routed (s : State := live) : State :=
  { regs s [(0x4000, 5#32)] with fab := { s.fab with
      routes := [(0, { st := .valid, dst := 0x123, best := ⟨2, 7, 3⟩ })], trunks := [{}, {}, { up := true, changed := [0x123] }, {}, {}, {}] } }
/-- Circuit 3 bound to circuit 6 of device 0x123, with a waiting cell. -/
def bound3 (k : Circ) : State := (regs (run3 k (routed (live.setCell 9 cell9))) [(0x10C1, 0x01230602#32)])
theorem witness_CircuitTimers :
    (let e : CreditEntry := ⟨0x123, 6, 3, 2, 9⟩
     let s := { routed with credits := [e] }
     s.credits.find? (fun f => f.dev == (0x123#12).toNat && f.circ == 6 && f.owner == 3) = some e ∧ sysDown s e.owner = false ∧ sysUsed s < 96) ∧
    live.credits.find? (fun f => f.dev == (0x123#12).toNat && f.circ == 6 && f.owner == 3) = none ∧
    pickFree routed ≠ none ∧
    (let s := bound3 { queue := [9] }
     cKind s 3 = 2 ∧ boundLocal s 3 = false ∧ (s.circ 3).st ≠ .disabled ∧ (s.circ 3).credits = 0 ∧ (s.circ 3).queue ≠ [] ∧ ownAddr s ≠ 0 ∧
     sysDown s 3 = false ∧ (bestPath s (cRdev s 3)).isSome = true ∧ sysUsed s < 96) ∧
    (∀ n ∈ [0, 1, 2], let s := regs (run3 { stallRun := true }) [(0x10C0, BitVec.ofNat 32 (4096 * n + 1))]
      (s.circ 3).stallRun = true ∧ stallHeld s 3 = false ∧ cStallAct s 3 = n) ∧
    (live.circ 3).st = .disabled ∧ (live.circ 3).stallRun = false ∧ hostReach live = true ∧ hostReach (down .dormant) = false ∧
    (∃ s : State, (s.circ 3).st ≠ .disabled ∧ (s.ctx 3).st = .run ∧ (s.ctx 3).fill ≠ none) ∧
    (let s := live.setCirc 3 { st := .fault, frestart := true }
     (s.circ 3).st = .fault ∧ (s.circ 3).frestart = true ∧ cEn s 3 = false ∧ heldBy s 3 = 0 ∧ heldBy (s.setCell 9 cell9) 3 ≠ 0 ∧
     cEn (regs s [(0x10C0, 1#32)]) 3 = true ∧ s.boot.live = true ∧ (s.ctx 3).fill = none) ∧ (live.circ 3).st ≠ .fault := by
  refine ⟨by decide +kernel, by decide +kernel, ?_, by decide +kernel, by decide +kernel, by decide +kernel, by decide +kernel,
    by decide +kernel, by decide +kernel, ⟨run3 {} (live.setCtx 3 { st := .run, fill := some 5 }), by decide +kernel⟩, by decide +kernel, by decide +kernel⟩
  rw [show pickFree routed = some (Config.cellChoice 0 % 4096) from rfl]
  exact Option.some_ne_none _
theorem witness_Scrubbing :
    (let s := regs live [(0x2019, 1#32)]; s.fld 0x2019 0 8 ≠ 0 ∧ s.pool.scrubPos + 1 < 151552 ∧ correctedBefore s 0 0 = false ∧
      (scrubWhere 0) = (0, 0)) ∧
    (let s := { regs live [(0x2019, 1#32)] with cells := [(0, { corrected := [0] })] }; correctedBefore s 0 0 = true) ∧
    (let s := { live with pool := { scrubPos := 151551, fullPass := true } }; s.pool.fullPass = true ∧ s.pool.scrubPos = 151551) ∧
    (let s := { live with pool := { scrubPos := 135168, fullPass := true } }; (scrubWhere s.pool.scrubPos).1 = 2 ∧ s.pool.scrubPos + 1 < 151552) ∧
    (let s := regs live [(0x2019, 0#32)]; ¬ (s.fld 0x2019 0 8 ≠ 0 ∨ s.pool.fullPass = true)) ∧
    (hostReach live = true ∧ hostReach (down .dormant) = false ∧ live.bit 0x201B 16 = false ∧
      (regs live [(0x201B, 0x10000#32)]).bit 0x201B 16 = true) := by decide +kernel
/-- R298: a write-back that traffic overtook is forgotten. -/
theorem test_scrub_overtaken : let t := after (.scrubWord .corrected false true []) (regs live [(0x2019, 1#32)])
    (t.fld 0x2015 0 16, correctedBefore t 0 0) = (1, false) := by decide +kernel
/-- A packet to this device (address 5) from circuit 6 of 0x123, and it as taken from trunk 2. -/
def pkt (typ : Nat) (body : List Byte) (dst : Nat := 5) (fl : Nat := 0) : Pkt :=
  { cls := 1, typ := typ, fl := fl, dst := dst, src := 0x123, dcirc := 3, scirc := 6, hops := 3, seq := 9, ts := 0, sleeve := crc32c body, body := body }
def inQ (p : Pkt) (s : State := routed) : State := { s with fab := { s.fab with inQ := [⟨p, 2, 7, false, 0#80, 0⟩] } }
/-- A reorder context of that pair, expecting number 9. -/
def order9 : Reorder := { used := true, src := 0x123, scirc := 6, dcirc := 3, next := 9 }
def ordered (s : State) : State := { s with fab := { s.fab with orders := [(0, order9)] } }
/-- A received UART frame of `body`: header, body, CRC, sync. -/
def utFrame (body : List Byte) : List Byte :=
  let h : List Byte := [2, BitVec.ofNat 8 body.length, 0x00, 0x50, 0x07]
  let l := h ++ [crc8 h] ++ body
  l ++ bytesBE 4 (crc32 l).toNat ++ [0xE2, 0x5D]
def ctlBody : List Byte := [0x08, 0, 0x50, 0x07, 0, 0, 4, 0, 1, 2, 3, 4]
def frm (l : List Byte) : State := { routed with fab := { routed.fab with trunks := [{}, {}, { up := true, lock := .locked, rx := l }, {}, {}, {}] } }
theorem witness_FabricTraffic :
    (live.fab.inQ = [] ∧ (∀ e ∈ live.fab.segQ, e.1 ≠ 0) ∧ (live.trunk 2).lock = .hunt ∧ (live.circ 3).queue = [] ∧ (live.order 0).used = false ∧
      (live.order 0).held = [] ∧ (∀ o ∈ live.outQ, o.cell ≠ 9) ∧ ¬ ∃ x ∈ live.fab.reasm, x.chan = 0 ∧ x.sender = 7 ∧ x.cls = 1) ∧
    (let f : CanFrame := ⟨true, 2 ^ 26 + 5 * 4096 + 7, false, true, false, false, 10, 0xC0 :: ctlBody⟩
     let s := { routed with fab := { routed.fab with segQ := [(0, f, 9#80)] } }
     s.fab.segQ = [(0, f, 9#80)] ∧ f.data = 0xC0 :: ctlBody ∧ f.id.testBit 26 = true ∧ f.id / 4096 % 4096 = ownAddr s ∧ (0xC0#8).getLsbD 7 = true ∧ (0xC0#8).getLsbD 6 = true ∧
     (s.fab.reasm.filter (fun x => x.chan == 0)).length < 32 ∧ pktLen ctlBody = some 12 ∧ 12 ≤ ctlBody.length ∧
     1 + ctlBody.length ≤ dlcLen f.fdf (dlcFor (1 + 12)) ∧ (pktOf (ctlBody.take 12)).isSome = true) ∧
    (let l := utFrame ctlBody
     utHeader l = some (false, 12) ∧ l.length = 12 + 12 ∧ byteAt l (10 + 12) = 0xE2#8 ∧ byteAt l (11 + 12) = 0x5D#8 ∧
     natBE ((l.drop (6 + 12)).take 4) = (crc32 (l.take (6 + 12))).toNat ∧ natBE ((l.drop 2).take 3) / 4096 = ownAddr (frm l) ∧
     utAuth (frm l) 2 = false ∧ (pktOf (((l.take (6 + 12)).drop 6).take 12)).isSome = true ∧ ((frm l).trunk 2).lock = .locked) ∧
    (let l := utFrame ctlBody; let m := l.take 8 ++ [0xFF] ++ l.drop 9
     utHeader m = some (false, 12) ∧ m.length = 12 + 12 ∧ natBE ((m.drop (6 + 12)).take 4) ≠ (crc32 (m.take (6 + 12))).toNat) ∧
    (let p := pkt 0 [1] 0x123
     p.dst ≠ 0xFFF ∧ p.dst ≠ 0 ∧ p.dst ≠ ownAddr (inQ p) ∧ ownAddr (inQ p) ≠ 0 ∧ p.hops < 15 ∧ bestPath (inQ p) p.dst = some ⟨2, 7, 3⟩ ∧
     sysRoom (inQ p) .relay = true ∧ 15 ≤ ({ p with hops := 15 }).hops) ∧ pickFree (inQ (pkt 0 [1] 0x123)) = some (Config.cellChoice 0 % 4096) ∧
    (let p := pkt 0 [1, 2]
     let s := ordered (inQ p (regs (run3 {} routed) [(cAddr 3 2, 0x00100000#32)]))
     p.typ = 0 ∧ p.dst = ownAddr s ∧ ownAddr s ≠ 0 ∧ sysDown s p.dcirc = false ∧ orderIdx s p.src p.scirc p.dcirc = some 0 ∧ (s.order 0).next = p.seq ∧ (s.order 0).held = [] ∧
     allocDecide s p.dcirc true = .granted ∧ crc32c p.body = p.sleeve ∧ p.body ≠ []) ∧
    ((pkt 0 [1] 0).dst = 0 ∧ (pkt 0 [1] 0xFFF).dst = 0xFFF) ∧
    (let s := bound3 { queue := [9], credits := 5 }
     (s.circ 3).queue = 9 :: [] ∧ cKind s 3 = 2 ∧ (s.circ 3).st ≠ .disabled ∧ (s.circ 3).credits ≠ 0 ∧ ownAddr s ≠ 0 ∧ boundLocal s 3 = false ∧
     sysDown s 3 = false ∧ bestPath s (cRdev s 3) = some ⟨2, 7, 3⟩) ∧
    sysDown (live.setCtx 64 { st := .faulted }) 3 = true ∧
    (let s := { routed with fab := { routed.fab with orders := [(0, { order9 with held := [pkt 0 [1]] })] } }
     sysDown s (s.order 0).dcirc = false ∧ (s.order 0).used = true ∧ (s.order 0).held = [pkt 0 [1]] ∧ (pkt 0 [1]).seq < 65536 ∧ (s.order 0).next < 65536 ∧ (s.order 1).held = []) ∧
    (let o : OutPkt := { pkt := pkt 0 [1], cell := 9 }
     let s := { routed with outQ := [o], cells := [(9, { owner := .sys .relay, st := .openS })] }
     s.outQ.find? (fun y => y.cell == 9) = some o ∧ o.pkt.typ = 0 ∧ (s.cell 9).owner = .sys .relay ∧ (s.cell 9).retire = false ∧ s.ctlWait = [] ∧
     s.jnl.waiting = []) ∧
    (let s := { routed with fab := { routed.fab with reasm := [⟨0, 7, 1, 1, [], 0#80⟩] } }; ∃ x ∈ s.fab.reasm, x.chan = 0 ∧ x.sender = 7 ∧ x.cls = 1) := by
  refine ⟨by decide +kernel, by decide +kernel, by decide +kernel, by decide +kernel, by decide +kernel, rfl, by decide +kernel, by decide +kernel,
    by decide +kernel, by decide +kernel, by decide +kernel, by decide +kernel, by decide +kernel⟩
/-- A claim received from a device of another UID: it claims our address strapped and as owner. -/
def claimP (fl : Nat) (flags : Byte) : Pkt := { pkt 6 ([0, 0, 0, 0, 0, 0, 0, 0, flags] ++ List.replicate 7 0) with src := 5, fl := fl, dst := 0xFFF }
theorem witness_FabricControl :
    (live.fab.inQ = [] ∧ hostReach live = true ∧ hostReach (down .dormant) = false ∧ live.fab.claim.active = false ∧
      live.fab.claim.backoff = false) ∧
    (let p := pkt 1 [0x21, 0, 0, 9]; let s := inQ p
     p.typ = 1 ∧ p.dst = ownAddr s ∧ ownAddr s ≠ 0 ∧ sysDown s 3 = false ∧ seqBefore (natBE ((p.body.drop 2).take 2)) (s.circ 3).tombSeq = false ∧
     seqBefore (natBE ((p.body.drop 2).take 2)) ((s.setCirc 3 { tombSeq := 10 }).circ 3).tombSeq = true) ∧
    (let p := pkt 2 [0, 9]
     sysUsed (inQ p) < 96 ∧ orderIdx (inQ p) p.src p.scirc 3 = none ∧ orderIdx (ordered (inQ p)) p.src p.scirc 3 = some 0 ∧
     ((ordered (inQ p)).order 0) = order9 ∧ order9.used = true ∧ order9.src = p.src ∧ order9.scirc = p.scirc ∧ order9.dcirc = 3) ∧
    pickFree (inQ (pkt 2 [0, 9])) = some (Config.cellChoice 0 % 4096) ∧
    (let p := pkt 3 [0, 2, 0, 0]; let s := inQ p (regs routed [(0x10C3, 8#32)])
     natBE ((p.body.drop 2).take 2) = (s.circ 3).tombSeq ∧ (s.circ 3).credits < cInit s 3 - natBE (p.body.take 2)) ∧
    ((pkt 4 [0, 9]).typ = 4 ∧ orderIdx (ordered (inQ (pkt 4 [0, 9]))) 0x123 6 3 = some 0 ∧ order9.held = []) ∧ (regs live [(0x4001, 5#32)]).fld 0x4001 0 12 ≠ 0 ∧
    (∀ n ∈ [1, 2, 3], let s := { live with fab := { claim := { active := true, addr := 5, step := n } } }
      s.fab.claim.active = true ∧ (s.fab.claim.step < 3 ∨ 3 ≤ s.fab.claim.step)) ∧
    (∀ w ∈ [false, true], let s := inQ (claimP 3 0x80) (regs { routed with chip := { uid := 2#64 } } [(0x4000, if w then 0x4005#32 else 5#32)])
      let p := claimP 3 0x80
      p.typ = 6 ∧ p.fl % 2 = 1 ∧ p.src = ownAddr s ∧ ownAddr s ≠ 0 ∧ natBE (p.body.take 8) ≠ s.chip.uid.toNat ∧
      goesFirst ((byteAt p.body 8).getLsbD 7) (p.fl / 2 % 2 == 1) (natBE (p.body.take 8)) (ownStrapped s) true s.chip.uid.toNat = true ∧
      (s.fab.claim.defeats + 1) % 16 ≠ 0 ∧ ownStrapped s = w) ∧
    ({ live with fab := { claim := { backoff := true } } }).fab.claim.backoff = true := by
  refine ⟨by decide +kernel, by decide +kernel, by decide +kernel, rfl, by decide +kernel, by decide +kernel, by decide +kernel, by decide +kernel,
    by decide +kernel, by decide +kernel⟩
theorem witness_FabricTables :
    (live.fab.inQ = [] ∧ hostReach live = true ∧ hostReach (down .dormant) = false ∧ (live.nbr 1).st = .empty ∧ (live.trunk 2).up = false ∧
      ownAddr live = 0 ∧ (down .dormant).power.st = .dormant ∧ (live.route 0).st ≠ .valid ∧ (live.route 0).st ≠ .hold ∧
      (live.trunk 2).changed = [] ∧ nbrIdx live 2 7 = none) ∧
    (let p := { pkt 6 [0, 0, 0, 0, 0, 0, 0, 9, 0, 10] with dst := 0xFFF }; let s := inQ p
     p.typ = 6 ∧ p.fl % 2 = 0 ∧ p.src ≠ ownAddr s ∧ s.fab.claim.active = false ∧ utAuth s 2 = false ∧ nbrIdx s 2 p.src = none ∧
     nbrRoom s 2 = some 0) ∧
    (let s := { live with fab := { nbrs := [(1, { st := .plain, addr := 7, trunk := 2 })] } }; (s.nbr 1).st ≠ .empty) ∧
    ((routed.trunk 2).up = true ∧ ownAddr routed ≠ 0 ∧ routed.power.st ≠ .dormant ∧ sysUsed routed < 96 ∧ (routed.trunk 2).changed ≠ []) ∧
    (let p := { pkt 5 ([0, 0, 0, 0] ++ routeWord 0x200 2 false 77) with dst := 0xFFF }; let s := inQ p
     p.typ = 5 ∧ p.body = [0, 0, 0, 0] ++ routeWord 0x200 2 false 77 ∧ 0x200 ≠ ownAddr s ∧ routeIdx s 0x200 = none ∧
     routeRoom s (2 + 1) = some 1 ∧ (s.route 1).st = .empty) ∧
    (∀ a ∈ [none, some (⟨3, 8, 4⟩ : RPath)], let s := { live with fab := { routes := [(0, { st := .valid, dst := 0x123, alt := a })] } }
      (s.route 0).st = .valid ∧ (s.route 0).alt = a) ∧
    ({ live with fab := { routes := [(0, { st := .hold })] } }.route 0).st = .hold ∧
    pickFree routed = some (Config.cellChoice 0 % 4096) ∧
    (let p := { pkt 7 (List.replicate 20 0) with dst := 0xFFF }
     let s := inQ p { routed with fab := { routed.fab with nbrs := [(1, { st := .plain, addr := 7, trunk := 2 })] } }
     p.typ = 7 ∧ nbrIdx s 2 7 = some 1) := by
  refine ⟨by decide +kernel, by decide +kernel, by decide +kernel, by decide +kernel, by decide +kernel, by decide +kernel, by decide +kernel, rfl,
    by decide +kernel⟩

/-- Channel A active in NORMAL mode with `x`; object 4 a receive object for identifier 0x100, object 5 a transmit object. -/
def canA (x : Can) (o : CanObj := {}) (s : State := live) : State :=
  ((regs s [(0x5000, 0x11#32), (0x5420, 0x03000001#32), (0x5421, 0x100#32), (0x5422, 0x1FFFFFFF#32), (0x5428, 0x3#32)]).setCan 0
    { x with st := .active }).setObj 0 5 o
def frm1 (id : Nat) : CanFrame := ⟨false, id, false, false, false, false, 2, [1, 2]⟩
theorem witness_CanFrames :
    (canListens live 0 = false ∧ canListens (canA {}) 0 = true ∧ canFd (regs (canA {}) [(0x5000, 1#32)]) 0 = false ∧
      canMode (regs (canA {}) [(0x5000, 0x13#32)]) 0 = 3) ∧
    (∀ id ∈ [0x100, 0x101], let s := canA {}; let f := frm1 id
      canListens s 0 = true ∧ (f.fdf = true → canFd s 0 = true) ∧ canMode s 0 ≠ 3 ∧ canMode s 0 ≠ 2 ∧ inFabricRange s f = false ∧ isRefId s 0 f = false ∧
      (List.range 128).find? (fun k => accepts s 0 k f) = (if id = 0x100 then some 4 else none)) ∧
    (let s := canA {}; oCircKind s 0 4 = false ∧ (frm1 0x100).data.length ≤ 8 ∧ (regs s [(0x5424, 0x1000#32)]).bit (oAddr 0 4 4) 12 = true) ∧
    (∀ d ∈ [false, true], let s := canA { refDue := d }
      canListens s 0 = true ∧ canMode s 0 ≠ 2 ∧ (s.can 0).onBus = none ∧ s.power.relock = false ∧ isStaged s .cana = false ∧ (s.can 0).refDue = d ∧
      (chooseFrame (purgeBad (fillObjs s 0) 0) 0).isSome = d) ∧
    (let u := purgeBad (fillObjs (canA {} { pend := true, frame := noFrame }) 0) 0
     (chooseFrame u 0).map (·.1) = some (.obj 5) ∧ loadFails u 0 5 = none) ∧
    (∀ n ∈ [0x51, 0x53], let f : CanFrame := { frm1 0x100 with fdf := true, brs := true }
     let s := regs (canA { onBus := some (.obj 5, f) } { pend := true }) [(0x5000, BitVec.ofNat 32 n)]
     (s.can 0).onBus = some (.obj 5, f) ∧ f.fdf = true ∧ f.brs = true ∧ s.bit (chAddr 0 0) 6 = true ∧ oCircKind s 0 5 = false ∧ (s.obj 0 5).cell = none ∧
     (s.obj 0 5).cancel = false ∧ (s.obj 0 5).bad = false ∧ oOneShot s 0 5 = false ∧ (s.obj 0 5).pend = true ∧ hostReach s = true ∧
     (canMode s 0 = 3 ∨ canMode s 0 ≠ 3) ∧ canMode s 0 = n % 4) ∧
    (hostReach (down .dormant) = false ∧ (live.obj 0 5).pend = false ∧ oOn live 0 5 = false ∧ (live.can 0).onBus = none ∧ (live.can 0).refIn = []) ∧
    (let s := canA {} { pend := true }
     hostReach s = true ∧ oOn s 0 5 = true ∧ oTx s 0 5 = true ∧ oCircKind s 0 5 = false ∧ (s.obj 0 5).pend = true ∧ onBusObj s 0 ≠ some 5) ∧
    (let f : CanFrame := ⟨false, 1, false, false, false, false, 8, List.replicate 8 0⟩
     let s := canA { role := .master, refIn := [(f, 9#80)] } {} (regs live [(0x5005, 0x22#32)])
     (s.can 0).refIn = (f, 9#80) :: [] ∧ f.fdf = false ∧ f.rtr = false ∧ f.dlc = 8 ∧ (s.can 0).role = .master ∧ f.id % 8 < s.fld (chAddr 0 5) 4 3) ∧
    (let s := canA { refIn := [(frm1 1, 9#80)] }; (s.can 0).refIn = (frm1 1, 9#80) :: [] ∧ (frm1 1).dlc ≠ 8) ∧
    ((canA { role := .backup }).can 0).role = .backup := by
  refine ⟨?_, ?_, ?_, ?_, ?_, ?_, ?_, ?_, ?_, ?_, ?_⟩ <;> decide +kernel
theorem witness_CanStates :
    (let s := live.setCan 0 { st := .integrating, tec := 128 }
     (s.can 0).st = .integrating ∧ s.power.relock = false ∧ s.boot.live = true ∧ s.power.st ≠ .dormant) ∧
    ((live.can 0).st ≠ .integrating ∧ canListens live 0 = false) ∧
    (let s := canA {}; canListens s 0 = true ∧ canMode s 0 ≠ 2 ∧ (s.can 0).onBus = none ∧ (s.can 0).tec < 256) ∧
    (∀ n ∈ [0, 247, 248], let s := canA { tec := n, onBus := some (.obj 5, frm1 0x100) } { pend := true }
      canListens s 0 = true ∧ canMode s 0 ≠ 2 ∧ (s.can 0).onBus = some (.obj 5, frm1 0x100) ∧ (s.obj 0 5).cancel = false ∧ oOneShot s 0 5 = false ∧
      (s.obj 0 5).cell = none ∧ (s.obj 0 5).bad = false ∧ ((s.can 0).tec + 8 < 256 ∨ 256 ≤ (s.can 0).tec + 8)) ∧
    (let s := regs (canA {}) [(0x5000, 0x12#32)]; canListens s 0 = true ∧ canMode s 0 = 2) ∧
    (let s := regs (canA {}) [(0x5000, 0x31#32)]
     canListens s 0 = true ∧ canMode s 0 ≠ 0 ∧ s.bit (chAddr 0 0) 5 = true ∧ canFd s 0 = true ∧ live.bit (chAddr 0 0) 5 = false) ∧
    (((live.setCan 0 { st := .recovering }).can 0).st = .recovering ∧ live.power.st ≠ .dormant ∧ (live.can 0).st ≠ .recovering) ∧
    (hostReach live = true ∧ hostReach (down .dormant) = false ∧ ((live.setCan 0 { st := .held }).can 0).st = .held ∧ (live.can 0).st ≠ .held) := by
  decide +kernel
/-- R443, R444: a measured loop delay above 127 stands at 127, with DLYSAT. -/
theorem test_loop_delay : let f : CanFrame := { frm1 0x100 with fdf := true, brs := true }
    let t := after (.canFrameTransmitted 0 200#16) (regs (canA { onBus := some (.obj 5, f) } { pend := true }) [(0x5000, 0x51#32)])
    (t.fld 0x5004 16 7, t.bit 0x5008 11) = (127, true) := by decide +kernel
theorem witness_HostNopReply :
    hostTakes (selected {}) (frame 0x01230000#32 0#32) 0 = false ∧ hostTakes (selected {}) (frame 0x01200000#32 0#32) 0 = true ∧
    (let s := selected {}; let f := frame 0x01200000#32 5#32
     f.h1 ≠ 0#32 ∧ framedOpen s = true ∧ wholeFrame f = true ∧ fAgain f = false ∧ fOp f = 0 ∧ crcOk f = true ∧ notReadyNow s = false) := by
  decide +kernel
theorem witness_HostFrames :
    (framedOpen live = false ∧ live.host.cmd = none ∧ live.host.selected = false ∧ live.host.running = false ∧ hostReach live = true ∧
      hostReach (down .dormant) = false ∧ coreStopped (down .dormant) = true) ∧
    (let s := regs live [(0x105, 0x400#32)]; s.boot.hostUp = true ∧ hostMode s = 2) ∧
    (let s := selected {} { live with power := { rstArmed := true } }; let f := frame 0x21200000#32 0x204#32 [0x20#32]
     hostTakes s f 2 = true ∧ fN f = 1 ∧ (writeWord (s.takenBy f) (getF f.h1 0 16) 0x20#32 0xFFFFFFFF#32).boot.hostUp = false) ∧
    (let f := frame 0x11200000#32 0x302#32; hostTakes (selected {}) f 1 = true ∧ fN f = 1) ∧
    (let s := selected {}; let f := frame 0x21200000#32 0x30A#32 [1#32]
     hostTakes s f 2 = true ∧ fN f = 1 ∧ (writeWord (s.takenBy f) (getF f.h1 0 16) 1#32 0xFFFFFFFF#32).boot.hostUp = true) ∧
    (let f := frame 0x31200000#32 0x307#32 [0xFF00#32, 0x5500#32]
     hostTakes (selected {}) f 3 = true ∧ accMask .w1s 0x307 = 0#32 ∧ getF f.h1 0 16 = 0x307 ∧ 0x26 ≤ 0x307) ∧
    (let f := frame 0x41200000#32 1#32; hostTakes (selected {}) f 4 = true ∧ f.h1.getLsbD 16 = false ∧ mbxNames (selected {}) 1 = true) ∧
    (∀ a ∈ [1, 0xB002], let f := frame 0x41200000#32 (BitVec.ofNat 32 (0x10000 + a)) [1#32, 2#32, 0#32, 0#32]
      hostTakes (selected {}) f 4 = true ∧ f.h1.getLsbD 16 = true ∧ mbxNames (selected {}) (getF f.h1 0 16) = true ∧
      mbxRo (selected {}) (getF f.h1 0 16) = decide (a = 1)) ∧
    (let f := frame 0x01280000#32 0#32; wholeFrame f = true ∧ crcOk f = true ∧ fAgain f = true ∧ framedOpen (selected {}) = true) ∧
    (let f := frame 0x81200000#32 0#32; wholeFrame f = true ∧ fAgain f = false ∧ frameLegal f = false ∧ crcOk f = true ∧
      notReadyNow (selected {}) = false) ∧
    (let f := frame 0x11200000#32 0x302#32; let g := { f with trailer := f.trailer ^^^ 1#32 }
     wholeFrame g = true ∧ fAgain g = false ∧ fOp g = 1 ∧ frameLegal g = true ∧ crcOk g = false ∧ wholeFrame f = true ∧ frameLegal f = true ∧
     crcOk f = true ∧ framedOpen (selected { running := true }) = true) ∧
    (live.boot.hostUp = true ∧ hostMode live = 0 ∧ live.host.selected = false ∧ live.power.st ≠ .dormant) ∧
    (let s := selected { judged := true, next := some {} }; hostMode s = 0 ∧ s.host.selected = true ∧ s.host.discard = false ∧ s.host.early = false ∧
      s.commit.staged = [] ∧ s.host.judged = true ∧ s.host.next = some {}) ∧
    (selected {}).host.judged = false ∧
    (let s := selected { running := true, next := some {} }; s.host.running = true ∧ coreStopped s = false ∧ s.host.staging = [] ∧
      s.host.next = some {} ∧ ({} : Reply).op ≠ 6) := by
  refine ⟨?_, ?_, ?_, ?_, ?_, ?_, ?_, ?_, ?_, ?_, ?_, ?_, ?_, ?_, ?_⟩ <;> decide +kernel
theorem witness_HostCells :
    (let f := frame 0x51200000#32 0x00070203#32 [0x41420000#32]
     let s := selected {} (regs (run3 {}) [(cAddr 3 2, 0x00100000#32)])
     hostTakes s f 5 = true ∧ (s.circ (getF f.h1 0 6)).st = .run ∧ getF f.h1 16 16 ≠ hostPseq s 3 ∧ allocDecide s 3 true = .granted ∧
     hostTakes (selected {}) f 5 = true ∧ ((selected {}).circ 3).st ≠ .run ∧
     8 * 0 + 1 < (pushBytes f.h1 f.data).length ∧
     hostTakes (regs s [(0x421, 0x70000#32)]) f 5 = true ∧ getF f.h1 16 16 = hostPseq (regs s [(0x421, 0x70000#32)]) 3) ∧
    pickFree (selected {} (regs (run3 {}) [(cAddr 3 2, 0x00100000#32)])) = some (Config.cellChoice 0 % 4096) ∧
    (let f := frame 0x61200000#32 3#32
     let s := selected {} (run3 { queue := [9, 11] } (live.setCell 9 cell9))
     hostTakes s f 6 = true ∧ getF f.h1 16 16 = 0 ∧ f.h1.getLsbD 7 = false ∧ pulls s 3 = true ∧ (s.circ 3).st ≠ .disabled ∧ tokenOf s 3 = none ∧
     (s.circ 3).queue = 9 :: [11] ∧ 9 ∉ [11] ∧ sleeveBad (s.cell 9) = false ∧ s.fld 0x40B 16 16 ≠ 0 ∧
     (s.cell 9).origin / 2 ^ 22 ≠ 1 ∧ upsetMet s 9 (.unreadable 0) = true ∧ upsetMet s 9 (.sum 0#32) = true ∧ (((selected {} (run3 {})).circ 3).queue = [])) ∧
    (let f := frame 0x71200000#32 49#32; hostTakes (selected {}) f 7 = true ∧ f.h1.getLsbD 16 = false ∧ 48 < getF f.h1 0 16) ∧
    (let f := frame 0x71200000#32 0x10000#32; hostTakes (selected {}) f 7 = true ∧ f.h1.getLsbD 16 = true ∧ getF f.h1 0 16 ≤ 48) ∧
    (let f := frame 0x71200000#32 48#32
     let full := { selected { snapOn := true } with cells := (List.range 8).map (fun i => (i, { owner := .sys .other, st := .openS })) }
     hostTakes full f 7 = true ∧ (stageCells 1 (full.takenBy f)).1 = none ∧ hostTakes (selected { snapOn := true }) f 7 = true ∧ (selected { snapOn := true }).host.snapOn = true ∧ getF f.h1 0 16 = 48) ∧
    (let f := frame 0x71200000#32 48#32
     (stageCells 1 ((selected { snapOn := true }).takenBy f)).1 = some [Config.cellChoice 0 % 4096]) := by
  refine ⟨by decide +kernel, rfl, by decide +kernel, by decide +kernel, by decide +kernel, by decide +kernel, rfl⟩
theorem witness_HostChain :
    (live.host.cmd = none ∧ coreStopped (down .dormant) = true) ∧
    (∀ op ∈ [0, 1, 2, 3, 4, 5, 6], let b := chainWord op (if op = 5 then 0 else 0x307) (if op = 5 then 1 else 0xFF00)
      isOp op b = true ∧ (chained b).host.cmd = some ⟨b, false, 0#64⟩ ∧ coreStopped (chained b) = false ∧ ccChk b = chainCrc b ∧
      chainIllegal b = false ∧ (chained b).boot.hostUp = true) ∧
    (accMask .w1s (ccAddr (chainWord 2 0x307 0xFF00)) = 0#32 ∧ ccAddr (chainWord 2 0x307 0xFF00) < 0xC000 ∧ 0x26 ≤ ccAddr (chainWord 2 0x307 0xFF00)) ∧
    (let b := chainWord 5 3104 0; 3104 ≤ ccAddr b ∧ chainIllegal b = false) ∧
    (let b := chainWord 5 3103 0; ccAddr b < 3104 ∧ (chained b { snapOn := true }).host.snapOn = true) ∧
    (stageCells 1 ((chained (chainWord 5 0 1)).chainTaken ⟨chainWord 5 0 1, false, 0#64⟩)).1 = some [Config.cellChoice 0 % 4096] ∧
    (let b := chainWord 9 0 0; chainIllegal b = true ∧ ccChk b = chainCrc b ∧ framedOpen (chained b) = false) ∧
    (let b := chainWord 2 0x307 0 ^^^ 1#64; ccOp b = 2 ∧ ccChk b ≠ chainCrc b) := by
  refine ⟨by decide +kernel, by decide +kernel, by decide +kernel, by decide +kernel, by decide +kernel, rfl, by decide +kernel, by decide +kernel⟩

theorem witness_SupplyAndTemperature :
    (wdCounts live = false ∧ ({ live with power := { vlow := true } }).power.vlow = true ∧
      ({ live with strap := { measuring := true } }).strap.measuring = true ∧ State.reset.boot.strapped = false ∧
      live.hold.brownTimes.getLast? = none) ∧
    (let s := regs { live with sup := { wdRun := true } } [(0x3106, 0#32), (0x3100, 1#32)]
     wdCounts s = true ∧ 1#8 ≠ 0#8 ∧ journalOpen s = true ∧ s.fld 0x3106 0 16 = 0 ∧ sysRoom s .jnl = true) ∧
    (pickFree (regs { live with sup := { wdRun := true } } [(0x3106, 0#32), (0x3100, 1#32)])).isSome = true ∧
    (asleep.power.vlow = false ∧ asleep.power.st = .dormant ∧ live.power.vlow = false ∧ live.power.st ≠ .dormant) ∧
    (let s := { live with hold := { brownTimes := [5#80], count := BitVec.ofNat 80 (599 * 2 ^ 32) } }
     s.hold.brownTimes.getLast? = some 5#80 ∧ withinSeconds 600 5#80 s.now = true) ∧
    (let s := { live with hold := { brownTimes := [5#80], count := BitVec.ofNat 80 (600 * 2 ^ 32 + 5) } }; withinSeconds 600 5#80 s.now = false) ∧
    (live.strap.measuring = false ∧ live.boot.strapped = true ∧ live.power.batOk = false) ∧
    (let s := { live with power := { batOk := true } }
     s.power.batOk = true ∧ (2299#12).toNat < s.fld 0x307 16 12 ∧ s.sup.vbatArmed = true ∧ s.fld 0x307 16 12 + 100 ≤ (2400#12).toNat) ∧
    ({ live with sup := { vbatArmed := false } }).sup.vbatArmed = false ∧
    ((live.fld 0x307 8 8 : Int) ≤ (115#8).toInt ∧ (110#8).toInt ≤ (live.fld 0x307 8 8 : Int) - 5 ∧
     (114#8).toInt < (live.fld 0x307 8 8 : Int) ∧ (live.fld 0x307 8 8 : Int) - 5 < (111#8).toInt) := by
  refine ⟨by decide +kernel, by decide +kernel, rfl, by decide +kernel, by decide +kernel, by decide +kernel, by decide +kernel, by decide +kernel,
    by decide +kernel, by decide +kernel⟩
theorem witness_SupervisorAlarmsThatWake :
    asleep.power.st = .dormant ∧ asleep.power.vlow = false ∧ (asleep.fld 0x307 8 8 : Int) ≤ (115#8).toInt ∧
    (114#8).toInt < (asleep.fld 0x307 8 8 : Int) := by decide +kernel
/-- Port 2 gloved at level 8 with PORTFAIL set, and gloved without it. -/
def gloved (fail : Bool) : State := regs (hold2 { gloved := true }) [(0x320, if fail then 0x00040000#32 else 0#32), (0x312, 0x800#32)]
theorem witness_StormsAndGloving :
    (pLive live 2 = false ∧ (live.port 2).clean = false ∧ (live.port 2).gloved = false ∧ hostReach live = true ∧ hostReach (down .dormant) = false) ∧
    (∀ lv ∈ [0, 8], let s := regs (hold2 { lineBrk := true }) [(0x312, BitVec.ofNat 32 (256 * lv))]
      pLive s 2 = true ∧ (s.port 2).lineBrk = true ∧ (s.port 2).gloved = false ∧ s.fld 0x308 16 8 ≠ 0 ∧ s.bit 0x309 2 = true ∧
      (regs s [(0x309, 0#32)]).bit 0x309 2 = false ∧ s.fld (0x310 + 2) 8 4 = lv) ∧
    (((gloved false).port 2).gloved = true ∧ (gloved false).bit 0x320 (16 + 2) = false ∧
      ∀ m : PortId, m ≠ 2 → ((gloved false).port m).gloved = false) ∧
    (((gloved true).port 2).gloved = true ∧ (gloved true).bit 0x320 (16 + 2) = true ∧
      loopGood [(0x55#8, 0), (0xAA#8, 0), (0x00#8, 0), (0xFF#8, 0), (0x00#8, 3)] = true ∧ loopGood [] = false) ∧
    ((0x4#16).getLsbD 2 = true ∧ ∀ m : PortId, (0x8#16).getLsbD m = true → ((gloved true).port m).gloved = false) ∧
    (let s := hold2 { clean := true }; (s.port 2).clean = true ∧ (s.port 2).gloved = false) := by decide +kernel
theorem witness_AuditFault :
    (live.boot.live = true ∧ hostReach live = true ∧ live.boot.mantled = true ∧ State.reset.boot.live = false ∧
      hostReach (down .dormant) = false ∧ ({ down .dormant with sup := { audit := 2 } }).sup.audit = 2 ∧ (down .dormant).sup.audit ≠ 2) ∧
    (let s := { State.reset with boot := { scanned := true, brownout := true } }
     s.boot.scanned = true ∧ s.boot.brownout = true ∧ s.boot.audited = false ∧ s.boot.mantled = false) := by decide +kernel
theorem witness_FaultPin :
    (hostReach live = true ∧ hostReach (down .dormant) = false) ∧ (live.sup.lamp = false ∧ live.fld 0x300 0 9 = 0 ∧ ({ live with sup := { lamp := true } }).sup.lamp = true) ∧
    (let s := regs live [(0x300, 0x130#32)]; s.bit 0x300 4 = true ∧ ∀ j, j < 4 → s.bit 0x300 j = false) ∧
    (let s := { live with sup := { sysFaults := [5#80] }, hold := { count := BitVec.ofNat 80 (600 * 2 ^ 32 + 5) } }
     s.sup.sysFaults.getLast? = some 5#80 ∧ withinSeconds 600 5#80 s.now = false ∧ withinSeconds 600 5#80 4#80 = true) := by decide +kernel
theorem witness_TimeReferences :
    ((regs live [(0x4801, 0#32)]).bit 0x4801 0 = false ∧ State.reset.boot.memUp = false ∧ hostReach live = true ∧
      hostReach (down .dormant) = false ∧ (live.trunk 2).up = false) ∧
    (let s := regs live [(0x4801, 1#32)]; s.bit 0x4801 0 = true ∧ s.boot.memUp = true ∧ s.power.st ≠ .dormant ∧ s.tim.tpiFirst = true) ∧
    (∀ g ∈ [999500000, 1000500000, 999400000], let s := { regs live [(0x4801, 1#32)] with tim := { tpi := 0#80, tpiFirst := false } }
      let edge : BitVec 80 := BitVec.ofNat 80 (g * 2 ^ 32 / 1000000000 + 1)
      s.tim.tpiFirst = false ∧ s.tim.sel ≠ 1 ∧
        ((999500000 ≤ diffNs edge s.tim.tpi ∧ diffNs edge s.tim.tpi ≤ 1000500000) ↔ g ≠ 999400000)) ∧
    (let s := { live with tim := { tpiFirst := false, refs := [(1, { last := some 0#80 })] } }
     999500000 ≤ diffNs (BitVec.ofNat 80 (2 ^ 32)) ((s.tref 1).last.getD s.tim.tpi) ∧ ({ live with tim := { sel := 1 } }).tim.sel = 1) ∧
    (let s := { live with tim := { sel := 1, refs := [(1, { qual := true })] } }; s.tim.sel = refKey 0 ∧ refKey 130 = 143) ∧
    (∀ q ∈ [Quality.holdover, .locked], ({ live with hold := { quality := q } }).hold.quality = q) ∧ (live.hold.quality ≠ .holdover ∧ live.hold.quality ≠ .locked) ∧
    (-19660800 ≤ (19660800#32).toInt ∧ (19660800#32).toInt ≤ 19660800 ∧ 19660800 < (19660801#32).toInt ∧ (0x80000000#32).toInt < -19660800) ∧
    (let s := regs { routed with hold := { quality := .free } } [(0x4801, 4#32)]
     (s.trunk 2).up = true ∧ ownAddr s ≠ 0 ∧ s.power.st ≠ .dormant ∧ s.bit 0x4801 2 = true ∧ s.hold.quality ≠ .unset ∧ s.tim.sel ≠ 2 ∧ s.tim.sel ≠ 3 ∧
     sysRoom s .ctl = true ∧ s.tim.txSeq.length = 6 ∧ s.tim.txMark.length = 6) ∧
    pickFree (regs { routed with hold := { quality := .free } } [(0x4801, 4#32)]) = some (Config.cellChoice 0 % 4096) := by
  refine ⟨by decide +kernel, by decide +kernel, by decide +kernel, by decide +kernel, by decide +kernel, by decide +kernel, by decide +kernel,
    by decide +kernel, by decide +kernel, rfl⟩
/-- Table 15-5: a pulse finds the count 2.7 ms behind; the step comes at the next whole second, one second after the pulse. -/
theorem test_step_after_pulse :
    (let p : Time := BitVec.ofNat 80 (2 * 2 ^ 32 - 11596411)
     let s := { live with hold := { count := p }, tim := { plan := some 2700000, refs := [(1, { qual := true, last := some p })] } }
     let t := after .timeStep s
     (t.now, decide (999999990 ≤ diffNs t.now ((t.tref 1).last.getD 0#80) ∧ diffNs t.now ((t.tref 1).last.getD 0#80) ≤ 1000000010))) =
    (BitVec.ofNat 80 (3 * 2 ^ 32), true) := by decide +kernel
theorem witness_SecondsAndSteps :
    (stagedOf live .tim = none ∧ live.tim.setSec = none ∧ ((at3 .nop).ctx 3).st ≠ .idle ∧ live.tim.plan = none ∧ live.pending = []) ∧
    (let s := { live with tim := { setSec := some 100 } }
     s.tim.setSec = some 100 ∧ (BitVec.ofNat 80 (100 % 2 ^ 48 * 2 ^ 32) : Time) ≠ nextSecond s.now) ∧
    (let s := { live with tim := { plan := some 5000000 } }
     s.tim.plan = some 5000000 ∧ 0 ≤ (s.now.toNat : Int) + nsToUnits 5000000 ∧ (s.now.toNat : Int) + nsToUnits 5000000 + 2 ^ 32 + 6 < 2 ^ 80) ∧
    (let t := live.hold.count.toNat * countDen + live.hold.rem + tickNum live
     t < 2 ^ 80 * countDen ∧ t / countDen / 2 ^ 32 = secondsOf live.now) ∧ live.hold.inTime = false := by decide +kernel
theorem witness_CommitOfNothing : hostReach live = true ∧ hostReach (down .dormant) = false ∧ getF 0xFFFFFF00#32 0 8 = 0 := by decide +kernel
theorem witness_StartUpOrderKept : live.startUpOrder ∧ State.reset.startUpOrder := by unfold State.startUpOrder; decide +kernel
end Sys2Proof.Tests
end

section
/-! PROOF. A register write through the register interface, a normal read, and a write of the instruction RAM window (O3):
what a field holds after a write of its word (R15, R18, R156), then each access of the register interface. -/
namespace Sys2Proof.Machine

/-! ## Fields of a word -/

/-- A field's value is below the power of two of its width. -/
theorem getF_lt (w : Word) (lo wd : Nat) : getF w lo wd < 2 ^ wd := Nat.mod_lt _ (Nat.two_pow_pos wd)

/-- A word written as one field of 32 bits holds what was written. -/
theorem setF_whole (old w : Word) : setF old 0 32 (getF w 0 32) = w := by
  apply BitVec.eq_of_getLsbD_eq
  intro i hi
  rw [getLsbD_setF, if_pos (by omega), testBit_getF]
  simp [hi]

/-- The values a clamp puts in place of an illegal one fit in `wd` bits. -/
def Clamp.fits (wd : Nat) : Clamp → Bool
  | .range _ _ below above => decide (below < 2 ^ wd) && decide (above < 2 ^ wd)
  | .any => true
  | .ports => true

/-- The field ends within its word, and what it clamps to fits in it. -/
abbrev Field.InWord (f : Field) : Prop := f.lo + f.wd ≤ 32 ∧ f.clamp.fits f.wd = true

/-- Two fields share no bit. -/
abbrev Field.Apart (f g : Field) : Prop := f.lo + f.wd ≤ g.lo ∨ g.lo + g.wd ≤ f.lo

/-- The fields of a register word lie within it and share no bit. -/
abbrev FieldsOk (fs : List Field) : Prop := (∀ f ∈ fs, f.InWord) ∧ fs.Pairwise Field.Apart

/-- A clamped value fits in its field. -/
theorem clampVal_lt {wd : Nat} {c : Clamp} (pm : Nat) {v : Nat} (hc : c.fits wd = true) (hv : v < 2 ^ wd) : clampVal pm c v < 2 ^ wd := by
  cases c with
  | any => exact hv
  | range lo hi below above =>
    simp only [Clamp.fits, Bool.and_eq_true, decide_eq_true_eq] at hc
    simp only [clampVal]
    split_ifs
    · exact hc.1
    · exact hc.2
    · exact hv
  | ports => exact Nat.lt_of_le_of_lt Nat.and_le_left hv

/-- A field written with a clamped value reads as that value. -/
theorem getF_setF_clampVal (pm : Nat) (w old : Word) {f : Field} (h : f.InWord) :
    getF (setF old f.lo f.wd (clampVal pm f.clamp (getF w f.lo f.wd))) f.lo f.wd = clampVal pm f.clamp (getF w f.lo f.wd) := by
  rw [getF_setF_same _ _ _ _ h.1, Nat.mod_eq_of_lt (clampVal_lt pm h.2 (getF_lt w _ _))]

/-- A block's rows being sound, so is each word of the block, a reserved one too. -/
theorem FieldsOk.ofRows {rows : List (Nat × List Field)} (h : ∀ r ∈ rows, FieldsOk r.2) (o : Nat) : FieldsOk (rowsAt rows o) := by
  induction rows with
  | nil => exact ⟨by simp [rowsAt], by simp [rowsAt]⟩
  | cons r t ih =>
    unfold rowsAt
    split
    · exact h r (by simp)
    · exact ih fun q hq => h q (by simp [hq])

theorem FieldsOk.ite {c : Prop} [Decidable c] {fs gs : List Field} (hf : FieldsOk fs) (hg : FieldsOk gs) :
    FieldsOk (if c then fs else gs) := iteInduction (fun _ => hf) (fun _ => hg)

/-- In every word of the register map the fields lie within the word and share no bit: block by block, in `fieldsAt`'s order. -/
theorem fieldsAt_fieldsOk (a : Nat) : FieldsOk (fieldsAt a) := by
  have reserved : FieldsOk [] := by decide
  have data : FieldsOk [fRW 0 32] := by decide
  have received : FieldsOk [fR 0 32] := by decide
  have glove : FieldsOk [fR 0 8, fR 8 4, fR 16 9, fR 25 7] := by decide
  have pseq : FieldsOk [fR 0 16, fR 16 16] := by decide
  exact
    .ite (.ofRows (rows := glbRows) (by decide) _) <|
    .ite (.ofRows (rows := strRows) (by decide) _) <|
    .ite (.ofRows (rows := clkRows) (by decide) _) <|
    .ite (.ite glove (.ofRows (rows := supRows) (by decide) _)) <|
    .ite (.ite pseq (.ofRows (rows := hstRows) (by decide) _)) <|
    .ite (.ofRows (rows := portRows) (by decide) _) <|
    .ite reserved <|
    .ite (.ofRows (rows := circRows) (by decide) _) <|
    .ite (.ofRows (rows := celRows) (by decide) _) <|
    .ite (.ofRows (rows := seqRows) (by decide) _) <|
    .ite (.ofRows (rows := ctxRows) (by decide) _) <|
    .ite (.ofRows (rows := sctxRows) (by decide) _) <|
    .ite reserved <|
    .ite (.ite data <| .ite data <| .ite received <| .ite data (.ofRows (rows := memRows) (by decide) _)) <|
    .ite (.ofRows (rows := fabRows) (by decide) _) <|
    .ite (.ofRows (rows := timRows) (by decide) _) <|
    .ite (.ite (.ofRows (rows := canRows) (by decide) _) (.ofRows (rows := objRows) (by decide) _)) <|
    .ite reserved <| .ite data reserved

/-! ## Writing the fields of one access code -/

/-- A field that shares no bit with the written ones keeps its value. -/
theorem getF_writeAcc_apart (pm : Nat) (acc : Acc) (w : Word) {f : Field} (fs : List Field) (old : Word)
    (h : ∀ g ∈ fs, g.acc = acc → g.Apart f) : getF (writeAcc pm acc w fs old).1 f.lo f.wd = getF old f.lo f.wd := by
  induction fs generalizing old with
  | nil => rfl
  | cons g t ih =>
    have ht : ∀ k ∈ t, k.acc = acc → k.Apart f := fun k hk => h k (by simp [hk])
    by_cases hg : g.acc = acc
    · simp only [writeAcc, hg, BEq.rfl, if_true]
      rw [ih _ ht, getF_setF_other _ _ _ _ _ _ (h g (by simp) hg)]
    · simpa only [writeAcc, beq_iff_eq, hg, if_false] using ih old ht

/-- A field of another access code keeps its value. -/
theorem getF_writeAcc_other (pm : Nat) (w : Word) {acc : Acc} {fs : List Field} {f : Field} (hok : FieldsOk fs) (hf : f ∈ fs)
    (hacc : f.acc ≠ acc) (old : Word) : getF (writeAcc pm acc w fs old).1 f.lo f.wd = getF old f.lo f.wd := by
  refine getF_writeAcc_apart pm acc w fs old fun g hg hga => ?_
  have hne : g ≠ f := fun e => hacc (e ▸ hga)
  have : Std.Symm Field.Apart := ⟨fun _ _ => Or.symm⟩
  exact hok.2.forall hg hf hne

/-- A field of the written access code holds its clamped value. -/
theorem getF_writeAcc_same (pm : Nat) (w : Word) {acc : Acc} {fs : List Field} {f : Field} (hok : FieldsOk fs) (hf : f ∈ fs)
    (hacc : f.acc = acc) (old : Word) :
    getF (writeAcc pm acc w fs old).1 f.lo f.wd = clampVal pm f.clamp (getF w f.lo f.wd) := by
  induction fs generalizing old with
  | nil => cases hf
  | cons g t ih =>
    obtain ⟨hin, hpair⟩ := hok
    obtain ⟨hgt, ht⟩ := List.pairwise_cons.1 hpair
    rcases List.mem_cons.1 hf with rfl | hft
    · simp only [writeAcc, hacc, BEq.rfl, if_true]
      rw [getF_writeAcc_apart pm acc w t _ fun k hk _ => (hgt k hk).symm, getF_setF_clampVal pm w old (hin f (by simp))]
    · have tail := ih ⟨fun k hk => hin k (by simp [hk]), ht⟩ hft
      unfold writeAcc
      split <;> exact tail _

/-- A clamped field of the written access code is reported. -/
theorem writeAcc_clamped (pm : Nat) (w : Word) {acc : Acc} {fs : List Field} {f : Field} (hf : f ∈ fs) (hacc : f.acc = acc)
    (hv : clampVal pm f.clamp (getF w f.lo f.wd) ≠ getF w f.lo f.wd) (old : Word) : (writeAcc pm acc w fs old).2 = true := by
  induction fs generalizing old with
  | nil => cases hf
  | cons g t ih =>
    rcases List.mem_cons.1 hf with rfl | hft
    · simp [writeAcc, hacc, hv.symm]
    · unfold writeAcc
      split <;> simp [ih hft]

/-! ## A clamp noted, and the host's marks -/

/-- Noting a clamp touches GLB_EVT and GLB_LASTCLAMP only. -/
theorem noteClamp_reg_other (s : State) (a : Nat) {b : Nat} (h0B : b ≠ 0x0B) (h12 : b ≠ 0x12) : (noteClamp s a).reg b = s.reg b := by
  unfold noteClamp
  rw [State.reg_setBit_other _ _ _ _ h0B, State.reg_count_other _ _ _ _ h12, State.reg_setFld_other _ _ _ _ _ h12]

/-- A clamp noted: the address in GLB_LASTCLAMP, and GLB_EVT.CLAMP (R156). -/
theorem noteClamp_noted (s : State) {a : Nat} (ha : a < 2 ^ 16) :
    (noteClamp s a).fld 0x12 0 16 = a ∧ (noteClamp s a).bit 0x0B 0 = true := by
  unfold noteClamp
  refine ⟨?_, State.bit_setBit_same _ _ _ _ (by decide)⟩
  unfold State.setBit State.count
  rw [State.fld_setFld_other _ _ _ _ _ _ _ (by decide), State.fld_setFld_disjoint _ _ _ _ _ _ _ (by decide),
    State.fld_setFld_same _ _ _ _ _ (by decide), Nat.mod_eq_of_lt ha]

@[simp] theorem noteClamp_shad (s : State) (a b : Nat) : (noteClamp s a).shad b = s.shad b := rfl

/-- Marking the host's fields changes the marks only. -/
theorem markHost_eq (s : State) (a : Nat) (mask : Word) :
    ∃ m, markHost s a mask = { s with commit := { s.commit with marks := m } } := by
  unfold markHost
  split
  · exact ⟨s.commit.marks, rfl⟩
  · exact ⟨_, rfl⟩
@[simp] theorem markHost_reg (s : State) (a : Nat) (mask : Word) (b : Nat) : (markHost s a mask).reg b = s.reg b := by
  obtain ⟨m, hm⟩ := markHost_eq s a mask
  rw [hm]; rfl
@[simp] theorem markHost_shad (s : State) (a : Nat) (mask : Word) (b : Nat) : (markHost s a mask).shad b = s.shad b := by
  obtain ⟨m, hm⟩ := markHost_eq s a mask
  rw [hm]; rfl

/-! ## A write of a word -/

/-- A write of word `a` clamps a field of it. -/
def writeClamps (s : State) (a : Nat) (w : Word) : Bool :=
  (writeAcc (presentMask s) .rb w (fieldsAt a) (s.shad a)).2 || (writeAcc (presentMask s) .rw w (fieldsAt a) (s.reg a)).2

/-- The state after the fields of word `a` are written and marked, before a clamp is noted. -/
def landed (s : State) (a : Nat) (w mask : Word) : State :=
  markHost ((s.setShad a (writeAcc (presentMask s) .rb w (fieldsAt a) (s.shad a)).1).setReg a
    (writeAcc (presentMask s) .rw w (fieldsAt a) (s.reg a)).1) a mask

/-- A write of a present word lands and notes its clamp. -/
theorem writeRW_eq {s : State} {a : Nat} (h : absentPort s a = false) (w mask : Word) :
    writeRW s a w mask = if writeClamps s a w then noteClamp (landed s a w mask) a else landed s a w mask := by
  unfold writeRW
  rw [if_neg (by simp [h])]
  rfl

theorem landed_reg (s : State) (a : Nat) (w mask : Word) (b : Nat) :
    (landed s a w mask).reg b = if b = a then (writeAcc (presentMask s) .rw w (fieldsAt a) (s.reg a)).1 else s.reg b := by
  rw [landed, markHost_reg, State.reg_setReg, State.reg_setShad]

theorem landed_shad (s : State) (a : Nat) (w mask : Word) (b : Nat) :
    (landed s a w mask).shad b = if b = a then (writeAcc (presentMask s) .rb w (fieldsAt a) (s.shad a)).1 else s.shad b := by
  rw [landed, markHost_shad, State.shad_setReg, State.shad_setShad]

theorem landed_updates (s : State) (a : Nat) (w mask : Word) : ∃ r sh m, landed s a w mask = { s with
    regs := r, shadow := sh, commit := { s.commit with marks := m } } := by
  unfold landed
  obtain ⟨m, hm⟩ := markHost_eq _ a mask
  exact ⟨_, _, m, hm⟩

section
variable {s : State} {a : Nat} (h : absentPort s a = false) (w mask : Word)
include h

/-- The shadow words after a write: the RB fields of the written one. -/
theorem writeRW_shad (b : Nat) : (writeRW s a w mask).shad b =
    if b = a then (writeAcc (presentMask s) .rb w (fieldsAt a) (s.shad a)).1 else s.shad b := by
  rw [writeRW_eq h]
  split
  · rw [noteClamp_shad, landed_shad]
  · exact landed_shad s a w mask b

/-- The applied words after a write, GLB_EVT and GLB_LASTCLAMP apart: the RW fields of the written one. -/
theorem writeRW_reg {b : Nat} (h0B : b ≠ 0x0B) (h12 : b ≠ 0x12) : (writeRW s a w mask).reg b =
    if b = a then (writeAcc (presentMask s) .rw w (fieldsAt a) (s.reg a)).1 else s.reg b := by
  rw [writeRW_eq h]
  split
  · rw [noteClamp_reg_other _ _ h0B h12, landed_reg]
  · exact landed_reg s a w mask b

/-- A write changes the register words and the host's marks only. -/
theorem writeRW_updates : ∃ r sh m, writeRW s a w mask = { s with
    regs := r, shadow := sh, commit := { s.commit with marks := m } } := by
  obtain ⟨r, sh, m, hm⟩ := landed_updates s a w mask
  rw [writeRW_eq h, hm]
  split
  · exact ⟨_, _, _, rfl⟩
  · exact ⟨_, _, _, rfl⟩

/-- A write that clamps is noted, with its address. -/
theorem writeRW_noted (ha : a < 2 ^ 16) (hc : writeClamps s a w = true) :
    (writeRW s a w mask).fld 0x12 0 16 = a ∧ (writeRW s a w mask).bit 0x0B 0 = true := by
  rw [writeRW_eq h, if_pos hc]
  exact noteClamp_noted _ ha

end

/-- GLB_EVT and GLB_LASTCLAMP have no RW field. -/
theorem ne_event_words_of_rw {a : Nat} {f : Field} (hf : f ∈ fieldsAt a) (hacc : f.acc = .rw) : a ≠ 0x0B ∧ a ≠ 0x12 := by
  constructor <;> rintro rfl
  · exact absurd hacc ((by decide : ∀ g ∈ fieldsAt 0x0B, g.acc ≠ .rw) f hf)
  · exact absurd hacc ((by decide : ∀ g ∈ fieldsAt 0x12, g.acc ≠ .rw) f hf)

/-- A write clamps where an RB or RW field's value is illegal. -/
theorem writeClamps_of_field {s : State} {a : Nat} {w : Word} {f : Field} (hf : f ∈ fieldsAt a) (hacc : f.acc = .rb ∨ f.acc = .rw)
    (hv : clampVal (presentMask s) f.clamp (getF w f.lo f.wd) ≠ getF w f.lo f.wd) : writeClamps s a w = true := by
  unfold writeClamps
  rcases hacc with hacc | hacc
  · simp [writeAcc_clamped _ w hf hacc hv]
  · simp [writeAcc_clamped _ w hf hacc hv]

/-! ## A word without strobe fields -/

theorem fieldsAt_port {a : Nat} (lo : 0x800 ≤ a) (hi : a < 0xC00) : fieldsAt a = rowsAt portRows (a % 64) := by
  unfold fieldsAt
  iterate 5 rw [if_neg (by omega)]
  rw [if_pos hi]

theorem fieldsAt_circuit {a : Nat} (lo : 0x1000 ≤ a) (hi : a < 0x2000) : fieldsAt a = rowsAt circRows (a % 64) := by
  unfold fieldsAt
  iterate 7 rw [if_neg (by omega)]
  rw [if_pos hi]

theorem fieldsAt_context {a : Nat} (lo : 0x2800 ≤ a) (hi : a < 0x2C00) : fieldsAt a = rowsAt ctxRows (a % 16) := by
  unfold fieldsAt
  iterate 10 rw [if_neg (by omega)]
  rw [if_pos hi]

theorem fieldsAt_can {a : Nat} (lo : 0x5000 ≤ a) (hi : a < 0x6000) :
    fieldsAt a = if a % 0x800 < 0x400 then rowsAt canRows (a % 0x800) else rowsAt objRows (a % 8) := by
  unfold fieldsAt
  iterate 16 rw [if_neg (by omega)]
  rw [if_pos hi]

theorem fieldsAt_iram {a : Nat} (lo : 0xC000 ≤ a) (hi : a < 0x10000) : fieldsAt a = [fRW 0 32] := by
  unfold fieldsAt
  iterate 18 rw [if_neg (by omega)]
  rw [if_pos hi]

/-- Below 0x800 the words that act on a write have strobe fields, the mailbox's apart. -/
theorem strobeLow_of_no_strobe {a : Nat} (hs : accMask .w1s a = 0#32) (hm : a < 0x20 ∨ 0x26 ≤ a) (s : State) (w mask : Word) :
    strobeLow s a w mask = s := by
  unfold strobeLow
  split
  · exact absurd hs (by decide)
  · omega
  · omega
  · exact absurd hs (by decide)
  · exact absurd hs (by decide)
  · exact absurd hs (by decide)
  · exact absurd hs (by decide)
  · exact absurd hs (by decide)
  · exact if_neg (by omega)

/-- In the blocks SEQ, MEM, JNL, FAB, TIM and CEL the words that act on a write have strobe fields. -/
theorem strobeHigh_of_no_strobe {a : Nat} (hs : accMask .w1s a = 0#32) (s : State) (w : Word) : strobeHigh s a w = s := by
  unfold strobeHigh
  split
  · exact absurd hs (by decide)
  · exact absurd hs (by decide)
  · exact absurd hs (by decide)
  · exact absurd hs (by decide)
  · exact absurd hs (by decide)
  · exact absurd hs (by decide)
  · exact absurd hs (by decide)
  · rfl

/-- A write of a word without strobe fields, outside the mailbox and the instruction RAM window, starts nothing. -/
theorem strobes_of_no_strobe {a : Nat} (hs : accMask .w1s a = 0#32) (hm : a < 0x20 ∨ 0x26 ≤ a) (hr : a < 0xC000) (s : State)
    (w mask : Word) : strobes s a w mask = s := by
  have port (h1 : 0x800 ≤ a) (h2 : a < 0xC00) : a % 64 ≠ 0x11 := fun e => by
    rw [accMask, fieldsAt_port h1 h2, e] at hs
    exact absurd hs (by decide)
  have circuit (h1 : 0x1000 ≤ a) (h2 : a < 0x2000) : a % 64 ≠ 0x0C := fun e => by
    rw [accMask, fieldsAt_circuit h1 h2, e] at hs
    exact absurd hs (by decide)
  have context (h1 : 0x2800 ≤ a) (h2 : a < 0x2C00) : a % 16 ≠ 1 := fun e => by
    rw [accMask, fieldsAt_context h1 h2, e] at hs
    exact absurd hs (by decide)
  have channel (h1 : 0x5000 ≤ a) (h2 : a < 0x6000) : a % 0x800 ≠ 6 := fun e => by
    rw [accMask, fieldsAt_can h1 h2, if_pos (by omega), e] at hs
    exact absurd hs (by decide)
  have object (h1 : 0x5000 ≤ a) (h2 : a < 0x6000) (h3 : 0x400 ≤ a % 0x800) : a % 0x800 % 8 ≠ 3 := fun e => by
    rw [accMask, fieldsAt_can h1 h2, if_neg (by omega), show a % 8 = 3 by omega] at hs
    exact absurd hs (by decide)
  unfold strobes
  dsimp only
  split_ifs with _ low inPort p inCircuit c inContext x inCan o1 o2 iram
  · rfl
  · exact strobeLow_of_no_strobe hs hm s w mask
  · exact absurd p (port (by omega) inPort)
  · rfl
  · exact absurd c (circuit inCircuit.1 inCircuit.2)
  · rfl
  · exact absurd x (context inContext.1 inContext.2)
  · rfl
  · exact absurd o1 (channel inCan.1 inCan.2)
  · exact absurd o2.2 (object inCan.1 inCan.2 o2.1)
  · rfl
  · rfl
  · omega
  · exact strobeHigh_of_no_strobe hs s w

/-! ## An access through the register interface -/

@[simp] theorem viaHost_reached {s : State} (h : hostReach s = true) (f : State → State) : viaHost s f = f s := if_pos h
@[simp] theorem viaHost_unreached {s : State} (h : hostReach s = false) (f : State → State) : viaHost s f = s := by simp [viaHost, h]

theorem exec_registerWrite (a : BitVec 16) (w : Word) (s : State) :
    exec (.registerWrite a w) s = .next (viaHost s fun s => writeWord s a.toNat w 0xFFFFFFFF#32) := rfl
theorem exec_readClear (a : BitVec 16) (s : State) :
    exec (.readClear a) s = .next (viaHost s fun s => (normalRead s a.toNat).2) := rfl
theorem exec_iramWindowWrite (i : Fin 16384) (w : Word) (s : State) :
    exec (.iramWindowWrite i w) s = .next (viaHost s fun s => writeWord s (0xC000 + i.val) w 0xFFFFFFFF#32) := rfl

/-- An absent port's words ignore writes (R6). -/
theorem writeWord_absent {s : State} {a : Nat} (h : absentPort s a = true) (w mask : Word) : writeWord s a w mask = s := by
  simp [writeWord, writeRW, strobes, h]

/-- A write of a word without strobe fields is its fields' write alone. -/
theorem writeWord_of_no_strobe {a : Nat} (hs : accMask .w1s a = 0#32) (hm : a < 0x20 ∨ 0x26 ≤ a) (hr : a < 0xC000) (s : State)
    (w mask : Word) : writeWord s a w mask = writeRW s a w mask := strobes_of_no_strobe hs hm hr _ w mask

/-! ## A normal read -/

/-- A normal read with the applied view clears the RC bits it returned (R15, R16) and may draw a free value. -/
theorem normalRead_clears {s : State} {a : Nat} (hv : s.bit 0x02 0 = false) (h : absentPort s a = false) :
    ∃ k, (normalRead s a).2 = { clearRc s a (viewWord s a) with fresh := k } := by
  simp only [normalRead, hv, h, Bool.or_false, Bool.false_eq_true, if_false]
  split
  · exact ⟨_, rfl⟩
  · exact ⟨_, rfl⟩

theorem clearRc_reg (s : State) (a : Nat) (w : Word) (b : Nat) :
    (clearRc s a w).reg b = if b = a then s.reg a &&& ~~~ (w &&& accMask .rc a) else s.reg b := State.reg_setReg s a b _

/-- A bit survives the clearing unless it is an RC bit that was returned. -/
theorem getLsbD_cleared (v w m : Word) (j : Nat) :
    (v &&& ~~~ (w &&& m)).getLsbD j = (v.getLsbD j && !(w.getLsbD j && m.getLsbD j)) := by
  by_cases hj : j < 32
  · simp [hj]
  · simp [BitVec.getLsbD_of_ge v j (by omega)]

/-! ## A write through the instruction RAM window -/

/-- An instruction RAM word belongs to no port. -/
theorem absentPort_iram (s : State) (i : Nat) : absentPort s (0xC000 + i) = false := by
  simp [absentPort, show ¬ 0xC000 + i < 0xC00 by omega]

/-- A write through the window lands in the word and acts on the instruction RAM. -/
theorem writeWord_iram (s : State) (i : Nat) (w : Word) {mask : Word} (hm : mask ≠ 0#32) :
    writeWord s (0xC000 + i) w mask = iramWritten (writeRW s (0xC000 + i) w mask) i := by
  rw [writeWord, strobes, if_neg (by simp [absentPort_iram]), if_neg (by omega), if_neg (by omega), if_neg (by omega),
    if_neg (by omega), if_neg (by omega), if_pos (by omega), if_neg hm, Nat.add_sub_cancel_left]

/-- The words after a write through the window, GLB_EVT and GLB_LASTCLAMP apart: the written one is replaced (R135). -/
theorem writeRW_iram_reg (s : State) {i : Nat} (hi : i < 16384) (w mask : Word) {b : Nat} (h0B : b ≠ 0x0B) (h12 : b ≠ 0x12) :
    (writeRW s (0xC000 + i) w mask).reg b = if b = 0xC000 + i then w else s.reg b := by
  rw [writeRW_reg (absentPort_iram s i) w mask h0B h12, fieldsAt_iram (by omega) (by omega)]
  simp [writeAcc, fRW, clampVal, setF_whole]

/-- What a write through the window does beside the word touches SEQ_STAT and SEQ_EVT only. -/
theorem iramWritten_reg_other (s : State) (i : Nat) {b : Nat} (h1 : b ≠ 0x2400) (h2 : b ≠ 0x2408) :
    (iramWritten s i).reg b = s.reg b := by
  simp only [iramWritten]
  split
  · rw [State.reg_setBit_other _ _ _ _ h2, State.reg_setBit_other _ _ _ _ h1]; rfl
  · rfl

theorem iramWritten_iramBad (s : State) (i : Nat) : (iramWritten s i).pool.iramBad = s.pool.iramBad.filter (· != i) := by
  simp only [iramWritten]
  split <;> rfl

/-- Where authentication is required the write taints: SEQ_STAT.TAINT and its event (R329). -/
theorem iramWritten_taints {s : State} (h : authReq s = true) (i : Nat) :
    (iramWritten s i).bit 0x2400 6 = true ∧ (iramWritten s i).bit 0x2408 4 = true := by
  have ha : authReq { s with pool := { s.pool with iramBad := s.pool.iramBad.filter (· != i) } } = true := h
  simp only [iramWritten, ha, if_true]
  refine ⟨?_, State.bit_setBit_same _ _ _ _ (by decide)⟩
  rw [State.bit_setBit_word _ _ _ _ _ (by decide), State.bit_setBit_same _ _ _ _ (by decide)]

/-! ## The obligation -/

/-- A reached write of a plain word: its fields as written, what was clamped, and all else as it was. -/
theorem writeWord_lands {s : State} {n : Nat} (w mask : Word) (hn : n < 2 ^ 16) (h : absentPort s n = false)
    (hs : accMask .w1s n = 0#32) (hr : n < 0xC000) (hm : n < 0x20 ∨ 0x26 ≤ n) :
    let t := writeWord s n w mask
    (∀ f ∈ fieldsAt n, f.acc = .rb → getF (t.shad n) f.lo f.wd = clampVal (presentMask s) f.clamp (getF w f.lo f.wd)) ∧
    (∀ f ∈ fieldsAt n, f.acc = .rw → getF (t.reg n) f.lo f.wd = clampVal (presentMask s) f.clamp (getF w f.lo f.wd)) ∧
    (∀ f ∈ fieldsAt n, f.acc ≠ .rw → n ≠ 0x0B → n ≠ 0x12 → getF (t.reg n) f.lo f.wd = getF (s.reg n) f.lo f.wd) ∧
    (∀ b, b ≠ n → t.shad b = s.shad b) ∧ (∀ b, b ≠ n → b ≠ 0x0B → b ≠ 0x12 → t.reg b = s.reg b) ∧
    (∀ f ∈ fieldsAt n, f.acc = .rb ∨ f.acc = .rw → clampVal (presentMask s) f.clamp (getF w f.lo f.wd) ≠ getF w f.lo f.wd →
      t.fld 0x12 0 16 = n ∧ t.bit 0x0B 0 = true) ∧
    t = { s with regs := t.regs, shadow := t.shadow, commit := { s.commit with marks := t.commit.marks } } := by
  have ok := fieldsAt_fieldsOk n
  rw [writeWord_of_no_strobe hs hm hr]
  refine ⟨fun f hf hacc => ?rb, fun f hf hacc => ?rw, fun f hf hacc h0B h12 => ?kept, fun b hb => ?shads, fun b hb h0B h12 => ?regs,
    fun f hf hacc hv => writeRW_noted h w mask hn (writeClamps_of_field hf hacc hv), ?frame⟩
  case rb => rw [writeRW_shad h, if_pos rfl, getF_writeAcc_same _ w ok hf hacc]
  case rw =>
    obtain ⟨h0B, h12⟩ := ne_event_words_of_rw hf hacc
    rw [writeRW_reg h w mask h0B h12, if_pos rfl, getF_writeAcc_same _ w ok hf hacc]
  case kept => rw [writeRW_reg h w mask h0B h12, if_pos rfl, getF_writeAcc_other _ w ok hf hacc]
  case shads => rw [writeRW_shad h, if_neg hb]
  case regs => rw [writeRW_reg h w mask h0B h12, if_neg hb]
  case frame =>
    obtain ⟨r, sh, m, e⟩ := writeRW_updates h w mask
    rw [e]

/-- A normal read with the applied view: the RC bits returned are cleared, and all else is as it was. -/
theorem normalRead_lands {s : State} {n : Nat} (hv : s.bit 0x02 0 = false) (h : absentPort s n = false) :
    let t := (normalRead s n).2
    (∀ j, (t.reg n).getLsbD j = ((s.reg n).getLsbD j && !((viewWord s n).getLsbD j && (accMask .rc n).getLsbD j))) ∧
    (∀ b, b ≠ n → t.reg b = s.reg b) ∧ t = { s with regs := t.regs, fresh := t.fresh } := by
  obtain ⟨k, e⟩ := normalRead_clears hv h
  have reg (b : Nat) : (normalRead s n).2.reg b = (clearRc s n (viewWord s n)).reg b := by rw [e]; rfl
  refine ⟨fun j => ?_, fun b hb => ?_, ?_⟩
  · rw [reg, clearRc_reg, if_pos rfl, getLsbD_cleared]
  · rw [reg, clearRc_reg, if_neg hb]
  · rw [e]; rfl

/-- A reached write through the instruction RAM window: the word replaced and corrected, and the taint. -/
theorem iramWindowWrite_lands (s : State) {i : Nat} (hi : i < 16384) (w : Word) {mask : Word} (hm : mask ≠ 0#32) :
    let t := writeWord s (0xC000 + i) w mask
    t.reg (0xC000 + i) = w ∧ (∀ j, t.pool.iramBad.contains j = (s.pool.iramBad.contains j && j != i)) ∧
    (authReq s = true → t.bit 0x2400 6 = true ∧ t.bit 0x2408 4 = true) := by
  rw [writeWord_iram s i w hm]
  refine ⟨?_, fun j => ?_, fun ha => iramWritten_taints ?_ i⟩
  · rw [iramWritten_reg_other _ _ (by omega) (by omega), writeRW_iram_reg s hi w mask (by omega) (by omega), if_pos rfl]
  · obtain ⟨r, sh, m, e⟩ := writeRW_updates (absentPort_iram s i) w mask
    rw [iramWritten_iramBad, e, Bool.eq_iff_iff]
    simp
  · rw [authReq, State.bit, writeRW_iram_reg s hi w mask (by decide) (by decide), if_neg (by omega)]
    exact ha

/-- Settles O3: where the interface is reached each access is `writeWord` or `normalRead`, whose fields, clamps and frames the
lemmas above state; where it is not, and at an absent port, the state is left as it is. -/
theorem registerWriteLands : Obligations.RegisterWriteLands := by
  intro s a w i n
  refine ⟨fun hr => ?unreached, fun h => ?absent, fun hr h hs hlt hm => ?write, fun hr hv h => ?read, fun hr => ?window⟩
  case unreached =>
    rw [exec_registerWrite, exec_readClear, exec_iramWindowWrite]
    simp only [viaHost_unreached hr, and_self]
  case absent =>
    cases hr : hostReach s with
    | true => rw [exec_registerWrite, viaHost_reached hr, writeWord_absent h]
    | false => rw [exec_registerWrite, viaHost_unreached hr]
  case write => exact ⟨_, by rw [exec_registerWrite, viaHost_reached hr], writeWord_lands w _ a.isLt h hs hlt hm⟩
  case read => exact ⟨_, by rw [exec_readClear, viaHost_reached hr], normalRead_lands hv h⟩
  case window => exact ⟨_, by rw [exec_iramWindowWrite, viaHost_reached hr], iramWindowWrite_lands s i.isLt w (by decide)⟩

end Sys2Proof.Machine
end

section
/-! PROOF. The reset state (O2): every field of the register map has a reset value that fits in it, so a word made of its fields'
reset values holds each of them (R15, R33). -/
namespace Sys2Proof.Machine

/-! ## The words of the register map -/

/-- The blocks whose words are listed row by row (Table 5-1). -/
def rowBlocks : List (List (Nat × List Field)) :=
  [glbRows, strRows, clkRows, supRows, hstRows, portRows, circRows, celRows, seqRows, ctxRows, sctxRows, memRows, fabRows, timRows,
    canRows, objRows]

/-- The words that stand for a whole range of addresses: reserved, data and received words, SUP's port words, HST's circuit words. -/
def rangeWords : List (List Field) :=
  [[], [fRW 0 32], [fR 0 32], [fR 0 8, fR 8 4, fR 16 9, fR 25 7], [fR 0 16, fR 16 16]]

/-- What holds of a block's every row, and of no fields, holds of each word of the block. -/
theorem rowsAt_induction {P : List Field → Prop} (nil : P []) {rows : List (Nat × List Field)} (h : ∀ r ∈ rows, P r.2) (o : Nat) :
    P (rowsAt rows o) := by
  induction rows with
  | nil => exact nil
  | cons r t ih =>
    unfold rowsAt
    split
    · exact h r (by simp)
    · exact ih fun q hq => h q (by simp [hq])

/-- What holds of every block's rows and of the words of the ranges holds of every register word. -/
theorem fieldsAt_induction {P : List Field → Prop} (range : ∀ fs ∈ rangeWords, P fs) (rows : ∀ b ∈ rowBlocks, ∀ r ∈ b, P r.2)
    (a : Nat) : P (fieldsAt a) := by
  have block : ∀ b ∈ rowBlocks, ∀ o, P (rowsAt b o) := fun b hb => rowsAt_induction (range [] (by simp [rangeWords])) (rows b hb)
  simp only [rowBlocks, List.forall_mem_cons] at block
  simp only [rangeWords, List.forall_mem_cons] at range
  simp only [fieldsAt, apply_ite P, block, range, ite_self]

/-- Each field's reset value fits in the field. -/
abbrev ResetsFit (fs : List Field) : Prop := ∀ f ∈ fs, f.reset < 2 ^ f.wd

theorem fieldsAt_resetsFit (a : Nat) : ResetsFit (fieldsAt a) :=
  fieldsAt_induction (P := ResetsFit) (by decide) (by decide) a

/-! ## A word made of reset values -/

/-- The word `w` with each field of `fs` set to its reset value. -/
def withResets (fs : List Field) (w : Word) : Word := fs.foldl (fun w f => setF w f.lo f.wd f.reset) w

theorem resetWord_eq_withResets (a : Nat) : resetWord a = withResets (fieldsAt a) 0#32 := rfl

/-- A field that shares no bit with those set keeps its value. -/
theorem getF_withResets_apart {f : Field} (fs : List Field) (w : Word) (h : ∀ g ∈ fs, g.Apart f) :
    getF (withResets fs w) f.lo f.wd = getF w f.lo f.wd := by
  induction fs generalizing w with
  | nil => rfl
  | cons g t ih =>
    calc getF (withResets t (setF w g.lo g.wd g.reset)) f.lo f.wd
      _ = getF (setF w g.lo g.wd g.reset) f.lo f.wd := ih _ fun k hk => h k (by simp [hk])
      _ = getF w f.lo f.wd := getF_setF_other _ _ _ _ _ _ (h g (by simp))

/-- Each of the fields set holds its reset value: it is set once, and none set after it shares a bit with it. -/
theorem getF_withResets_of_mem {f : Field} {fs : List Field} (hok : FieldsOk fs) (hfit : ResetsFit fs) (hf : f ∈ fs) (w : Word) :
    getF (withResets fs w) f.lo f.wd = f.reset := by
  induction fs generalizing w with
  | nil => cases hf
  | cons g t ih =>
    obtain ⟨hin, hpair⟩ := hok
    obtain ⟨hgt, ht⟩ := List.pairwise_cons.1 hpair
    rcases List.mem_cons.1 hf with rfl | hft
    · calc getF (withResets t (setF w f.lo f.wd f.reset)) f.lo f.wd
        _ = getF (setF w f.lo f.wd f.reset) f.lo f.wd := getF_withResets_apart t _ fun k hk => (hgt k hk).symm
        _ = f.reset % 2 ^ f.wd := getF_setF_same _ _ _ _ (hin f hf).1
        _ = f.reset := Nat.mod_eq_of_lt (hfit f hf)
    · exact ih ⟨fun k hk => hin k (by simp [hk]), ht⟩ (fun k hk => hfit k (by simp [hk])) hft _

/-- The reset value of a register word holds the reset value of each of its fields. -/
theorem getF_resetWord {a : Nat} {f : Field} (hf : f ∈ fieldsAt a) : getF (resetWord a) f.lo f.wd = f.reset := by
  rw [resetWord_eq_withResets]
  exact getF_withResets_of_mem (fieldsAt_fieldsOk a) (fieldsAt_resetsFit a) hf _

/-! ## The reset state -/

@[simp] theorem State.reset_reg (a : Nat) : State.reset.reg a = resetWord a := rfl
@[simp] theorem State.reset_shad (a : Nat) : State.reset.shad a = resetWord a := rfl
@[simp] theorem State.reset_cell (i : Nat) : State.reset.cell i = {} := rfl
@[simp] theorem State.reset_circ (c : Nat) : State.reset.circ c = {} := rfl
@[simp] theorem State.reset_ctx (x : Nat) : State.reset.ctx x = {} := rfl

/-- A field of the reset state's applied copy reads its reset value. -/
theorem State.reset_fld {a : Nat} {f : Field} (hf : f ∈ fieldsAt a) : State.reset.fld a f.lo f.wd = f.reset := getF_resetWord hf

/-- The identification word, from its four byte fields (Table 5-7). -/
theorem resetWord_identification : resetWord 0x00 = 0x52011064#32 := by decide

/-- Settles O2: both copies of a word read `resetWord`, which holds each field's reset value; the examples are rows of the register
map, and an unlisted cell, circuit or context is a blank one. -/
theorem resetState : Obligations.ResetState := by
  refine ⟨fun a f hf => ⟨?applied, ?shadow⟩, resetWord_identification, ?limit, ?evten, ?wdt, rfl, fun i => ?cell, fun c => ?circ,
    fun x => ?ctx, rfl, rfl, rfl, rfl, rfl, rfl⟩
  case applied => rw [State.reset_reg, getF_resetWord hf]
  case shadow => rw [State.reset_shad, getF_resetWord hf]
  case limit => exact State.reset_fld (f := fRB 0 8 0x14) (by decide)
  case evten => exact State.reset_fld (f := fRW 0 9 0x1AF) (by decide)
  case wdt => exact State.reset_fld (f := fRB 0 8 0x20 (near 4 250)) (by decide)
  case cell => rw [State.reset_cell]
  case circ => rw [State.reset_circ]
  case ctx => rw [State.reset_ctx]

end Sys2Proof.Machine
end

section
/-! PROOF. A frame for the commands of start-up and of the hand-back: which operations leave the progress of start-up, the commits, the
run marker, the armed watchdog and STR_EVT as they were. -/
namespace Sys2Proof.Machine

/-- What the steps of start-up and of the hand-back leave standing: how far start-up has come, the commits, the HOLD domain's
markers of an intact run, the armed watchdog, and STR_EVT. -/
structure Base where
  boot : Boot
  commit : Commit
  runMarker : Bool
  outage : Bool
  wdRun : Bool
  strEvt : Word

/-- The base of a state. -/
def State.base (s : State) : Base := ⟨s.boot, s.commit, s.hold.runMarker, s.hold.outage, s.sup.wdRun, s.reg 0x113⟩

/-- A change of fields that hold nothing of the base leaves it. -/
theorem State.base_update (s : State) (pending chip fresh ext power strap shadow cells circs ports ctxs outQ credits ctlWait fab canA canB
    tim pool jnl mem jwrite host mbx seq) :
    State.base ⟨pending, chip, fresh, s.hold, ext, power, s.boot, strap, s.regs, shadow, s.commit, cells, circs, ports, ctxs, outQ, credits,
      ctlWait, fab, canA, canB, tim, pool, s.sup, jnl, mem, jwrite, host, mbx, seq⟩ = s.base := rfl
/-- A change of the HOLD domain that leaves the markers leaves the base. -/
theorem State.base_hold (s : State) (h : Hold) (hr : h.runMarker = s.hold.runMarker) (ho : h.outage = s.hold.outage) :
    State.base { s with hold := h } = s.base := by
  unfold State.base
  rw [hr, ho]
  rfl

@[simp] theorem State.base_setReg {a : Nat} (h : a ≠ 0x113) (s : State) (w : Word) : (s.setReg a w).base = s.base := by
  simp [State.base, State.reg_setReg, h.symm]
@[simp] theorem State.base_setFld {a : Nat} (h : a ≠ 0x113) (s : State) (lo wd v : Nat) : (s.setFld a lo wd v).base = s.base :=
  State.base_setReg h s _
@[simp] theorem State.base_setBit {a : Nat} (h : a ≠ 0x113) (s : State) (i : Nat) (b : Bool) : (s.setBit a i b).base = s.base :=
  State.base_setReg h s _
@[simp] theorem State.base_count {a : Nat} (h : a ≠ 0x113) (s : State) (lo wd : Nat) : (s.count a lo wd).base = s.base := State.base_setReg h s _
@[simp] theorem State.base_countBy {a : Nat} (h : a ≠ 0x113) (s : State) (lo wd n : Nat) : (s.countBy a lo wd n).base = s.base :=
  State.base_setReg h s _
@[simp] theorem State.base_countWrap {a : Nat} (h : a ≠ 0x113) (s : State) : (s.countWrap a).base = s.base := State.base_setReg h s _
@[simp] theorem State.base_setShad (s : State) (a : Nat) (w : Word) : (s.setShad a w).base = s.base := rfl
@[simp] theorem State.base_setCell (s : State) (i : Nat) (c : Cell) : (s.setCell i c).base = s.base := rfl
@[simp] theorem State.base_setCirc (s : State) (c : Nat) (x : Circ) : (s.setCirc c x).base = s.base := rfl
@[simp] theorem State.base_setPort (s : State) (n : Nat) (p : Port) : (s.setPort n p).base = s.base := rfl
@[simp] theorem State.base_setCtx (s : State) (x : Nat) (k : Ctx) : (s.setCtx x k).base = s.base := rfl
@[simp] theorem State.base_ite (c : Prop) [Decidable c] (s t : State) : (if c then s else t).base = if c then s.base else t.base := apply_ite _ _ _ _

@[simp] theorem cAddr_ne (c w : Nat) : cAddr c w ≠ 0x113 := by unfold cAddr; omega

theorem base_forList {α : Type} {l : List α} {f : State → α → State} (h : ∀ t a, a ∈ l → (f t a).base = t.base) (s : State) :
    (forList l f s).base = s.base := by
  unfold forList
  induction l generalizing s with
  | nil => rfl
  | cons a t ih => exact (ih (fun u b hb => h u b (by simp [hb])) _).trans (h s a (by simp))
theorem base_forEach {n : Nat} {f : State → Nat → State} (h : ∀ t i, i < n → (f t i).base = t.base) (s : State) :
    (forEach n f s).base = s.base := base_forList (fun t i hi => h t i (by simpa using hi)) s

@[simp] theorem loseRecord_base (s : State) : (loseRecord s).base = s.base := by simp [loseRecord]
@[simp] theorem allocSys_base (s : State) (u : SysUse) : (allocSys s u).2.base = s.base := by
  unfold allocSys
  split <;> simp [↓State.base_update]
@[simp] theorem stageRecord_base (s : State) (r : JRec) : (stageRecord s r).base = s.base := by
  have h := allocSys_base s .jnl
  unfold stageRecord
  split
  · simp
  · split <;> simp_all [↓State.base_update]
@[simp] theorem journal_base (s : State) (t src : Nat) (p : List Byte) : (journal s t src p).base = s.base := by
  unfold journal
  dsimp only
  split
  · simp
  · split <;> simp [↓State.base_update]
@[simp] theorem showFault_base (s : State) : (showFault s).base = s.base := by simp [showFault]
@[simp] theorem raiseFault_base (s : State) (c : Nat) : (raiseFault s c).base = s.base := by simp [raiseFault]
@[simp] theorem clearFault_base (s : State) (c : Nat) : (clearFault s c).base = s.base := by simp [clearFault]
@[simp] theorem watchPool_base (s : State) : (watchPool s).base = s.base := by
  simp [watchPool, ↓State.base_update]
@[simp] theorem noteRetired_base (s : State) : (noteRetired s).base = s.base := by
  simp [noteRetired, ↓State.base_update]

@[simp] theorem journalStruct_base (s : State) (t src : Nat) (p : List Byte) : (journalStruct s t src p).base = s.base :=
  stageRecord_base s _
@[simp] theorem ctxEvent_base (s : State) (x b : Nat) : (ctxEvent s x b).base = s.base := rfl
@[simp] theorem modPort_base (s : State) (n : Nat) (f : Port → Port) : (modPort s n f).base = s.base := rfl
@[simp] theorem stallWatch_base (s : State) (c : Nat) : (stallWatch s c).base = s.base := rfl
@[simp] theorem moveInbox_base (s : State) (x : Nat) : (moveInbox s x).base = s.base := rfl
@[simp] theorem stopCtx_base (s : State) (x : Nat) : (stopCtx s x).base = s.base := rfl
@[simp] theorem modTim_base (s : State) (f : Tim → Tim) : (modTim s f).base = s.base := rfl
@[simp] theorem putStratum_base (s : State) : (putStratum s).base = s.base := rfl
@[simp] theorem noteChanged_base (s : State) (d : Nat) : (noteChanged s d).base = s.base := rfl
@[simp] theorem State.base_setTrunk (s : State) (k : Nat) (t : Trunk) : (s.setTrunk k t).base = s.base := rfl
@[simp] theorem State.base_setNbr (s : State) (j : Nat) (n : Nbr) : (s.setNbr j n).base = s.base := rfl
@[simp] theorem State.base_setRoute (s : State) (i : Nat) (r : Route) : (s.setRoute i r).base = s.base := rfl
@[simp] theorem State.base_setCan (s : State) (ch : Nat) (x : Can) : (s.setCan ch x).base = s.base := by
  unfold State.setCan; split <;> rfl
@[simp] theorem modCan_base (s : State) (ch : Nat) (f : Can → Can) : (modCan s ch f).base = s.base := State.base_setCan s ch _
@[simp] theorem State.base_setObj (s : State) (ch i : Nat) (o : CanObj) : (s.setObj ch i o).base = s.base := modCan_base s ch _

@[simp] theorem setTxseq_base (s : State) (c adv : Nat) : (setTxseq s c adv).base = s.base := by
  simp [setTxseq, ↓State.base_update]

/-! Packets in system cells -/

theorem queueCtl_base {s t : State} {p : Pkt} {k : Option Nat} (h : queueCtl s p k = some t) : t.base = s.base := by
  have e := allocSys_base s .ctl
  unfold queueCtl at h
  split at h
  · next i u hu =>
    rw [hu] at e
    cases h
    simpa [↓State.base_update] using e
  · cases h
@[simp] theorem sendPkt_base (s : State) (p : Pkt) (k : Option Nat) : (sendPkt s p k).base = s.base := by
  unfold sendPkt
  split
  · next h => exact queueCtl_base h
  · simp [↓State.base_update]
@[simp] theorem sendCtl_base (s : State) (typ dst dc sc : Nat) (body : List Byte) : (sendCtl s typ dst dc sc body).base = s.base := by
  simp [sendCtl, ↓State.base_update]
@[simp] theorem sendTomb_base (s : State) (c : Nat) : (sendTomb s c).base = s.base := by simp [sendTomb]
@[simp] theorem sendHop_base (s : State) (k typ fl src : Nat) (body : List Byte) : (sendHop s k typ fl src body).base = s.base :=
  sendPkt_base s _ _
@[simp] theorem sendHello_base (s : State) (k : Nat) : (sendHello s k).base = s.base := by simp [sendHello]
@[simp] theorem serveSysWait_base (s : State) : (serveSysWait s).base = s.base := by
  unfold serveSysWait
  split
  · next p k t _ =>
    generalize h : queueCtl { s with ctlWait := t } p k = o
    cases o with
    | none => rfl
    | some u => simpa [↓State.base_update] using queueCtl_base h
  · dsimp only
    split <;> simp [↓State.base_update]

/-! Cells and circuits -/

@[simp] theorem startEpoch_base (s : State) (c : Nat) (b : Bool) : (startEpoch s c b).base = s.base := by simp [startEpoch]
@[simp] theorem dropHeldChar_base (s : State) (x : Nat) : (dropHeldChar s x).base = s.base := by
  refine base_forEach (fun t n _ => ?_) s
  split <;> simp
@[simp] theorem dropRefs_base (s : State) (c i : Nat) : (dropRefs s c i).base = s.base := by
  simp [dropRefs, ↓State.base_update]
@[simp] theorem addCredits_base (s : State) (c n : Nat) : (addCredits s c n).base = s.base := by simp [addCredits]
@[simp] theorem creditLocal_base (s : State) (c q : Nat) : (creditLocal s c q).base = s.base := by simp [creditLocal]
@[simp] theorem sendCredit_base (s : State) (e : CreditEntry) (g r : Nat) : (sendCredit s e g r).base = s.base :=
  sendCtl_base s _ _ _ _ _
@[simp] theorem oweCredit_base (s : State) (o g q : Nat) : (oweCredit s o g q).base = s.base := by
  unfold oweCredit
  dsimp only
  split
  · simp
  · split <;> simp [↓State.base_update]
@[simp] theorem allocEvents_base (s : State) : (allocEvents s).base = s.base :=
  base_forEach (fun t x _ => by simp) s
@[simp] theorem stopAtBoundary_base (s : State) (x : Nat) : (stopAtBoundary s x).base = s.base := by simp [stopAtBoundary]
@[simp] theorem drainEnd_base (s : State) (c : Nat) : (drainEnd s c).base = s.base := by simp [drainEnd]
@[simp] theorem drainCheck_base (s : State) (c : Nat) : (drainCheck s c).base = s.base := by simp [drainCheck]
@[simp] theorem flowOff_base (s : State) (n : Nat) : (flowOff s n).base = s.base := by simp [flowOff]
@[simp] theorem flowOn_base (s : State) (n : Nat) : (flowOn s n).base = s.base := by simp [flowOn]
@[simp] theorem rtsWatch_base (s : State) (n : Nat) : (rtsWatch s n).base = s.base := by simp [rtsWatch]
@[simp] theorem flowWatch_base (s : State) (c : Nat) (b : Bool) : (flowWatch s c b).base = s.base :=
  base_forEach (fun t n _ => by simp) s
@[simp] theorem releaseCell_base (s : State) (i : Nat) : (releaseCell s i).base = s.base := by
  unfold releaseCell
  dsimp only
  split <;> simp
@[simp] theorem releaseAll_base (s : State) (l : List Nat) : (forList l releaseCell s).base = s.base :=
  base_forList (fun t i _ => releaseCell_base t i) s
@[simp] theorem letGo_base (s : State) (i : Nat) : (letGo s i).base = s.base := by
  unfold letGo
  dsimp only
  split
  · simp
  · split <;> simp
@[simp] theorem dropAll_base (s : State) (c : Nat) : (dropAll s c).2.base = s.base :=
  base_forList (fun t i _ => letGo_base t i) _
@[simp] theorem cutCirc_base (s : State) (c : Nat) : (cutCirc s c).base = s.base := by simp [cutCirc]
@[simp] theorem returnCursors_base (s : State) (x : Nat) : (returnCursors s x).base = s.base := by
  unfold returnCursors
  dsimp only
  split <;> simp
@[simp] theorem startCtx_base (s : State) (x : Nat) : (startCtx s x).base = s.base := by simp [startCtx]
@[simp] theorem enterRun_base (s : State) (c : Nat) : (enterRun s c).base = s.base := by simp [enterRun]
@[simp] theorem enterDrain_base (s : State) (c : Nat) : (enterDrain s c).base = s.base := by simp [enterDrain]
@[simp] theorem leaveFault_base (s : State) (c : Nat) : (leaveFault s c).base = s.base := by simp [leaveFault]
@[simp] theorem closeCellAs_base (s : State) (i c k : Nat) (w : Word) : (closeCellAs s i c k w).2.base = s.base := by
  unfold closeCellAs
  dsimp only
  split <;> simp
@[simp] theorem enqueueCell_base (s : State) (c i : Nat) (b : Bool) : (enqueueCell s c i b).base = s.base := by simp [enqueueCell]
@[simp] theorem closeCell_base (s : State) (i c k : Nat) : (closeCell s i c k).base = s.base := by
  have e := closeCellAs_base s i c k (crc32c (s.cell i).payload)
  unfold closeCell
  split <;> (next h => rw [h] at e; simpa using e)
@[simp] theorem closeRx_base (s : State) (i c k : Nat) : (closeRx s i c k).base = s.base := by simp [closeRx]
@[simp] theorem closeAllRx_base (s : State) (n k : Nat) : (closeAllRx s n k).base = s.base := by
  refine base_forList (fun t e _ => ?_) s
  split <;> simp

/-! Time references and the fabric -/

@[simp] theorem setQuality_base (s : State) (q : Quality) : (setQuality s q).base = s.base := by
  unfold setQuality
  dsimp only
  split
  · rfl
  · rw [journal_base, State.base_setBit (by decide)]
    split <;> exact State.base_hold s _ rfl rfl
@[simp] theorem capLocked_base (s : State) : (capLocked s).base = s.base := by simp [capLocked]
@[simp] theorem putFreq_base (s : State) : (putFreq s).base = s.base := by simp [putFreq]
@[simp] theorem refGone_base (s : State) : (refGone s).base = s.base := by
  unfold refGone
  dsimp only
  split <;> simp [State.base_hold]
@[simp] theorem reselect_base (s : State) : (reselect s).base = s.base := by
  unfold reselect
  dsimp only
  rw [putStratum_base, capLocked_base]
  split
  · simp
  · split
    · simp
    · refine (State.base_hold _ _ rfl rfl).trans ?_
      simp
@[simp] theorem twinStandby_base (s : State) : (twinStandby s).base = s.base :=
  base_forEach (fun t c _ => by simp) _
@[simp] theorem twinWatch_base (s : State) : (twinWatch s).base = s.base := by
  unfold twinWatch
  split
  · rfl
  · split
    · split <;> simp [↓State.base_update]
    · rfl
@[simp] theorem putRoute_base (s : State) (i : Nat) (r : Route) : (putRoute s i r).base = s.base := by
  unfold putRoute
  dsimp only
  rw [twinWatch_base, State.base_ite, noteChanged_base, ite_self]
  split
  · simp [↓State.base_update]
  · simp
@[simp] theorem failBest_base (s : State) (i : Nat) : (failBest s i).base = s.base := by
  unfold failBest
  dsimp only
  split
  · rfl
  · split <;> simp
@[simp] theorem failPaths_base (s : State) (gone : RPath → Bool) : (failPaths s gone).base = s.base :=
  base_forList (fun t i _ => by simp) s
@[simp] theorem loseNbr_base (s : State) (j : Nat) : (loseNbr s j).base = s.base := by simp [loseNbr]
@[simp] theorem loseNbrs_base (s : State) (l : List Nat) : (forList l loseNbr s).base = s.base :=
  base_forList (fun t j _ => loseNbr_base t j) s
@[simp] theorem trunkDown_base (s : State) (k : Nat) (c : DownCause) : (trunkDown s k c).base = s.base := by
  simp [trunkDown, ↓State.base_update]
@[simp] theorem trunkUp_base (s : State) (k : Nat) : (trunkUp s k).base = s.base := by simp [trunkUp]
@[simp] theorem trunkWatch_base (s : State) (c : DownCause) : (trunkWatch s c).base = s.base :=
  base_forEach (fun t k _ => by simp) s
@[simp] theorem sendClaims_base (s : State) (a : Nat) (o b : Bool) : (sendClaims s a o b).base = s.base :=
  base_forEach (fun t k _ => by simp [↓State.base_update]) s
@[simp] theorem startClaim_base (s : State) (a : Nat) (b : Bool) (n d : Nat) : (startClaim s a b n d).base = s.base := by
  unfold startClaim
  dsimp only
  rw [sendClaims_base]
  simp [↓State.base_update]
@[simp] theorem claimAuto_base (s : State) (a d : Nat) : (claimAuto s a d).base = s.base := by
  unfold claimAuto
  dsimp only
  split
  · simp [↓State.base_update]
  · simp
@[simp] theorem claimReq_base (s : State) : (claimReq s).base = s.base := by simp [claimReq]

/-! CAN channels and gloving -/

@[simp] theorem canEvt_base (s : State) (ch b : Nat) : (canEvt s ch b).base = s.base :=
  State.base_setBit (by unfold chAddr; omega) s b true
@[simp] theorem setRole_base (s : State) (ch : Nat) (r : CanRole) : (setRole s ch r).base = s.base := by
  simp [setRole]
@[simp] theorem setCanSt_base (s : State) (ch : Nat) (st : CanSt) (c : DownCause) : (setCanSt s ch st c).base = s.base := by
  unfold setCanSt
  dsimp only
  split <;> simp
@[simp] theorem integrate_base (s : State) (ch : Nat) (b : Bool) (c : DownCause) : (integrate s ch b c).base = s.base := by
  simp [integrate]
@[simp] theorem gloveFor_base (s : State) (n secs : Nat) : (gloveFor s n secs).base = s.base := by simp [gloveFor]

end Sys2Proof.Machine
end

section
/-! PROOF. Applying commits (R141, R149, R151): the rules between fields keep the frame, and a commit applied changes the words it staged,
never the progress of start-up nor the commits held for step 8. -/
namespace Sys2Proof.Machine

/-! ## Rules between fields, and what an application does beside them -/

@[simp] theorem utAddr_ne (k : Nat) : utAddr k ≠ 0x113 := by unfold utAddr; omega

@[simp] theorem fixIf_base {a : Nat} (h : a ≠ 0x113) (b : Bool) (lo wd v : Nat) (s : State) : (fixIf b a lo wd v s).base = s.base := by
  unfold fixIf
  split
  · exact State.base_setFld h s lo wd v
  · rfl
@[simp] theorem quotaRule_base (c r : Nat) (s : State) : (quotaRule c r s).base = s.base := by simp [quotaRule]
@[simp] theorem bindRule_base (c : Nat) (s : State) : (bindRule c s).base = s.base := by simp [bindRule]
@[simp] theorem celRule_base (s : State) : (celRule s).base = s.base := by simp [celRule]
@[simp] theorem fabRule_base (s : State) : (fabRule s).base = s.base :=
  (base_forList (fun t k _ => by simp) _).trans (fixIf_base (by decide) _ _ _ _ _)
@[simp] theorem noteXclamp_base (s : State) (a : Nat) : (noteXclamp s a).base = s.base := by simp [noteXclamp]
@[simp] theorem celWatch_base (s : State) : (celWatch s).base = s.base := by
  unfold celWatch
  rw [allocEvents_base]
  simp [↓State.base_update]
@[simp] theorem afterStr_base (s : State) : (afterStr s).base = s.base := rfl
@[simp] theorem afterFab_base (old asked s : State) : (afterFab old asked s).base = s.base := by
  unfold afterFab
  dsimp only
  rw [State.base_ite, claimReq_base, ite_self, trunkWatch_base]
  rw [base_forList (fun t k _ => by simp), base_forList (fun t k _ => by simp)]
@[simp] theorem afterCirc_base (c : Nat) (en : Bool) (bind : Word) (s : State) : (afterCirc c en bind s).base = s.base := by
  unfold afterCirc
  dsimp only
  rw [allocEvents_base, watchPool_base, stallWatch_base, base_forEach (fun t n _ => by simp)]
  split <;> simp
@[simp] theorem State.base_setGroup (s : State) (g : Nat) (x : Group) : (s.setGroup g x).base = s.base := by
  simp [State.setGroup, ↓State.base_update]
@[simp] theorem beginSwitch_base (s : State) (g code : Nat) : (beginSwitch s g code).base = s.base := by
  unfold beginSwitch
  dsimp only
  rw [base_forEach (fun t k _ => by simp)]
  simp

/-! ## What applying commits leaves standing -/

/-- None of the words is STR_EVT. -/
def missesEvt (l : List (Nat × Word × Word)) : Prop := ∀ w ∈ l, w.1 ≠ 0x113
/-- No staged commit writes STR_EVT. -/
def State.stagedMiss (s : State) : Prop := ∀ e ∈ s.commit.staged, missesEvt e.words

/-- What applying commits leaves standing from `s` to `t`: how far start-up has come, the commits held for step 8, and, where `ok` says
that no word applied is STR_EVT, that register. -/
structure Settled (ok : Prop) (s t : State) : Prop where
  boot : t.boot = s.boot
  held : t.commit.held = s.commit.held
  evt : ok → t.reg 0x113 = s.reg 0x113
  staged : ok → s.stagedMiss → t.stagedMiss

namespace Settled
variable {ok : Prop} {s t u : State}

theorem refl (s : State) : Settled ok s s := ⟨rfl, rfl, fun _ => rfl, fun _ h => h⟩
theorem trans (h : Settled ok s t) (k : Settled ok t u) : Settled ok s u :=
  ⟨k.boot.trans h.boot, k.held.trans h.held, fun o => (k.evt o).trans (h.evt o), fun o m => k.staged o (h.staged o m)⟩
theorem of_base (h : t.base = s.base) : Settled ok s t := by
  obtain ⟨hb, hc, -, -, -, he⟩ := Base.mk.inj h
  refine ⟨hb, by rw [hc], fun _ => he, fun _ m e me => m e ?_⟩
  rwa [← hc]
theorem of_forList {α : Type} {l : List α} {f : State → α → State} (h : ∀ t a, a ∈ l → Settled ok t (f t a)) (s : State) :
    Settled ok s (forList l f s) := by
  unfold forList
  induction l generalizing s with
  | nil => exact refl s
  | cons a t ih => exact (h s a (by simp)).trans (ih (fun u b hb => h u b (by simp [hb])) _)
theorem ite {c : Prop} [Decidable c] (h : c → Settled ok s t) (k : ¬ c → Settled ok s u) : Settled ok s (if c then t else u) :=
  iteInduction h k
end Settled

section
variable {ok : Prop}

theorem putWords_settled {l : List (Nat × Word × Word)} (h : ok → missesEvt l) (s : State) : Settled ok s (putWords s l) := by
  refine Settled.of_forList (f := fun (s : State) (t : Nat × Word × Word) => s.setReg t.1 ((s.reg t.1 &&& ~~~t.2.1) ||| (t.2.2 &&& t.2.1)))
    (fun t w hw => ⟨rfl, rfl, fun o => ?_, fun _ m => m⟩) s
  rw [State.reg_setReg, if_neg (h o w hw).symm]

theorem putRuled_settled {l : List (Nat × Word × Word)} {rule : State → State} (h : ok → missesEvt l)
    (hr : ∀ t, (rule t).base = t.base) (s : State) (i : Inst) : Settled ok s (putRuled s i l rule) :=
  (putWords_settled h s).trans <| (Settled.of_base (hr _)).trans <|
    Settled.of_forList (fun t a _ => .of_base (noteXclamp_base t a)) _

theorem trimmedReserve_settled (s : State) (e : Staged) (c : Nat) : Settled ok s (trimmedReserve s e c).2 := by
  unfold trimmedReserve
  dsimp only
  split
  · exact .refl s
  · exact ⟨rfl, rfl, fun _ => rfl, fun _ m => m⟩

theorem doneCheck_settled (s : State) (w : Nat) : Settled ok s (doneCheck s w) :=
  .ite (fun _ => .refl s) fun _ => ⟨rfl, rfl, fun _ => State.reg_setBit_other s 0x0B 3 true (by decide), fun _ m => m⟩

theorem doneChecks_settled (s : State) (l : List Nat) : Settled ok s (forList l doneCheck s) :=
  Settled.of_forList (fun t w _ => doneCheck_settled t w) s

/-- STR_EVT is no word that a commit stages. -/
theorem instAddrs_ne (i : Inst) : ∀ a ∈ instAddrs i, a ≠ 0x113 := by
  cases i <;> simp [instAddrs, pAddr, cAddr, xAddr, chAddr, oAddr] <;> omega
theorem stageWords_misses (s : State) (i : Inst) : missesEvt (stageWords s i) := by
  intro w hw
  obtain ⟨a, ha, rfl⟩ := List.mem_map.1 hw
  exact instAddrs_ne i a ha

theorem mem_of_mem_dropStaged {i : Inst} {l : List Staged} {e : Staged} (h : e ∈ dropStaged i l) : e ∈ l := by
  induction l with
  | nil => exact h
  | cons a t ih =>
    unfold dropStaged at h
    split at h
    · exact List.mem_cons_of_mem _ h
    · rcases List.mem_cons.1 h with rfl | h
      · exact List.mem_cons_self
      · exact List.mem_cons_of_mem _ (ih h)

/-- Dropping staged entries, and staging the shadow of a block, stage no new word but that block's. -/
theorem finishEntry_settled (s : State) (e : Staged) : Settled ok s (finishEntry s e) := by
  have dropped : Settled ok s ({ s with commit := { s.commit with staged := dropStaged e.inst s.commit.staged } }.countWrap 0x409) :=
    ⟨rfl, rfl, fun _ => State.reg_setReg _ _ _ _ |>.trans (if_neg (by decide)), fun _ m e he => m e (mem_of_mem_dropStaged he)⟩
  unfold finishEntry
  dsimp only
  split
  · exact dropped.trans (doneChecks_settled _ _)
  · split
    · exact dropped.trans (doneChecks_settled _ _)
    · refine dropped.trans (.trans ?_ (doneChecks_settled _ _))
      refine .ite (fun _ => ⟨rfl, rfl, fun _ => rfl, fun _ m => ?_⟩) fun _ => ⟨rfl, rfl, fun _ => rfl, fun _ m => m⟩
      intro f hf
      rcases List.mem_append.1 hf with hf | hf
      · exact m f hf
      · rw [List.mem_singleton.1 hf]
        exact stageWords_misses _ _

variable {e : Staged} (he : ok → missesEvt e.words)
include he

theorem applyCircOnly_settled (s : State) (c : Nat) : Settled ok s (applyCircOnly s c e) := by
  have trimmed := trimmedReserve_settled (ok := ok) s e c
  unfold applyCircOnly
  generalize trimmedReserve s e c = p at trimmed
  obtain ⟨r, u⟩ := p
  have cut : Settled ok u (if cutsBy u c e then (cutCirc u c).setShad (cAddr c 0) (u.shad (cAddr c 0)) else u) := .of_base (by simp)
  refine trimmed.trans (cut.trans (.trans ?_ (finishEntry_settled _ e)))
  exact (putRuled_settled he (fun t => by simp) _ _).trans (.of_base ((afterCirc_base _ _ _ _).trans (ctxEvent_base _ _ _)))

theorem applyCtxOnly_settled (s : State) : Settled ok s (applyCtxOnly s e) := by
  unfold applyCtxOnly
  split
  · refine .trans ?_ (finishEntry_settled _ e)
    exact (putWords_settled he s).trans (.of_base (by simp))
  · exact (putWords_settled he s).trans (finishEntry_settled _ e)

theorem applyClk_settled (s : State) : Settled ok s (applyClk s e) := by
  unfold applyClk
  dsimp only
  have put := putWords_settled (l := e.words.filter (fun t => t.1 != 0x201)) (fun o w hw => he o w (List.mem_of_mem_filter hw)) s
  generalize hu : forEach 4 _ _ = u
  have switched : Settled ok _ u := .of_base (hu ▸ base_forEach (fun t g _ => by simp) _)
  refine (put.trans switched).trans ?_
  refine .ite (fun _ => ⟨rfl, rfl, fun _ => rfl, fun o m => ?_⟩) fun _ => finishEntry_settled _ e
  intro f hf w hw
  obtain ⟨g, hg, rfl⟩ := List.mem_map.1 hf
  split at hw
  · exact m g hg w (List.mem_of_mem_filter hw)
  · exact m g hg w hw

theorem applyPlain_settled (s : State) : Settled ok s (applyPlain s e) := by
  unfold applyPlain
  split
  · exact applyClk_settled he s
  · exact ((putRuled_settled he celRule_base s _).trans (.of_base (celWatch_base _))).trans (finishEntry_settled _ e)
  · exact ((putRuled_settled he fabRule_base s _).trans (.of_base (afterFab_base _ _ _))).trans (finishEntry_settled _ e)
  · exact ((putWords_settled he s).trans (.of_base (reselect_base _))).trans (finishEntry_settled _ e)
  · exact ((putWords_settled he s).trans (.of_base (afterStr_base _))).trans (finishEntry_settled _ e)
  · exact (putWords_settled he s).trans (finishEntry_settled _ e)

end

theorem applyCirc_settled {ok : Prop} {s : State} {e : Staged} (he : e ∈ s.commit.staged) (hs : ok → s.stagedMiss) (c : Nat) :
    Settled ok s (applyCirc s c e) := by
  unfold applyCirc
  refine .trans ?_ (applyCircOnly_settled (fun o => hs o e he) _ c)
  split
  · next x hx =>
    exact applyCtxOnly_settled (fun o => hs o x (List.mem_of_find?_eq_some (Option.filter_eq_some_iff.1 hx).1)) s
  · exact .refl s

theorem settleCommits_settled {ok : Prop} (f : Nat) {s : State} (hs : ok → s.stagedMiss) : Settled ok s (settleCommits f s) := by
  induction f generalizing s with
  | zero => exact .refl s
  | succ f ih =>
    unfold settleCommits
    split
    · exact .refl s
    · split
      · exact .refl s
      · next e he =>
        have mem : e ∈ s.commit.staged := List.mem_of_find?_eq_some he
        suffices applied : Settled ok s _ from applied.trans (ih fun o => applied.staged o (hs o))
        split
        · exact applyCirc_settled mem hs _
        · exact applyPlain_settled (fun o => hs o e mem) s

theorem settleAll_settled {ok : Prop} {s : State} (hs : ok → s.stagedMiss) : Settled ok s (settleAll s) := settleCommits_settled 160 hs

/-- Where no commit may apply, nothing settles (R119, R151). -/
theorem settleAll_of_held {s : State} (h : commitsRun s = false) : settleAll s = s := by
  simp [settleAll, settleCommits, h]

end Sys2Proof.Machine
end

section
/-! PROOF. The strap commands (O35): the shadows a hand-back puts back (R72), the levels a reading settles to on demand (R577), and each command. -/
namespace Sys2Proof.Machine

/-! ## A hand-back's shadows -/

/-- Word `a` of the shadow holds the RB bits of `w`. -/
def shadHolds (s : State) (a : Nat) (w : Word) : Prop := s.shad a &&& accMask .rb a = w &&& accMask .rb a

/-- Putting the Mantle layer's value of word `a` into the shadow. -/
def putLayer (s : State) (a : Nat) : State :=
  s.setShad a ((s.shad a &&& ~~~accMask .rb a) ||| (layerWord s a &&& accMask .rb a))


theorem and_mask_merge (x y m : Word) : ((x &&& ~~~m) ||| (y &&& m)) &&& m = y &&& m := by
  ext i hi
  simp
  cases x[i] <;> cases y[i] <;> cases m[i] <;> rfl

theorem putLayer_holds (s : State) (a b : Nat) (h : a = b ∨ shadHolds s a (layerWord s a)) :
    shadHolds (putLayer s b) a (layerWord s a) := by
  unfold shadHolds putLayer
  rw [State.shad_setShad]
  split
  · next e => subst e; exact and_mask_merge _ _ _
  · next e => exact h.resolve_left e

/-- After a list of words is put into the shadow, each of them holds its layer value, and so does a word that held it. -/
theorem putLayers_hold (l : List Nat) (s : State) (a : Nat) (h : a ∈ l ∨ shadHolds s a (layerWord s a)) :
    shadHolds (forList l putLayer s) a (layerWord s a) := by
  unfold forList
  induction l generalizing s with
  | nil => exact h.resolve_left (by simp)
  | cons b t ih =>
    refine ih (putLayer s b) ?_
    rcases h with h | h
    · rcases List.mem_cons.1 h with rfl | h
      · exact .inr (putLayer_holds s a a (.inl rfl))
      · exact .inl h
    · exact .inr (putLayer_holds s a b (.inr h))

/-- Putting the layer into the shadow changes the shadow only. -/
theorem putLayers_eq (l : List Nat) (s : State) : ∃ sh, forList l putLayer s = { s with shadow := sh } := by
  unfold forList
  induction l generalizing s with
  | nil => exact ⟨s.shadow, rfl⟩
  | cons b t ih =>
    obtain ⟨sh, h⟩ := ih (putLayer s b)
    exact ⟨sh, h⟩

/-! ## Readings and levels -/

/-- A pin's reading is one of the 4096 values of a conversion. -/
theorem meanOf_le (c : Conversions) : meanOf c ≤ 4095 := by
  have sum : ∀ (l : Conversions) (n : Nat), l.foldl (fun t v => t + v.toNat) n ≤ n + 4095 * l.length := by
    intro l
    induction l with
    | nil => simp
    | cons v t ih =>
      intro n
      have := ih (n + v.toNat)
      have := v.isLt
      simp only [List.foldl_cons, List.length_cons]
      omega
  have := sum (c.take 8) 0
  have : (c.take 8).length ≤ 8 := by simp
  unfold meanOf
  omega

/-- No reading lies above every level, so the lower candidate has an upper neighbour. -/
theorem lowerCand_lt {mv : Nat} (h : mv ≤ 4095) : lowerCand mv < 15 := by
  refine List.foldlRecOn (motive := (· < 15)) _ _ (by decide) fun m hm l hl => ?_
  by_cases top : l = 15
  · subst top
    simpa [levelTable, show ¬ 4095 < mv by omega] using hm
  · have : l < 16 := by simpa using hl
    split
    · split <;> omega
    · exact hm

theorem nearerLevel_lt {mv : Nat} (h : mv ≤ 4095) : nearerLevel mv < 16 := by
  have := lowerCand_lt h
  unfold nearerLevel
  dsimp only
  split <;> omega

theorem levelOf_lt {mv l : Nat} (h : levelOf mv = some l) : l < 16 := by
  simpa using List.mem_of_find?_eq_some h

/-- A reading settles to one of the sixteen levels. -/
theorem settleLevel_lt {mv : Nat} (h : mv ≤ 4095) : (settleLevel mv none).1 < 16 := by
  unfold settleLevel
  split
  · next l hl => exact levelOf_lt hl
  · exact nearerLevel_lt h

/-! ## Packed words -/

theorem State.bit_eq_getLsbD (s : State) (a i : Nat) : s.bit a i = (s.reg a).getLsbD i := by
  have h := testBit_getF (s.reg a) i 1 0
  have lt := getF_lt (s.reg a) i 1
  unfold State.bit
  rw [Nat.testBit_zero] at h
  simp only [show (0 < 1) by decide, decide_true, Bool.true_and, Nat.add_zero] at h
  rw [← h, beq_eq_decide]
  exact decide_eq_decide.2 (by omega)

theorem testBit_wordOfBits (l : List Bool) (i : Nat) : (wordOfBits l).testBit i = (l[i]?).getD false := by
  induction l generalizing i with
  | nil => simp [wordOfBits]
  | cons b t ih =>
    cases i with
    | zero => cases b <;> simp [wordOfBits, Nat.testBit_zero]
    | succ i =>
      rw [Nat.testBit_succ, List.getElem?_cons_succ, ← ih]
      congr 1
      cases b
      · simp [wordOfBits]
      · simp [wordOfBits]; omega

theorem wordOfBits_lt (l : List Bool) : wordOfBits l < 2 ^ l.length := by
  induction l with
  | nil => decide
  | cons b t ih =>
    have : b2n b ≤ 1 := by cases b <;> decide
    simp only [wordOfBits, List.length_cons, Nat.pow_succ]
    omega

/-- Six levels packed four bits each, the first pin's topmost. -/
def packLevels (f : Nat → Nat) : Nat := (List.range 6).foldl (fun t k => t * 16 + f k) 0

theorem packLevels_lt {f : Nat → Nat} (hf : ∀ k, f k < 16) : packLevels f < 2 ^ 24 := by
  have := hf 0; have := hf 1; have := hf 2; have := hf 3; have := hf 4; have := hf 5
  simp [packLevels, List.range_succ]
  omega

theorem packLevels_level {f : Nat → Nat} (hf : ∀ k, f k < 16) {k : Nat} (hk : k < 6) : packLevels f / 2 ^ (4 * (5 - k)) % 2 ^ 4 = f k := by
  have := hf 0; have := hf 1; have := hf 2; have := hf 3; have := hf 4; have := hf 5
  simp only [packLevels, List.range_succ, List.range_zero, List.nil_append, List.cons_append, List.foldl_cons, List.foldl_nil]
  interval_cases k <;> omega

/-! ## A measurement on demand (R577) -/

/-- What pin `k` settles to in a measurement on demand: its level, and whether it reads a boundary. -/
def measured (conv : List Conversions) (k : Nat) : Nat × Bool := settleLevel (meanOf ((conv[k]?).getD [])) none

/-- The levels and the boundary flags of a measurement, as STR_MEAS holds them. -/
def measLevels (conv : List Conversions) : Nat := packLevels (fun k => (measured conv k).1)
def measFlags (conv : List Conversions) : Nat := wordOfBits ((List.range 6).map (fun k => (measured conv k).2))
def measWord (conv : List Conversions) : Word := BitVec.ofNat 32 (measFlags conv * 2 ^ 24 + measLevels conv)

theorem measured_lt (conv : List Conversions) (k : Nat) : (measured conv k).1 < 16 := settleLevel_lt (meanOf_le _)
theorem measLevels_lt (conv : List Conversions) : measLevels conv < 2 ^ 24 := packLevels_lt (measured_lt conv)
theorem measWord_toNat (conv : List Conversions) : (measWord conv).toNat = measFlags conv * 2 ^ 24 + measLevels conv := by
  have hl := measLevels_lt conv
  have hf : measFlags conv < 2 ^ 6 := wordOfBits_lt _
  rw [measWord, BitVec.toNat_ofNat, Nat.mod_eq_of_lt (by omega)]

theorem measWord_levels (conv : List Conversions) : getF (measWord conv) 0 24 = measLevels conv := by
  have hl := measLevels_lt conv
  rw [getF, measWord_toNat]
  omega
theorem measWord_level (conv : List Conversions) {k : Nat} (hk : k < 6) : getF (measWord conv) (4 * (5 - k)) 4 = (measured conv k).1 := by
  have h : getF (measWord conv) (4 * (5 - k)) 4 = measLevels conv / 2 ^ (4 * (5 - k)) % 2 ^ 4 := by
    rw [getF, measWord_toNat]
    interval_cases k <;> omega
  rw [h]
  exact packLevels_level (measured_lt conv) hk
theorem measWord_flag (conv : List Conversions) {k : Nat} (hk : k < 6) : (measWord conv).getLsbD (24 + k) = (measured conv k).2 := by
  have h : (measWord conv).getLsbD (24 + k) = (measFlags conv).testBit k := by
    rw [BitVec.getLsbD, measWord_toNat, Nat.mul_comm, Nat.testBit_two_pow_mul_add _ (measLevels_lt conv), if_neg (by omega)]
    simp
  rw [h, measFlags, testBit_wordOfBits]
  simp [hk]

/-- The state as a measurement leaves it, before CHANGED is judged. -/
def State.measuredBy (s : State) (conv : List Conversions) : State :=
  ({ s with strap := { s.strap with measuring := false } }.setReg 0x112 (measWord conv)).setBit 0x113 0

/-- A running measurement ends in STR_MEAS and STR_EVT.MEAS, with CHANGED where the levels are not STR_LEVELS'. -/
theorem exec_measureDone {s : State} (h : s.strap.measuring = true) (conv : List Conversions) : exec (.measureDone conv) s =
    .next (if measLevels conv = s.fld 0x100 0 24 then s.measuredBy conv else (s.measuredBy conv).setBit 0x113 2) := by
  show execMeasureDone conv s = _
  unfold execMeasureDone
  rw [if_neg (by simp [h])]
  have e : (s.measuredBy conv).fld 0x100 0 24 = s.fld 0x100 0 24 := by
    simp [State.fld, State.measuredBy, State.reg_setBit_other, State.reg_setReg]; rfl
  rw [← e]
  rfl

theorem measuredBy_reg (s : State) (conv : List Conversions) {a : Nat} (h : a ≠ 0x113) :
    (s.measuredBy conv).reg a = if a = 0x112 then measWord conv else s.reg a := by
  rw [State.measuredBy, State.reg_setBit_other _ _ _ _ h, State.reg_setReg]
  rfl

theorem measureDone_lands {s : State} (h : s.strap.measuring = true) (conv : List Conversions) : ∃ t, exec (.measureDone conv) s = .next t ∧
    t = { s with regs := t.regs, strap := { s.strap with measuring := false } } ∧ t.bit 0x113 0 = true ∧
    (∀ k, k < 6 → t.fld 0x112 (4 * (5 - k)) 4 = (measured conv k).1 ∧ t.bit 0x112 (24 + k) = (measured conv k).2) ∧
    (t.fld 0x112 0 24 ≠ s.fld 0x100 0 24 → t.bit 0x113 2 = true) ∧ ∀ a, a ≠ 0x112 → a ≠ 0x113 → t.reg a = s.reg a := by
  refine ⟨_, exec_measureDone h conv, ?_⟩
  generalize ht : (if measLevels conv = s.fld 0x100 0 24 then s.measuredBy conv else (s.measuredBy conv).setBit 0x113 2) = t
  have reg {a : Nat} (ha : a ≠ 0x113) : t.reg a = if a = 0x112 then measWord conv else s.reg a := by
    rw [← measuredBy_reg s conv ha, ← ht]
    split
    · rfl
    · exact State.reg_setBit_other _ _ _ _ ha
  have meas : t.reg 0x112 = measWord conv := reg (by decide)
  refine ⟨?frame, ?done, fun k hk => ⟨?level, ?flag⟩, ?changed, fun a h2 h3 => ?others⟩
  case frame => rw [← ht]; split <;> rfl
  case done =>
    have done : (s.measuredBy conv).bit 0x113 0 = true := State.bit_setBit_same _ _ _ _ (by decide)
    rw [← ht]
    split
    · exact done
    · rwa [State.bit_setBit_other _ _ _ _ _ (by decide)]
  case level => rw [State.fld, meas, measWord_level conv hk]
  case flag => rw [State.bit_eq_getLsbD, meas, measWord_flag conv hk]
  case changed =>
    intro hne
    rw [State.fld, meas, measWord_levels] at hne
    rw [← ht, if_neg hne]
    exact State.bit_setBit_same _ _ _ _ (by decide)
  case others => rw [reg h3, if_neg h2]

/-! ## GLB_COMMIT with nothing staged -/

/-- A strobe of one block changes registers and commits only. -/
theorem strobeInst_eq (ws : List Nat) (s : State) (i : Inst) : ∃ r c, strobeInst ws s i = { s with regs := r, commit := c } := by
  unfold strobeInst
  split
  · exact ⟨_, _, rfl⟩
  · split
    · exact ⟨_, _, rfl⟩
    · split
      · exact ⟨_, _, rfl⟩
      · exact ⟨s.regs, s.commit, rfl⟩
theorem strobeInsts_eq (ws : List Nat) (l : List Inst) (s : State) :
    ∃ r c, forList l (strobeInst ws) s = { s with regs := r, commit := c } := by
  unfold forList
  induction l generalizing s with
  | nil => exact ⟨s.regs, s.commit, rfl⟩
  | cons i t ih =>
    obtain ⟨r, c, h⟩ := strobeInst_eq ws s i
    obtain ⟨r', c', h'⟩ := ih (strobeInst ws s i)
    exact ⟨r', c', h'.trans (by rw [h])⟩
theorem doneCheck_eq (s : State) (w : Nat) : ∃ r c, doneCheck s w = { s with regs := r, commit := c } := by
  unfold doneCheck
  split
  · exact ⟨s.regs, s.commit, rfl⟩
  · exact ⟨_, _, rfl⟩

/-- A block strobed stages words of its own only. -/
theorem strobeInst_settled {ok : Prop} (ws : List Nat) (s : State) (i : Inst) : Settled ok s (strobeInst ws s i) := by
  unfold strobeInst
  refine .ite (fun _ => ?merge) fun _ => .ite (fun _ => ?queue) fun _ => .ite (fun _ => ?stage) fun _ => .refl s
  case merge =>
    refine ⟨rfl, rfl, fun _ => ?_, fun _ m => m⟩
    rw [State.reg_setBit_other _ _ _ _ (by decide), State.reg_count_other _ _ _ _ (by decide)]
    rfl
  case queue => exact ⟨rfl, rfl, fun _ => rfl, fun _ m => m⟩
  case stage =>
    refine ⟨rfl, rfl, fun _ => rfl, fun _ m e he => ?_⟩
    rcases List.mem_append.1 he with he | he
    · exact m e he
    · rw [List.mem_singleton.1 he]
      exact stageWords_misses _ _

/-- What a GLB_COMMIT write after step 8 leaves to settle: its blocks strobed, and the write judged (R141, R149). -/
def State.strobed (s : State) (g : Nat) : State :=
  doneCheck (forList (byPosition (strobedInsts s g)) (strobeInst [s.commit.nextWrite])
    { s with commit := { s.commit with nextWrite := s.commit.nextWrite + 1 } }) s.commit.nextWrite

theorem doCommit_strobed {s : State} {g : Nat} (h0 : g ≠ 0) (hm : s.boot.mantled = true) : doCommit s g = settleAll (s.strobed g) := by
  unfold doCommit
  rw [if_neg h0, if_neg (by simp [hm])]
  rfl
/-- Before step 8 a write of GLB_COMMIT is held; one of no group does nothing (R119, R152). -/
theorem doCommit_not_strobed {s : State} {g : Nat} (h : g = 0 ∨ s.boot.mantled = false) :
    ∃ c, doCommit s g = { s with commit := c } := by
  unfold doCommit
  split
  · exact ⟨s.commit, rfl⟩
  · next h0 => exact ⟨_, if_pos (by simp [h.resolve_left h0])⟩

theorem strobed_eq (s : State) (g : Nat) : ∃ r c, s.strobed g = { s with regs := r, commit := c } := by
  obtain ⟨r, c, hi⟩ := strobeInsts_eq [s.commit.nextWrite] (byPosition (strobedInsts s g))
    { s with commit := { s.commit with nextWrite := s.commit.nextWrite + 1 } }
  obtain ⟨r', c', hd⟩ := doneCheck_eq { s with regs := r, commit := c } s.commit.nextWrite
  exact ⟨r', c', by rw [State.strobed, hi, ← hd]⟩
theorem strobed_settled {ok : Prop} (s : State) (g : Nat) : Settled ok s (s.strobed g) := by
  unfold State.strobed
  refine .trans ?_ (doneCheck_settled _ _)
  refine .trans ?_ (.of_forList (fun t i _ => strobeInst_settled _ t i) _)
  exact ⟨rfl, rfl, fun _ => rfl, fun _ m => m⟩

/-- A GLB_COMMIT write with nothing staged leaves STR_EVT. -/
theorem doCommit_reg_strEvt {s : State} (hs : s.commit.staged = []) (g : Nat) : (doCommit s g).reg 0x113 = s.reg 0x113 := by
  by_cases h : g = 0 ∨ s.boot.mantled = false
  · obtain ⟨c, e⟩ := doCommit_not_strobed h
    rw [e]
    rfl
  · simp only [not_or, Bool.not_eq_false] at h
    have strobed : Settled True s (s.strobed g) := strobed_settled s g
    have misses : (s.strobed g).stagedMiss := strobed.staged trivial fun e he => by simp [hs] at he
    rw [doCommit_strobed h.1 h.2]
    exact (strobed.trans (settleAll_settled fun _ => misses)).evt trivial

/-- Where no commit may apply, a GLB_COMMIT write leaves the shadow. -/
theorem doCommit_shad {s : State} (hr : commitsRun s = false) (g a : Nat) : (doCommit s g).shad a = s.shad a := by
  by_cases h : g = 0 ∨ s.boot.mantled = false
  · obtain ⟨c, e⟩ := doCommit_not_strobed h
    rw [e]
    rfl
  · simp only [not_or, Bool.not_eq_false] at h
    obtain ⟨r, c, e⟩ := strobed_eq s g
    rw [doCommit_strobed h.1 h.2, e, settleAll_of_held (show commitsRun { s with regs := r, commit := c } = false from hr)]
    rfl

/-! ## Hand-back (R72) -/

/-- The state that a hand-back strobes: the shadows put back, the timer stopped, the event set, the record made, HST_GEN counted. -/
def State.handedBack (s : State) : State :=
  let u := forList (strobedInsts s (s.fld 0x110 8 8)) (fun s i => forList (instAddrs i) putLayer s) s
  (journal ({ u with strap := { u.strap with handbackRun := false } }.setBit 0x113 1) 0x1B 0 [BitVec.ofNat 8 (s.fld 0x110 8 8)]).countWrap 0x409

theorem doHandback_eq (s : State) : ∃ st, doHandback s = { doCommit s.handedBack (s.fld 0x110 8 8) with strap := st } ∧ st.handbackRun = false :=
  ⟨_, rfl, rfl⟩

/-- The words that a hand-back puts back, one after the other. -/
def handbackWords (s : State) : List Nat := (strobedInsts s (s.fld 0x110 8 8)).flatMap instAddrs

theorem handedBack_eq (s : State) : ∃ sh, forList (handbackWords s) putLayer s = { s with shadow := sh } ∧ s.handedBack =
    (journal ({ s with shadow := sh, strap := { s.strap with handbackRun := false } }.setBit 0x113 1) 0x1B 0
      [BitVec.ofNat 8 (s.fld 0x110 8 8)]).countWrap 0x409 := by
  obtain ⟨sh, h⟩ := putLayers_eq (handbackWords s) s
  have nested : forList (strobedInsts s (s.fld 0x110 8 8)) (fun s i => forList (instAddrs i) putLayer s) s =
      forList (handbackWords s) putLayer s := (List.foldl_flatMap ..).symm
  refine ⟨sh, h, ?_⟩
  unfold State.handedBack
  rw [nested, h]

theorem handsBack {s : State} (hs : s.commit.staged = []) :
    (doHandback s).bit 0x113 1 = true ∧ (doHandback s).strap.handbackRun = false ∧
    (commitsRun s = false → ∀ j ∈ strobedInsts s (s.fld 0x110 8 8), ∀ a ∈ instAddrs j, shadHolds (doHandback s) a (layerWord s a)) := by
  obtain ⟨sh, hsh, hb⟩ := handedBack_eq s
  obtain ⟨st, hd, hst⟩ := doHandback_eq s
  rw [hd]
  refine ⟨?event, hst, fun hr j hj a ha => ?shadow⟩
  case event =>
    have staged : s.handedBack.commit.staged = [] := by rw [hb]; simpa using hs
    have set : s.handedBack.bit 0x113 1 = true := by
      rw [hb, State.bit, State.countWrap, State.reg_setReg, if_neg (by decide), journal_reg _ _ _ _ (by simp [recordWords])]
      exact State.bit_setBit_same _ _ _ _ (by decide)
    exact (congrArg (fun w => getF w 1 1 == 1) (doCommit_reg_strEvt staged _)).trans set
  case shadow =>
    have run : commitsRun s.handedBack = false := by rw [hb]; simpa [commitsRun] using hr
    have put : shadHolds (forList (handbackWords s) putLayer s) a (layerWord s a) :=
      putLayers_hold _ s a (.inl (List.mem_flatMap.2 ⟨j, hj, ha⟩))
    have kept : (doCommit s.handedBack (s.fld 0x110 8 8)).shad a = (forList (handbackWords s) putLayer s).shad a := by
      rw [doCommit_shad run, hb, hsh]
      simp [State.shad]
    exact (congrArg (· &&& accMask .rb a) kept).trans put

/-- Settles O35: the register interface's wrapper leaves `doMeasure` and `doHandback`; a measurement lands field by field in STR_MEAS
(`measureDone_lands`), and a hand-back puts the layer's words into the shadow before a strobe that settles nothing (`handsBack`). -/
theorem strapCommands : Obligations.StrapCommands := by
  intro s conv same r handsBack'
  have back {i : Instr} (hs : s.commit.staged = []) (e : exec i s = .next (doHandback s)) : handsBack' i :=
    ⟨_, e, handsBack hs⟩
  refine ⟨fun h => ?measure, fun h => ?unreached, fun h => measureDone_lands h conv, fun h => ?idle,
    fun hs _ => ⟨fun h => back hs ?strobe, fun h => back hs ?expiry⟩,
    fun h => ?stopped, fun h => ?twin, fun h => ?single⟩
  case measure => exact congrArg Host.Outcome.next (viaHost_reached h doMeasure)
  case unreached =>
    exact ⟨congrArg Host.Outcome.next (viaHost_unreached h doMeasure), congrArg Host.Outcome.next (viaHost_unreached h doHandback)⟩
  case idle => exact if_pos (by simp [h])
  case strobe => exact congrArg Host.Outcome.next (viaHost_reached h doHandback)
  case expiry => exact if_pos h
  case stopped => exact if_neg (by simp [h])
  case twin => exact if_pos h
  case single => exact if_neg (by simp [h])

end Sys2Proof.Machine
end

section
/-! PROOF. Start-up (O33): the steps of Table 4-6 over the frame, step by step. -/
namespace Sys2Proof.Machine

/-! ## Steps 4 to 7 -/

@[simp] theorem takeNonces_base (s : State) : (takeNonces s).base = s.base := by
  unfold takeNonces
  dsimp only
  exact base_forList (fun t k _ => by simp) s
@[simp] theorem putProvisional_base (s : State) : (putProvisional s).base = s.base := by simp [putProvisional]
@[simp] theorem putCodes_base (s : State) (aux : Nat) : (putCodes s aux).base = s.base := by
  unfold putCodes
  exact (State.base_update ((s.setReg 0x201 _).setShad 0x201 _) ..).trans (by simp)
@[simp] theorem attach_base (s : State) (f : MemFit) : (attach s f).base = s.base := rfl
@[simp] theorem identify_base (s : State) : (identify s).base = s.base := by
  unfold identify
  dsimp only
  rw [State.base_ite, State.base_setReg (by decide), State.base_setBit (by decide), ite_self]
  split <;> simp
@[simp] theorem startSys_base (s : State) (k : Nat) : (startSys s k).base = s.base := rfl
@[simp] theorem startSystem_base (s : State) : (startSystem s).base = s.base := base_forEach (fun t k _ => startSys_base t k) s

@[simp] theorem noSlot_base (s : State) : (noSlot s).base = s.base := by simp [noSlot]
@[simp] theorem useRing_base (s : State) (m slot base units : Nat) : (useRing s m slot base units).base = s.base := by simp [useRing]
@[simp] theorem setHead_base (s : State) (u i : Nat) : (setHead s u i).base = s.base := by simp [setHead]
@[simp] theorem takeScan_base (s : State) (t : Scan) : (takeScan s t).base = s.base := by
  unfold takeScan
  dsimp only
  rw [State.base_setReg (by decide), State.base_ite, State.base_setBit (by decide), ite_self, base_forList (fun t lo _ => by simp),
    State.base_setBit (by decide)]
  rfl
@[simp] theorem claimSlot_base (s : State) (m slot : Nat) : (claimSlot s m slot).base = s.base := by
  unfold claimSlot
  extract_lets r u hdr w
  exact (setHead_base _ 0 0).trans ((State.base_update u ..).trans (by simp [u]))
@[simp] theorem scanJournal_base (s : State) : (scanJournal s).base = s.base := by
  unfold scanJournal
  generalize (if s.bit 0x3001 1 then 2 else if flashJournal s then 1 else 0 : Nat) = m
  dsimp only
  split
  · simp
  · split
    · next slot base units _ =>
      generalize scanRing s m base units = r
      simp [↓State.base_update]
    · generalize hu : (if (m == 2 && flashJournal s) = true then _ else s) = u
      have found : u.base = s.base := by
        rw [← hu]
        split
        · split <;> simp
        · rfl
      split <;> simp [found]
@[simp] theorem startSeqs_base (s : State) : (startSeqs s).base = s.base := base_forEach (fun t c _ => by simp) s
@[simp] theorem loseStaged_base (s : State) : (loseStaged s).base = s.base := by
  unfold loseStaged
  dsimp only
  split
  · rfl
  · rw [base_forList (fun t e _ => by simp), base_forList (fun t e _ => by simp)]
    rfl
@[simp] theorem eraseFlash_base (s : State) (a n : Nat) : (eraseFlash s a n).base = s.base := rfl
@[simp] theorem putMemByte_base (s : State) (m a : Nat) (b : Byte) : (putMemByte s m a b).base = s.base := by
  unfold putMemByte
  split <;> rfl
@[simp] theorem putMem_base (s : State) (m a : Nat) (l : List Byte) : (putMem s m a l).base = s.base :=
  base_forList (fun t e _ => putMemByte_base t m _ e.1) s
@[simp] theorem settleClaim_base (s : State) : (settleClaim s).base = s.base := by
  unfold settleClaim
  split
  · rfl
  · split
    · rfl
    · split
      · simp [↓State.base_update]
      · split
        · rfl
        · simp [↓State.base_update]
@[simp] theorem chainCycle_base (s : State) (din : List Word) : (chainCycle s din).base = s.base := by
  unfold chainCycle chainDone
  dsimp only
  rw [State.base_setBit (by decide)]
  exact base_forEach (fun t k _ => State.base_setReg (by omega) t _) _
@[simp] theorem computeMantle_base (s : State) : (computeMantle s).base = s.base := rfl
@[simp] theorem beginAudit_base (s : State) (kind : Nat) : (beginAudit s kind).base = s.base := by
  unfold beginAudit doFull
  split
  · rfl
  · rw [State.base_setBit (by decide)]
    rfl

theorem settlePin_base (s : State) (k mv : Nat) : (settlePin s k mv).2.base = s.base := by
  unfold settlePin
  dsimp only
  split
  · simp
  · split
    · rfl
    · split
      · rfl
      · split <;> simp
theorem settlePins_base (s : State) (l : List Nat) : (settlePins s l).2.base = s.base :=
  List.foldlRecOn (motive := fun r : Nat × State => r.2.base = s.base) _ _ rfl fun (r : Nat × State) h k _ => (settlePin_base r.2 k _).trans h
theorem settleUnstable_base (s : State) : (settleUnstable s).2.base = s.base := by
  refine List.foldlRecOn (motive := fun r : Nat × State => r.2.base = s.base) _ _ rfl fun r h p _ => ?_
  split <;> simpa using h
theorem settleCodes_base (s : State) (aux : Nat) : (settleCodes s aux).2.base = s.base := by
  unfold settleCodes
  split
  · rfl
  · next l _ =>
    dsimp only
    generalize hu : List.foldl _ s (List.range 8) = u
    have records : u.base = s.base := by
      rw [← hu]
      refine List.foldlRecOn (motive := fun t : State => t.base = s.base) _ _ rfl fun t h p _ => ?_
      split
      · exact h
      · split <;> simpa using h
    split
    · exact records
    · split <;> simp [records]
@[simp] theorem decodeLevels_base (s : State) (lv : Nat) : (decodeLevels s lv).base = s.base := by simp [decodeLevels]
@[simp] theorem putReq_base (s : State) : (putReq s).base = s.base := by
  unfold putReq
  dsimp only
  split <;> simp
@[simp] theorem resolveChain_base (s : State) (a b : BitVec 256) : (resolveChain s a b).base = s.base := by
  unfold resolveChain
  extract_lets diff keep bits code len dis pre trl word s1 s2 s3 s4 s5
  have h1 : s1.base = s.base := base_forEach (fun t k hk => State.base_setReg (by omega) t _) s
  clear_value s1
  have h2 : s2.base = s.base := by simp [s2, h1]
  clear_value s2
  have h3 : s3.base = s.base := by simp [s3, h2]
  clear_value s3
  have h4 : s4.base = s.base := by simp [s4, h3]
  clear_value s4
  have h5 : s5.base = s.base := by simp [s5, h4]
  clear_value s5
  split
  · exact h5
  · simpa using h5
@[simp] theorem resolveStraps_base (s : State) (a b : BitVec 256) : (resolveStraps s a b).base = s.base := by
  unfold resolveStraps
  extract_lets old s1 r u x s2 s3 s4 s5 s6
  have settled : s2.base = s.base :=
    (settleCodes_base u.2 u.1).trans <| (settleUnstable_base r.2).trans <| (settlePins_base s1 _).trans (State.base_setBit (by decide) s _ _)
  have decoded : s6.base = s.base := by simp [s6, s5, s4, s3, settled]
  split
  · simpa using decoded
  · exact decoded

/-! ## The image -/

@[simp] theorem writeIram_base (s : State) (slot : Nat) (h : ImgHdr) : (writeIram s slot h).base = s.base := by
  refine base_forEach (fun t i _ => ?_) s
  exact (State.base_update (t.setReg (0xC000 + i) _) ..).trans (State.base_setReg (by omega) t _)
theorem loadSlot_base (b : Bool) (s : State) (slot : Nat) : (loadSlot b s slot).2.base = s.base := by
  unfold loadSlot
  split
  · rfl
  · dsimp only
    split
    · rfl
    · split
      · rfl
      · split_ifs <;> simp
theorem trySlots_base (b : Bool) (l : List Nat) (s : State) : (trySlots b l s).2.base = s.base := by
  induction l generalizing s with
  | nil => rfl
  | cons k t ih =>
    have e := loadSlot_base b s k
    unfold trySlots
    split
    · next h => rw [h] at e; exact e
    · next h => rw [h] at e; simpa [ih] using e
theorem loadImage_base (b : Bool) (s : State) (choice : Nat) : (loadImage b s choice).2.base = s.base := by
  unfold loadImage
  extract_lets l u
  have rejected : u.base = s.base := by simp [u]
  have e := trySlots_base b l u
  split
  · next h => rw [h] at e; simpa [rejected] using e
  · next h => rw [h] at e; simpa [rejected] using e
theorem ctxTable_base (s : State) (slot : Nat) : (ctxTable s slot).2.base = s.base := by
  unfold ctxTable
  split
  · rfl
  · refine List.foldlRecOn (motive := fun r : List (Nat × Word) × State => r.2.base = s.base) _ _ rfl fun r h i _ => ?_
    dsimp only
    split
    · exact h
    · split <;> simpa using h

/-! ## What each step changes -/

/-- What no application of a list's functions changes, the whole does not. -/
theorem forList_kept {α β : Type} {g : State → β} {f : State → α → State} (h : ∀ t a, g (f t a) = g t) (l : List α) (s : State) :
    g (forList l f s) = g s :=
  List.foldlRecOn (motive := fun t => g t = g s) _ _ rfl fun t e a _ => (h t a).trans e

theorem State.boot_of_base {s t : State} (h : t.base = s.base) : t.boot = s.boot := congrArg Base.boot h

/-! ### Faults -/

/-- A fault raised shows in SUP_STAT.FAULTS. -/
theorem raiseFault_bit (s : State) {c : Nat} (h : c ≤ 9) : (raiseFault s c).bit 0x300 (c - 1) = true := by
  have set : (((s.setBit 0x300 (c - 1)).setBit 0x301 (c - 1)).setBit 0x302 8).bit 0x300 (c - 1) = true := by
    rw [State.bit_setBit_word _ _ _ _ _ (by decide), State.bit_setBit_word _ _ _ _ _ (by decide)]
    exact State.bit_setBit_same _ _ _ _ (by omega)
  unfold raiseFault
  split
  · assumption
  · dsimp only
    split
    · exact (congrArg (· == 1) (State.fld_setFld_disjoint _ _ _ _ _ _ _ (.inr (by omega)))).trans set
    · exact set
/-- A fault cleared no longer shows there. -/
theorem clearFault_bit (s : State) {c : Nat} (h : c ≤ 9) : (clearFault s c).bit 0x300 (c - 1) = false := by
  have cleared : (s.setBit 0x300 (c - 1) false).bit 0x300 (c - 1) = false := State.bit_setBit_same _ _ _ _ (by omega)
  unfold clearFault
  dsimp only
  split
  · exact (congrArg (· == 1) (State.fld_setFld_disjoint _ _ _ _ _ _ _ (.inr (by omega)))).trans cleared
  · exact cleared

/-- A bit set in another word leaves a field. -/
theorem State.fld_setBit_other (s : State) (i : Nat) (v : Bool) {a b lo wd : Nat} (h : b ≠ a) : (s.setBit a i v).fld b lo wd = s.fld b lo wd :=
  State.fld_setFld_other s a i 1 _ lo wd h

/-! ### Steps 1 and 2: the straps (R38, R40, R42) -/

/-- Latching where every reading lies in a window: the readings stand, and no boundary flag. -/
theorem latchStraps_fields {s : State} (h : ∀ k, k < 6 → (levelOf ((s.strap.mv[k]?).getD 0)).isSome = true) :
    (latchStraps s).fld 0x101 16 12 = (s.strap.mv[0]?).getD 0 % 4096 ∧ (latchStraps s).fld 0x103 0 12 = (s.strap.mv[5]?).getD 0 % 4096 ∧
      (latchStraps s).fld 0x104 0 6 = 0 := by
  have bound : wordOfBits ((List.range 6).map (fun k => (levelOf ((s.strap.mv[k]?).getD 0)).isNone)) = 0 := by
    have none : ∀ k ∈ List.range 6, (levelOf ((s.strap.mv[k]?).getD 0)).isNone = false := fun k hk => by
      simpa [Option.isSome_iff_ne_none] using h k (List.mem_range.1 hk)
    rw [List.map_congr_left none]
    decide
  have keep (t : State) (b : Boot) (a lo wd : Nat) : State.fld { t with boot := b } a lo wd = t.fld a lo wd := rfl
  unfold latchStraps
  simp only [keep, bound]
  refine ⟨?a, ?f, ?flags⟩
  case a =>
    iterate 2 rw [State.fld_setBit_other _ _ _ (by decide)]
    iterate 5 rw [State.fld_setFld_other _ _ _ _ _ _ _ (by decide)]
    rw [State.fld_setFld_disjoint _ _ _ _ _ _ _ (.inl (by decide))]
    exact State.fld_setFld_same _ _ _ _ _ (by decide)
  case f =>
    iterate 2 rw [State.fld_setBit_other _ _ _ (by decide)]
    rw [State.fld_setFld_other _ _ _ _ _ _ _ (by decide)]
    exact State.fld_setFld_same _ _ _ _ _ (by decide)
  case flags =>
    iterate 2 rw [State.setBit, State.fld_setFld_disjoint _ _ _ _ _ _ _ (.inr (by decide))]
    exact State.fld_setFld_same _ _ _ _ _ (by decide)

/-- The AUX bits after the sixth slot: four samples of six decide. -/
theorem auxLatch_bit (samples : List (BitVec 8)) {p : Nat} (h : p < 8) :
    (auxLatch samples).1.testBit p = decide (4 ≤ (samples.filter (fun w => w.getLsbD p)).length) := by
  rw [auxLatch, testBit_wordOfBits]
  simp [h, auxSettle]

/-- The reading of the slot's pin taken, and the next AUX sample. -/
def State.sampled (s : State) (conv : Conversions) (aux : BitVec 8) : State :=
  { s with strap := { s.strap with
      mv := listSet s.strap.mv s.strap.slot (meanOf conv), slot := s.strap.slot + 1, auxSamples := s.strap.auxSamples ++ [aux], auxPins := aux } }
/-- The sixth reading taken with every one in a window: the AUX bits are settled and no pin is measured again. -/
def State.settledAux (s : State) (conv : Conversions) : State :=
  { s with strap := { s.strap with
      mv := listSet s.strap.mv 5 (meanOf conv), slot := 6, aux := (auxLatch s.strap.auxSamples).1, auxUnst := (auxLatch s.strap.auxSamples).2,
      again := [] } }
/-- Pin `k` measured a second time; `l` are the pins still to be. -/
def State.measuredAgain (s : State) (k : Nat) (l : List Nat) (conv : Conversions) : State :=
  { s with strap := { s.strap with mv := listSet s.strap.mv k (meanOf conv), again := l } }

section
variable {s : State} (hs : s.boot.started = true) (hu : s.boot.strapped = false) (hf : s.boot.factory = false) (conv : Conversions) (aux : BitVec 8)
include hs hu hf

theorem strapSlotEnd_sample (h : s.strap.slot < 5) : execStrapSlotEnd conv aux s = .next (s.sampled conv aux) := by
  unfold execStrapSlotEnd
  rw [if_neg (by simp [hs, hu, hf])]
  dsimp only
  rw [if_pos (by omega), if_pos h]
  rfl
theorem strapSlotEnd_sixth (h : s.strap.slot = 5)
    (win : ∀ k, k < 6 → (levelOf (((listSet s.strap.mv 5 (meanOf conv))[k]?).getD 0)).isSome = true) :
    execStrapSlotEnd conv aux s = .next (latchStraps (s.settledAux conv)) := by
  have none : (List.range 6).filter (fun k => (levelOf (((listSet s.strap.mv 5 (meanOf conv))[k]?).getD 0)).isNone) = [] :=
    List.filter_eq_nil_iff.2 fun k hk => by simpa [Option.isSome_iff_ne_none] using win k (List.mem_range.1 hk)
  unfold execStrapSlotEnd
  rw [if_neg (by simp [hs, hu, hf])]
  dsimp only
  rw [if_pos (by omega), if_neg (by omega), h, none]
  rfl
theorem strapSlotEnd_again {k : Nat} {l : List Nat} (h : s.strap.slot = 6) (ha : s.strap.again = k :: l) :
    execStrapSlotEnd conv aux s = .next (if l.isEmpty then latchStraps (s.measuredAgain k l conv) else s.measuredAgain k l conv) := by
  unfold execStrapSlotEnd
  rw [if_neg (by simp [hs, hu, hf])]
  dsimp only
  rw [if_neg (by omega), ha]
  rfl
end

/-! ### Steps 3 and 4: ROOT and the lock (R100, R101, R104, R118) -/

/-- ROOT_START_RETRY under its condition. -/
theorem rootStartRetry_lands {s : State} (hs : s.boot.started = true) (hu : s.boot.hostUp = false) : ∃ t, execRootStartRetry s = .next t ∧
    t.boot = { s.boot with retrying := true, retries := s.boot.retries + 1 } ∧ t.bit 0x200 0 = false ∧ t.bit 0x300 0 = true := by
  refine ⟨_, if_pos (by simp [hs, hu]), raiseFault_boot _ 1, ?root, raiseFault_bit _ (c := 1) (by decide)⟩
  rw [State.bit, raiseFault_reg _ _ (by decide)]
  change State.bit _ 0x200 0 = false
  rw [State.bit_setBit_other _ _ _ _ _ (by decide), State.bit_setBit_same _ _ _ _ (by decide)]

@[simp] theorem takeNonces_regs (s : State) : (takeNonces s).regs = s.regs := by
  unfold takeNonces
  dsimp only
  exact forList_kept (g := State.regs) (fun _ _ => by rfl) _ s
@[simp] theorem startSystem_regs (s : State) : (startSystem s).regs = s.regs :=
  forList_kept (g := State.regs) (f := startSys) (fun _ _ => rfl) _ s
theorem identify_reg (s : State) {a : Nat} (h : a < 0x3001) : (identify s).reg a = s.reg a := by
  have other {t : State} {b i : Nat} {v : Bool} (hb : 0x3001 ≤ b) : (t.setBit b i v).reg a = t.reg a :=
    State.reg_setBit_other _ _ _ _ (by omega)
  have word {t : State} {b : Nat} {w : Word} (hb : 0x3001 ≤ b) : (t.setReg b w).reg a = t.reg a := by
    rw [State.reg_setReg, if_neg (by omega)]
  unfold identify
  extract_lets e id n flash first fram u
  clear_value flash
  have hu : u.reg a = s.reg a := by
    rcases flash with _ | ⟨d, p, op, sf, su⟩
    · rfl
    · exact (word (by decide)).trans <| (word (by decide)).trans <| (other (by decide)).trans <| (other (by decide)).trans (other (by decide))
  split
  · rw [word (by decide), other (by decide), hu]
  · exact hu

/-- What step 4 brings up once the PLL is locked: the group codes, the provisional settings, the nonces, the memories, the system contexts. -/
def bringUp (fit : Option MemFit) (s : State) : State :=
  let s := takeNonces (putProvisional (putCodes s s.strap.aux))
  let s := match fit with | some f => attach s f | none => s
  startSystem (identify s)

theorem bringUp_base (fit : Option MemFit) (s : State) : (bringUp fit s).base = s.base := by
  unfold bringUp
  cases fit <;> simp
/-- Step 4 leaves the clock and fault words. -/
theorem bringUp_reg (fit : Option MemFit) (s : State) {a : Nat} (h : a < 0x3001) (h1 : a ≠ 0x105) (h2 : a ≠ 0x201) (h3 : a ≠ 0x2400) :
    (bringUp fit s).reg a = s.reg a := by
  have words : (takeNonces (putProvisional (putCodes s s.strap.aux))).reg a = s.reg a := by
    rw [State.reg, takeNonces_regs]
    change (putProvisional (putCodes s s.strap.aux)).reg a = _
    unfold putProvisional
    rw [State.reg_setBit_other _ _ _ _ h3, State.reg_setFld_other _ _ _ _ _ h1]
    exact (State.reg_setReg s 0x201 a _).trans (if_neg h2)
  unfold bringUp
  rw [State.reg, startSystem_regs]
  change (identify _).reg a = _
  rw [identify_reg _ h]
  cases fit <;> exact words

/-- A system context started waits. -/
theorem startSys_st (s : State) (k : Nat) : ((startSys s k).ctx (64 + k)).st = .wait := by
  unfold startSys
  rw [ctx_setCtx_same]
  rfl
theorem startSys_ctx_other (s : State) (k : Nat) {x : Nat} (h : x ≠ 64 + k) : (startSys s k).ctx x = s.ctx x := ctx_setCtx_other _ _ _ h
/-- So do all of them at the end of step 4. -/
theorem startSystem_st (s : State) {k : Nat} (h : k < 8) : ((startSystem s).ctx (64 + k)).st = .wait := by
  have started (n : Nat) (hk : k < n) : ((forEach n startSys s).ctx (64 + k)).st = .wait := by
    induction n with
    | zero => omega
    | succ n ih =>
      have last : forEach (n + 1) startSys s = startSys (forEach n startSys s) n := by simp [forEach, List.range_succ]
      rw [last]
      by_cases e : k = n
      · rw [e, startSys_st]
      · rw [startSys_ctx_other _ _ (by omega)]
        exact ih (by omega)
  exact started 8 h

/-- PLL_LOCKED in its turn. -/
theorem pllLocked_lands {s : State} (hw : s.power.waking = false)
    (hup : (s.boot.started && s.boot.strapped && s.bit 0x200 0 && !s.boot.hostUp) = true)
    (fit : Option MemFit) : ∃ t, execPllLocked fit s = .next t ∧ t.boot = { s.boot with hostUp := true, memUp := true, retrying := false } ∧
      t.bit 0x200 1 = true ∧ t.bit 0x300 0 = false ∧ ∀ k, k < 8 → (t.ctx (64 + k)).st = .wait := by
  let u := clearFault (s.setBit 0x200 1) 1
  have e : execPllLocked fit s = .next (bringUp fit { u with boot := { u.boot with hostUp := true, memUp := true, retrying := false } }) := by
    unfold execPllLocked
    rw [if_neg (by simp [hw]), if_neg (by simp [hup])]
    rfl
  refine ⟨_, e, ?boot, ?locked, ?fault, fun k hk => startSystem_st _ hk⟩
  case boot =>
    rw [State.boot_of_base (bringUp_base _ _)]
    simp [u]
  case locked =>
    rw [State.bit, bringUp_reg _ _ (by decide) (by decide) (by decide) (by decide)]
    change (clearFault (s.setBit 0x200 1) 1).bit 0x200 1 = true
    rw [State.bit, clearFault_reg _ _ (by decide)]
    exact State.bit_setBit_same _ _ _ _ (by decide)
  case fault =>
    rw [State.bit, bringUp_reg _ _ (by decide) (by decide) (by decide) (by decide)]
    exact clearFault_bit _ (c := 1) (by decide)

/-! ### Steps 5 to 7: the scan and the image (R118, R325) -/

/-- JOURNAL_BOOT_SCAN in its turn. -/
theorem journalBootScan_lands {s : State} (hm : s.boot.memUp = true) (hs : s.boot.scanned = false) (a b : BitVec 256) :
    ∃ t, execJournalBootScan a b s = .next t ∧ t.boot = { s.boot with scanned := true } := by
  unfold execJournalBootScan
  rw [if_neg (by simp [hm, hs])]
  extract_lets s1 boot1 s2 s3 s4 s5 s6
  have h2 : s2.boot = { s.boot with scanned := true } :=
    (State.boot_of_base (by simp [s2] : s2.base = State.base { s1 with boot := { boot1 with scanned := true } })).trans <|
      congrArg (fun b : Boot => { b with scanned := true }) (State.boot_of_base (scanJournal_base s))
  clear_value s2
  have h3 : s3.base = s2.base := by simp [s3]
  clear_value s3
  have h4 : s4.base = s2.base := by simp [s4, h3]
  clear_value s4
  have h5 : s5.base = s2.base := by simp [s5, h4]
  clear_value s5
  have h6 : s6.base = s2.base := by simp [s6, h5]
  clear_value s6
  exact ⟨_, rfl, (State.boot_of_base (by simp [h6])).trans h2⟩

/-- IMAGE_LOAD in its turn; without a flash it only takes its step. -/
theorem imageLoad_lands {s : State} (hs : s.boot.scanned = true) (hi : s.boot.imaged = false) : ∃ t, execImageLoad s = .next t ∧
    t.boot = { s.boot with imaged := true } ∧ (s.bit 0x3001 0 = false → t = { s with boot := { s.boot with imaged := true } }) := by
  unfold execImageLoad
  rw [if_neg (by simp [hs, hi])]
  extract_lets boot0 u
  have bit : u.bit 0x3001 0 = s.bit 0x3001 0 := rfl
  split
  · exact ⟨u, rfl, rfl, fun _ => rfl⟩
  · next flash =>
    have loaded := loadImage_base true u 0
    have some' : ¬ s.bit 0x3001 0 = false := by simpa [bit] using flash
    split
    · next k v e =>
      rw [e] at loaded
      exact ⟨_, rfl, (State.boot_of_base ((ctxTable_base v k).trans loaded) :), fun h => absurd h some'⟩
    · next v e =>
      rw [e] at loaded
      exact ⟨_, rfl, State.boot_of_base loaded, fun h => absurd h some'⟩

/-! ### Step 8: the Mantle layer (R117, R119) -/

@[simp] theorem mantleRecords_base (s : State) : (mantleRecords s).base = s.base := by
  unfold mantleRecords
  extract_lets prof want s1 withKey taken s2 s3
  have h1 : s1.base = s.base := by simp [s1]
  clear_value s1
  have h2 : s2.base = s.base := by
    have keyed : withKey.base = s.base := by simp [withKey, h1]
    simp only [s2]
    split
    · exact h1
    · simp [keyed]
  clear_value s2
  have h3 : s3.base = s.base := (base_forEach (fun t n _ => by simp) s2).trans h2
  split
  · exact h2
  · refine (base_forEach (fun t c _ => ?_) s3).trans h3
    split <;> simp
@[simp] theorem putMantle_boot (s : State) : (putMantle s).boot = s.boot := forList_kept (g := State.boot) (fun _ _ => by rfl) _ s
@[simp] theorem mantleRun_base (s : State) (c : Nat) : (mantleRun s c).base = s.base := by simp [mantleRun]
@[simp] theorem startGroups_base (s : State) : (startGroups s).base = s.base := base_forEach (fun t g _ => by simp) s
@[simp] theorem putCts_base (s : State) : (putCts s).base = s.base := base_forEach (fun t n _ => by simp) s

/-- A held commit staged settles nothing else. -/
theorem stageHeld_settled (s : State) (h : HeldCommit) : Settled False s (stageHeld s h) := by
  unfold stageHeld
  dsimp only
  refine .trans ?_ (doneCheck_settled _ _)
  refine .trans (t := { s with commit := { s.commit with nextWrite := s.commit.nextWrite + 1 } }) ⟨rfl, rfl, fun _ => rfl, fun _ m => m⟩ ?_
  refine .of_forList (fun t p _ => ?_) _
  exact .ite (fun _ => .refl t) fun _ => ⟨rfl, rfl, fun _ => rfl, fun no => no.elim⟩

/-- MANTLE_APPLY in its turn. -/
theorem mantleApply_lands {s : State}
    (h : (s.boot.imaged && !s.boot.mantled && (!s.boot.brownout || s.boot.audited) && !s.power.relock) = true) :
    ∃ t, execMantleApply s = .next t ∧ t.boot = { s.boot with mantled := true } ∧ t.commit.held = [] := by
  unfold execMantleApply
  rw [if_neg (by simp [h])]
  extract_lets s1 held prof boot1 strap1 s2 commit2 s3 s4 s5
  have laid : s1.boot = s.boot := (putMantle_boot _).trans (State.boot_of_base (mantleRecords_base s))
  have boot3 : s3.boot = { s.boot with mantled := true } := congrArg (fun b : Boot => { b with mantled := true }) laid
  have held3 : s3.commit.held = [] := rfl
  clear_value s3
  have h4 : s4.base = s3.base := by
    simp only [s4, putCts_base, startGroups_base]
    exact base_forEach (fun t c _ => mantleRun_base t c) s3
  clear_value s4
  have h5 : s5.base = s3.base := by simp [s5, h4]
  clear_value s5
  have settled : Settled False s3 (settleAll (forList held stageHeld (watchPool s5))) :=
    (Settled.of_base ((watchPool_base s5).trans h5)).trans <|
      (Settled.of_forList (fun t c _ => stageHeld_settled t c) _).trans (settleAll_settled fun no => no.elim)
  exact ⟨_, rfl, settled.boot.trans boot3, settled.held.trans held3⟩

/-! ### Step 9: live ports (R118, R548) -/

@[simp] theorem pglAddr_ne (n : Nat) : pglAddr n ≠ 0x113 := by unfold pglAddr; omega
@[simp] theorem writeLkg_base (s : State) : (writeLkg s).base = s.base := by
  unfold writeLkg
  split
  · rw [State.base_setReg (by decide)]
    exact journalStruct_base _ _ _ _
  · rfl

/-- PORTS_LIVE in its turn. -/
theorem portsLive_lands {s : State} (hm : s.boot.mantled = true) (hl : s.boot.live = false) (hr : s.power.relock = false) :
    ∃ t, execPortsLive s = .next t ∧ t.boot = { s.boot with live := true } ∧ t.hold.runMarker = true ∧ t.hold.outage = false ∧
      t.sup.wdRun = true := by
  unfold execPortsLive
  rw [if_neg (by simp [hm, hl, hr])]
  extract_lets hold0 boot0 commit0 sup0 s1 s2 s3 s4 s5
  have boot1 : s1.boot = { s.boot with live := true } := rfl
  have marker1 : s1.hold.runMarker = true := rfl
  have outage1 : s1.hold.outage = false := rfl
  have wd1 : s1.sup.wdRun = true := rfl
  clear_value s1
  have h2 : s2.base = s1.base := base_forEach (fun t c _ => by simp) s1
  clear_value s2
  have h3 : s3.base = s1.base := by simp [s3, h2]
  clear_value s3
  have h4 : s4.base = s1.base := by simp [s4, h3]
  clear_value s4
  have h5 : s5.base = s1.base := (base_forEach (fun t n _ => by simp) s4).trans h4
  clear_value s5
  obtain ⟨hb, -, hrun, hout, hwd, -⟩ := Base.mk.inj ((journal_base _ _ _ _).trans <| (writeLkg_base s5).trans h5)
  exact ⟨_, rfl, hb.trans boot1, hrun.trans marker1, hout.trans outage1, hwd.trans wd1⟩

/-- Settles O33: each step's function under its condition is one of the lemmas above, and out of turn its guard leaves the state. -/
theorem startUpSteps : Obligations.StartUpSteps := by
  intro s tm aux conv a b err fit mvs tick same up layer
  refine ⟨fun h1 h2 h3 => ?release, fun h => ?noRelease,
    fun h1 h2 h3 => ⟨fun h => strapSlotEnd_sample h1 h2 h3 conv aux h, fun h win => ?sixth, fun k l h6 ha => ?again⟩, fun h => ?noSlot,
    fun h1 h2 => ?valid, fun h => ?noValid, rootStartRetry_lands, fun h => ?noRetry,
    fun h => if_pos h, fun h1 h2 => pllLocked_lands h1 h2 fit, fun h1 h2 => ?noLock,
    fun h1 h2 => journalBootScan_lands h1 h2 a b, fun h => ?noScan, imageLoad_lands, fun h => ?noImage,
    mantleApply_lands, fun h => ?noLayer, portsLive_lands, fun h => ?noPorts,
    fun h => ⟨fun hi => ?inTime, fun hi hv => ?toTime, fun hi hv => ?lost⟩, fun h => ?toHold⟩
  case release =>
    refine ⟨_, if_neg (by simp [h1, h2, h3]), ?_⟩
    cases tm <;> exact ⟨rfl, rfl, rfl⟩
  case noRelease => exact if_pos (by rcases h with h | h | h <;> simp [h])
  case sixth =>
    have e : exec (.strapSlotEnd conv aux) s = _ := strapSlotEnd_sixth h1 h2 h3 conv aux h win
    obtain ⟨ha, hf, hb⟩ := latchStraps_fields (s := s.settledAux conv) win
    exact ⟨_, e, rfl, ha, hf, hb, fun p hp => auxLatch_bit _ hp⟩
  case again =>
    have e : exec (.strapSlotEnd conv aux) s = _ := strapSlotEnd_again h1 h2 h3 conv aux h6 ha
    have unlatched : s.boot = { s.boot with strapped := false } := by rw [← h2]
    refine ⟨_, e, ?_⟩
    cases l with
    | nil => exact ⟨rfl, rfl⟩
    | cons j t => exact ⟨rfl, unlatched⟩
  case noSlot => exact if_pos (by rcases h with h | h | h <;> simp [h])
  case valid =>
    refine ⟨_, if_pos ?_, rfl, State.bit_setBit_same _ _ _ _ (by decide), fun r hr => State.reg_setBit_other _ _ _ _ hr⟩
    rcases h2 with h | h <;> simp [h1, h]
  case noValid => exact if_neg (by rcases h with h | ⟨h, k⟩ <;> simp [*])
  case noRetry => exact if_neg (by rcases h with h | h <;> simp [h])
  case noLock => exact (if_neg (by simp [h1])).trans (if_pos (show (!up) = true by simp [h2]))
  case noScan => exact if_pos (by rcases h with h | h <;> simp [h])
  case noImage => exact if_pos (by rcases h with h | h <;> simp [h])
  case noLayer => exact if_pos (show (!layer) = true by simp [h])
  case noPorts => exact if_pos (by rcases h with h | h | h <;> simp [h])
  case inTime => exact (if_pos h).trans (if_pos hi)
  case toTime => exact ⟨_, (if_pos h).trans ((if_neg (by simp [hi])).trans (if_pos hv)), rfl, rfl⟩
  case lost => exact ⟨_, (if_pos h).trans ((if_neg (by simp [hi])).trans (if_neg (by simp [hv]))), rfl, rfl, rfl, rfl, rfl⟩
  case toHold => exact ⟨_, if_neg (by simp [h]), rfl, rfl, rfl⟩

end Sys2Proof.Machine
end

section
/-! PROOF. How far start-up has come (O60): the stage of a state, the changes that leave it, and commands that
leave it or keep the order of Table 4-6. -/
namespace Sys2Proof.Machine

/-- How far start-up has come, and what it rests on: the progress of Table 4-6, the power-on release, and the supply's level. -/
def State.stage (s : State) : Boot × Bool × Bool := (s.boot, s.power.released, s.power.low)

/-- A change of any other field leaves the stage. -/
theorem State.stage_update (s : State) (pending chip fresh hold ext strap regs shadow commit cells circs ports ctxs outQ credits ctlWait fab canA
    canB tim pool sup jnl mem jwrite host mbx seq) :
    State.stage ⟨pending, chip, fresh, hold, ext, s.power, s.boot, strap, regs, shadow, commit, cells, circs, ports, ctxs, outQ, credits,
      ctlWait, fab, canA, canB, tim, pool, sup, jnl, mem, jwrite, host, mbx, seq⟩ = s.stage := by
  simp only [State.stage]

/-- So does a change of the power state that keeps the release and the supply's level. -/
theorem State.stage_power (s : State) (pending chip fresh hold ext) (p : Power) (strap regs shadow commit cells circs ports ctxs outQ credits
    ctlWait fab canA canB tim pool sup jnl mem jwrite host mbx seq) (hr : p.released = s.power.released) (hl : p.low = s.power.low) :
    State.stage ⟨pending, chip, fresh, hold, ext, p, s.boot, strap, regs, shadow, commit, cells, circs, ports, ctxs, outQ, credits,
      ctlWait, fab, canA, canB, tim, pool, sup, jnl, mem, jwrite, host, mbx, seq⟩ = s.stage := by
  simp [State.stage, hr, hl]

@[simp] theorem State.stage_ite (c : Prop) [Decidable c] (s t : State) :
    (if c then s else t).stage = if c then s.stage else t.stage := apply_ite _ _ _ _
@[simp] theorem stage_forList {α : Type} {f : State → α → State} (h : ∀ t a, (f t a).stage = t.stage) (l : List α) (s : State) :
    (forList l f s).stage = s.stage := forList_kept h l s
@[simp] theorem stage_forEach {f : State → Nat → State} (h : ∀ t a, (f t a).stage = t.stage) (n : Nat) (s : State) :
    (forEach n f s).stage = s.stage := stage_forList h _ s
@[simp] theorem stage_foldl {α : Type} {f : State → α → State} (h : ∀ t a, (f t a).stage = t.stage) (l : List α) (s : State) :
    (l.foldl f s).stage = s.stage := stage_forList h _ s

/-- The command goes on, and leaves how far start-up has come. -/
def Stays (s : State) (r : Res) : Prop := ∃ t, r = .next t ∧ t.stage = s.stage
@[simp] theorem stays_next (s t : State) : Stays s (.next t) ↔ t.stage = s.stage := by simp [Stays]
theorem Stays.ite {c : Prop} [Decidable c] {s : State} {a b : Res} (h : Stays s a) (k : Stays s b) : Stays s (if c then a else b) := by
  split <;> assumption
@[simp] theorem stays_ite {c : Prop} [Decidable c] {s : State} {a b : Res} :
    Stays s (if c then a else b) ↔ (c → Stays s a) ∧ (¬ c → Stays s b) := by
  split <;> simp [*]

/-- What a pair holds as its state. -/
theorem stage_of_snd {α : Type} {p : α × State} {a : α} {t : State} (h : p = (a, t)) : t.stage = p.2.stage := h ▸ rfl
/-- What a triple holds as its state. -/
theorem stage_of_trd {α β : Type} {p : α × β × State} {a : α} {b : β} {t : State} (h : p = (a, b, t)) : t.stage = p.2.2.stage := h ▸ rfl

theorem State.startUpOrder_of_stage {s t : State} (h : t.stage = s.stage) (hs : s.startUpOrder) : t.startUpOrder := by
  obtain ⟨hb, hr, hl⟩ : t.boot = s.boot ∧ t.power.released = s.power.released ∧ t.power.low = s.power.low := by simpa [State.stage] using h
  simpa only [State.startUpOrder, hb, hr, hl] using hs

/-- The command goes on, and keeps the order of start-up. -/
def Keeps (s : State) (r : Res) : Prop := ∃ t, r = .next t ∧ (s.startUpOrder → t.startUpOrder)
theorem Keeps.next {s t : State} (h : s.startUpOrder → t.startUpOrder) : Keeps s (.next t) := ⟨t, rfl, h⟩
theorem Keeps.ite {c : Prop} [Decidable c] {s : State} {a b : Res} (h : c → Keeps s a) (k : ¬ c → Keeps s b) : Keeps s (if c then a else b) :=
  iteInduction h k
theorem Stays.keeps {s : State} {r : Res} (h : Stays s r) : Keeps s r := h.imp fun _ ⟨e, k⟩ => ⟨e, State.startUpOrder_of_stage k⟩
theorem Keeps.next_state {s : State} {r : Res} (h : Keeps s r) : ∃ t, r = .next t := h.imp fun _ => And.left
theorem Keeps.kept {s t : State} {r : Res} (h : Keeps s r) (hs : s.startUpOrder) (e : r = .next t) : t.startUpOrder := by
  obtain ⟨u, hu, kept⟩ := h
  obtain rfl : u = t := by simpa [hu] using e
  exact kept hs

end Sys2Proof.Machine
end

section
/-! PROOF. The functions of Sys2Proof/Machine/Ops.lean leave the stage (O60). -/
namespace Sys2Proof.Machine

@[simp] theorem setReg_stage (s : State) (a : Nat) (w : Word) : (s.setReg a w).stage = s.stage := by
  simp [State.setReg, ↓State.stage_update]
@[simp] theorem setShad_stage (s : State) (a : Nat) (w : Word) : (s.setShad a w).stage = s.stage := by
  simp [State.setShad, ↓State.stage_update]
@[simp] theorem setFld_stage (s : State) (a lo wd v : Nat) : (s.setFld a lo wd v).stage = s.stage := by simp [State.setFld]
@[simp] theorem setBit_stage (s : State) (a i : Nat) (b : Bool) : (s.setBit a i b).stage = s.stage := by simp [State.setBit]
@[simp] theorem count_stage (s : State) (a lo wd : Nat) : (s.count a lo wd).stage = s.stage := by simp [State.count]
@[simp] theorem countBy_stage (s : State) (a lo wd n : Nat) : (s.countBy a lo wd n).stage = s.stage := by simp [State.countBy]
@[simp] theorem countWrap_stage (s : State) (a : Nat) : (s.countWrap a).stage = s.stage := by simp [State.countWrap]
@[simp] theorem viaHost_stage {f : State → State} (h : ∀ t, (f t).stage = t.stage) (s : State) : (viaHost s f).stage = s.stage := by
  simp [viaHost, h]
@[simp] theorem setCell_stage (s : State) (i : Nat) (c : Cell) : (s.setCell i c).stage = s.stage := by
  simp [State.setCell, ↓State.stage_update]
@[simp] theorem setCirc_stage (s : State) (c : Nat) (x : Circ) : (s.setCirc c x).stage = s.stage := by
  simp [State.setCirc, ↓State.stage_update]
@[simp] theorem setPort_stage (s : State) (n : Nat) (p : Port) : (s.setPort n p).stage = s.stage := by
  simp [State.setPort, ↓State.stage_update]
@[simp] theorem setCtx_stage (s : State) (x : Nat) (c : Ctx) : (s.setCtx x c).stage = s.stage := by
  simp [State.setCtx, ↓State.stage_update]
@[simp] theorem allocSys_stage (s : State) (u : SysUse) : (allocSys s u).2.stage = s.stage := by
  unfold allocSys
  split <;> simp [↓State.stage_update]
@[simp] theorem loseRecord_stage (s : State) : (loseRecord s).stage = s.stage := by simp [loseRecord]
@[simp] theorem stageRecord_stage (s : State) (r : JRec) : (stageRecord s r).stage = s.stage := by
  unfold stageRecord
  split
  · simp
  · split <;> (next h => simp [↓State.stage_update, stage_of_snd h])
@[simp] theorem journalStruct_stage (s : State) (typ source : Nat) (payload : List Byte) :
    (journalStruct s typ source payload).stage = s.stage := by
  simp [journalStruct]
@[simp] theorem journal_stage (s : State) (typ source : Nat) (payload : List Byte) : (journal s typ source payload).stage = s.stage := by
  unfold journal
  split
  · simp
  · split
    · simp
    · simp [↓State.stage_update]
@[simp] theorem showFault_stage (s : State) : (showFault s).stage = s.stage := by simp [showFault]
@[simp] theorem raiseFault_stage (s : State) (code : Nat) : (raiseFault s code).stage = s.stage := by simp [raiseFault]
@[simp] theorem clearFault_stage (s : State) (code : Nat) : (clearFault s code).stage = s.stage := by simp [clearFault]
@[simp] theorem putFault_stage (s : State) (code : Nat) (on : Bool) : (putFault s code on).stage = s.stage := by simp [putFault]
@[simp] theorem setQuality_stage (s : State) (q : Quality) : (setQuality s q).stage = s.stage := by simp [setQuality, ↓State.stage_update]

end Sys2Proof.Machine
end

section
/-! PROOF. The functions of Sys2Proof/Machine/Regs.lean leave the stage (O60). -/
namespace Sys2Proof.Machine

@[simp] theorem noteClamp_stage (s : State) (a : Nat) : (noteClamp s a).stage = s.stage := by simp [noteClamp]
@[simp] theorem markHost_stage (s : State) (a : Nat) (mask : Word) : (markHost s a mask).stage = s.stage := by
  simp [markHost, ↓State.stage_update]
@[simp] theorem writeRW_stage (s : State) (a : Nat) (w mask : Word) : (writeRW s a w mask).stage = s.stage := by simp [writeRW]
@[simp] theorem strobeInst_stage (ws : List Nat) (s : State) (i : Inst) : (strobeInst ws s i).stage = s.stage := by
  simp [strobeInst, ↓State.stage_update]
@[simp] theorem doneCheck_stage (s : State) (w : Nat) : (doneCheck s w).stage = s.stage := by simp [doneCheck, ↓State.stage_update]
@[simp] theorem holdCommit_stage (s : State) (groups : Nat) : (holdCommit s groups).stage = s.stage := by
  simp [holdCommit, ↓State.stage_update]
@[simp] theorem putWords_stage (s : State) (l : List (Nat × Word × Word)) : (putWords s l).stage = s.stage := by simp [putWords]

end Sys2Proof.Machine
end

section
/-! PROOF. The functions of Sys2Proof/Machine/Cells.lean leave the stage (O60). -/
namespace Sys2Proof.Machine

@[simp] theorem setCan_stage (s : State) (ch : Nat) (x : Can) : (s.setCan ch x).stage = s.stage := by
  simp [State.setCan, ↓State.stage_update]
@[simp] theorem modCan_stage (s : State) (ch : Nat) (f : Can → Can) : (modCan s ch f).stage = s.stage := by simp [modCan]
@[simp] theorem setObj_stage (s : State) (ch i : Nat) (o : CanObj) : (s.setObj ch i o).stage = s.stage := by simp [State.setObj]
@[simp] theorem watchPool_stage (s : State) : (watchPool s).stage = s.stage := by simp [watchPool, ↓State.stage_update]
@[simp] theorem ctxEvent_stage (s : State) (x bit : Nat) : (ctxEvent s x bit).stage = s.stage := by simp [ctxEvent]
@[simp] theorem stallWatch_stage (s : State) (c : Nat) : (stallWatch s c).stage = s.stage := by simp [stallWatch]
@[simp] theorem rtsWatch_stage (s : State) (n : Nat) : (rtsWatch s n).stage = s.stage := by simp [rtsWatch]
@[simp] theorem flowOff_stage (s : State) (n : Nat) : (flowOff s n).stage = s.stage := by simp [flowOff]
@[simp] theorem flowOn_stage (s : State) (n : Nat) : (flowOn s n).stage = s.stage := by simp [flowOn]
@[simp] theorem flowWatch_stage (s : State) (c : Nat) (alloc : Bool) : (flowWatch s c alloc).stage = s.stage := by simp [flowWatch]
@[simp] theorem allocCirc_stage (s : State) (c : Nat) (b : Bool) (o : Nat) (h : Holder) : (allocCirc s c b o h).2.stage = s.stage := by
  unfold allocCirc
  split <;> simp [↓State.stage_update]
theorem queueCtl_stage {s t : State} {p : Pkt} {k : Option Nat} (h : queueCtl s p k = some t) : t.stage = s.stage := by
  unfold queueCtl at h
  split at h
  · next e => cases h; simp [↓State.stage_update, stage_of_snd e]
  · cases h
@[simp] theorem sendPkt_stage (s : State) (p : Pkt) (k : Option Nat) : (sendPkt s p k).stage = s.stage := by
  unfold sendPkt
  split
  · next h => exact queueCtl_stage h
  · simp [↓State.stage_update]
@[simp] theorem sendCtl_stage (s : State) (typ dst dcirc scirc : Nat) (body : List Byte) :
    (sendCtl s typ dst dcirc scirc body).stage = s.stage := by
  simp [sendCtl, ↓State.stage_update]
@[simp] theorem addCredits_stage (s : State) (c n : Nat) : (addCredits s c n).stage = s.stage := by simp [addCredits]
@[simp] theorem sendCredit_stage (s : State) (e : CreditEntry) (grant refused : Nat) : (sendCredit s e grant refused).stage = s.stage := by
  simp [sendCredit]
@[simp] theorem creditLocal_stage (s : State) (c seq : Nat) : (creditLocal s c seq).stage = s.stage := by simp [creditLocal]
@[simp] theorem oweCredit_stage (s : State) (owner origin seq : Nat) : (oweCredit s owner origin seq).stage = s.stage := by
  unfold oweCredit
  split
  · dsimp only
    split
    · simp
    · split
      · simp [↓State.stage_update]
      · simp
  · dsimp only
    split
    · simp
    · split <;> simp [↓State.stage_update]
@[simp] theorem oweRefused_stage (s : State) (owner dev rc seq : Nat) : (oweRefused s owner dev rc seq).stage = s.stage := by
  simp [oweRefused]
@[simp] theorem serveSysWait_stage (s : State) : (serveSysWait s).stage = s.stage := by
  unfold serveSysWait
  split
  · next p k t _ =>
    cases h : queueCtl { s with ctlWait := t } p k with
    | none => rfl
    | some u => simpa [↓State.stage_update] using queueCtl_stage h
  · dsimp only
    split <;> simp [↓State.stage_update]
@[simp] theorem noteRetired_stage (s : State) : (noteRetired s).stage = s.stage := by simp [noteRetired, ↓State.stage_update]
@[simp] theorem dropHeldChar_stage (s : State) (x : Nat) : (dropHeldChar s x).stage = s.stage :=
  stage_forEach (fun t n => by split <;> simp) _ s
@[simp] theorem dropRefs_stage (s : State) (c i : Nat) : (dropRefs s c i).stage = s.stage := by simp [dropRefs, ↓State.stage_update]
@[simp] theorem allocEvents_stage (s : State) : (allocEvents s).stage = s.stage := by simp [allocEvents]
@[simp] theorem stopCtx_stage (s : State) (x : Nat) : (stopCtx s x).stage = s.stage := by simp [stopCtx]
@[simp] theorem stopAtBoundary_stage (s : State) (x : Nat) : (stopAtBoundary s x).stage = s.stage := by simp [stopAtBoundary]
@[simp] theorem drainEnd_stage (s : State) (c : Nat) : (drainEnd s c).stage = s.stage := by simp [drainEnd]
@[simp] theorem drainCheck_stage (s : State) (c : Nat) : (drainCheck s c).stage = s.stage := by simp [drainCheck]
@[simp] theorem releaseCell_stage (s : State) (i : Nat) : (releaseCell s i).stage = s.stage := by
  unfold releaseCell
  dsimp only
  split <;> simp
@[simp] theorem freeOwn_stage (s : State) (i : Nat) : (freeOwn s i).stage = s.stage := by simp [freeOwn]
@[simp] theorem freeOpen_stage (s : State) (c : Nat) : (freeOpen s c).2.stage = s.stage := by simp [freeOpen]
@[simp] theorem faultCirc_stage (s : State) (c : Nat) : (faultCirc s c).stage = s.stage := by
  unfold faultCirc
  split <;> simp
@[simp] theorem ctxFaultC_stage (s : State) (x code : Nat) : (ctxFaultC s x code).stage = s.stage := by simp [ctxFaultC]
@[simp] theorem sysFault_stage (s : State) (k code pc : Nat) : (sysFault s k code pc).stage = s.stage := by
  simp [sysFault, ↓State.stage_update]
@[simp] theorem ctxFault_stage (s : State) (x code : Nat) : (ctxFault s x code).stage = s.stage := by simp [ctxFault, ↓State.stage_update]
@[simp] theorem noteEcc_stage (s : State) (m a : Nat) (un : Bool) : (noteEcc s m a un).stage = s.stage := by
  simp [noteEcc, ↓State.stage_update]
@[simp] theorem readEcc_stage (s : State) (i w : Nat) : (readEcc s i w).stage = s.stage := by simp [readEcc]
@[simp] theorem sleeveFail_stage (s : State) (p c i : Nat) (b : Bool) (v w : Word) : (sleeveFail s p c i b v w).stage = s.stage := by
  unfold sleeveFail
  extract_lets s1 s2 s3 recent pool1 s4 pool2 s5 s6
  have h1 : s1.stage = s.stage := by simp only [s1]; split <;> simp
  clear_value s1 recent
  simp [s6, s5, s4, s3, s2, h1, ↓State.stage_update]
@[simp] theorem markRetire_stage (s : State) (i : Nat) : (markRetire s i).stage = s.stage := by simp [markRetire]
theorem appendByte_stage {s t : State} {i : Nat} {b : Byte} (h : appendByte s i b = some t) : t.stage = s.stage := by
  simp only [appendByte] at h
  split at h <;> cases h
  rfl
@[simp] theorem writeBytes_stage (s : State) (i : Nat) (l : List Byte) (n : Nat) : (writeBytes s i l n).2.2.stage = s.stage := by
  induction l generalizing s n with
  | nil => rfl
  | cons b t ih =>
    unfold writeBytes
    split
    · next h => rw [ih, appendByte_stage h]
    · rfl
@[simp] theorem mergeFail_stage (s : State) (i : Nat) : (mergeFail s i).stage = s.stage := by simp [mergeFail]
@[simp] theorem discardIngress_stage (s : State) (c i : Nat) : (discardIngress s c i).stage = s.stage := by simp [discardIngress]
@[simp] theorem setTxseq_stage (s : State) (c adv : Nat) : (setTxseq s c adv).stage = s.stage := by simp [setTxseq, ↓State.stage_update]
@[simp] theorem sendTomb_stage (s : State) (c : Nat) : (sendTomb s c).stage = s.stage := by simp [sendTomb]
@[simp] theorem startEpoch_stage (s : State) (c : Nat) (atStart : Bool) : (startEpoch s c atStart).stage = s.stage := by simp [startEpoch]
@[simp] theorem enqueueCell_stage (s : State) (c i : Nat) (viaWcur : Bool) : (enqueueCell s c i viaWcur).stage = s.stage := by
  simp [enqueueCell]
@[simp] theorem closeCellAs_stage (s : State) (i c cause : Nat) (sleeve : Word) : (closeCellAs s i c cause sleeve).2.stage = s.stage := by
  unfold closeCellAs
  dsimp only
  split <;> simp
@[simp] theorem closeCell_stage (s : State) (i c k : Nat) : (closeCell s i c k).stage = s.stage := by
  unfold closeCell
  split <;> (next h => simp [stage_of_snd h])
@[simp] theorem returnCursors_stage (s : State) (x : Nat) : (returnCursors s x).stage = s.stage := by
  unfold returnCursors
  dsimp only
  split <;> simp
@[simp] theorem startCtx_stage (s : State) (x : Nat) : (startCtx s x).stage = s.stage := by simp [startCtx]
@[simp] theorem letGo_stage (s : State) (i : Nat) : (letGo s i).stage = s.stage := by
  unfold letGo
  dsimp only
  split
  · simp
  · split <;> simp
@[simp] theorem dropAll_stage (s : State) (c : Nat) : (dropAll s c).2.stage = s.stage := by simp [dropAll, ↓State.stage_update]
@[simp] theorem cutCirc_stage (s : State) (c : Nat) : (cutCirc s c).stage = s.stage := by simp [cutCirc]
@[simp] theorem enterRun_stage (s : State) (c : Nat) : (enterRun s c).stage = s.stage := by simp [enterRun]
@[simp] theorem enterDrain_stage (s : State) (c : Nat) : (enterDrain s c).stage = s.stage := by simp [enterDrain]
@[simp] theorem leaveFault_stage (s : State) (c : Nat) : (leaveFault s c).stage = s.stage := by simp [leaveFault]
@[simp] theorem noteIssue_stage (s : State) (x : Nat) (wait : Bool) : (noteIssue s x wait).stage = s.stage := by
  simp [noteIssue, ↓State.stage_update]
@[simp] theorem advance_stage (s : State) (x a : Nat) : (advance s x a).stage = s.stage := by simp [advance]
@[simp] theorem endPortWaits_stage (s : State) (n : Nat) : (endPortWaits s n).stage = s.stage := by simp [endPortWaits]
@[simp] theorem freeByCirc_stage (s : State) (c i : Nat) : (freeByCirc s c i).stage = s.stage := by simp [freeByCirc]
@[simp] theorem freeBySys_stage (s : State) (k i : Nat) : (freeBySys s k i).stage = s.stage := by
  unfold freeBySys
  dsimp only
  split <;> simp
@[simp] theorem completeCell_stage (s : State) (i : Nat) : (completeCell s i).stage = s.stage := by
  unfold completeCell
  split <;> simp

end Sys2Proof.Machine
end

section
/-! PROOF. The functions of Sys2Proof/Machine/Refs.lean leave the stage (O60). -/
namespace Sys2Proof.Machine

@[simp] theorem setNbr_stage (s : State) (j : Nat) (n : Nbr) : (s.setNbr j n).stage = s.stage := by
  simp [State.setNbr, ↓State.stage_update]
@[simp] theorem setTref_stage (s : State) (k : Nat) (r : TRef) : (s.setTref k r).stage = s.stage := by
  simp [State.setTref, ↓State.stage_update]
@[simp] theorem modTim_stage (s : State) (f : Tim → Tim) : (modTim s f).stage = s.stage := by simp [modTim, ↓State.stage_update]
@[simp] theorem putStratum_stage (s : State) : (putStratum s).stage = s.stage := by simp [putStratum, ↓State.stage_update]
@[simp] theorem putFreq_stage (s : State) : (putFreq s).stage = s.stage := by simp [putFreq]
@[simp] theorem refGone_stage (s : State) : (refGone s).stage = s.stage := by simp [refGone, ↓State.stage_update]
@[simp] theorem capLocked_stage (s : State) : (capLocked s).stage = s.stage := by simp [capLocked]
@[simp] theorem reselect_stage (s : State) : (reselect s).stage = s.stage := by simp [reselect, ↓State.stage_update]

end Sys2Proof.Machine
end

section
/-! PROOF. The functions of Sys2Proof/Machine/FabCore.lean leave the stage (O60). -/
namespace Sys2Proof.Machine

@[simp] theorem setTrunk_stage (s : State) (k : Nat) (t : Trunk) : (s.setTrunk k t).stage = s.stage := by
  simp [State.setTrunk, ↓State.stage_update]
@[simp] theorem setRoute_stage (s : State) (i : Nat) (r : Route) : (s.setRoute i r).stage = s.stage := by
  simp [State.setRoute, ↓State.stage_update]
@[simp] theorem noteChanged_stage (s : State) (dst : Nat) : (noteChanged s dst).stage = s.stage := by
  simp [noteChanged, ↓State.stage_update]
@[simp] theorem assignPaths_stage (s : State) (changed : Option Nat) : (assignPaths s changed).stage = s.stage := by
  simp [assignPaths, ↓State.stage_update]
@[simp] theorem twinStandby_stage (s : State) : (twinStandby s).stage = s.stage := by simp [twinStandby, ↓State.stage_update]
@[simp] theorem twinWatch_stage (s : State) : (twinWatch s).stage = s.stage := by
  unfold twinWatch
  split
  · simp
  · split
    · split
      · simp [↓State.stage_update]
      · simp [↓State.stage_update]
      · simp
    · simp
@[simp] theorem putRoute_stage (s : State) (i : Nat) (r : Route) : (putRoute s i r).stage = s.stage := by
  simp [putRoute, ↓State.stage_update]
@[simp] theorem failBest_stage (s : State) (i : Nat) : (failBest s i).stage = s.stage := by
  unfold failBest
  dsimp only
  split
  · simp
  · split <;> simp
@[simp] theorem failPaths_stage (s : State) (gone : RPath → Bool) : (failPaths s gone).stage = s.stage := by simp [failPaths]
@[simp] theorem loseNbr_stage (s : State) (j : Nat) : (loseNbr s j).stage = s.stage := by simp [loseNbr]
@[simp] theorem sendHop_stage (s : State) (k typ fl src : Nat) (body : List Byte) : (sendHop s k typ fl src body).stage = s.stage := by
  simp [sendHop]
@[simp] theorem sendHello_stage (s : State) (k : Nat) : (sendHello s k).stage = s.stage := by simp [sendHello]
@[simp] theorem sendFullUpdate_stage (s : State) (k : Nat) : (sendFullUpdate s k).stage = s.stage := by simp [sendFullUpdate]
@[simp] theorem sendTriggered_stage (s : State) (k : Nat) : (sendTriggered s k).stage = s.stage := by simp [sendTriggered]
@[simp] theorem trunkDown_stage (s : State) (k : Nat) (c : DownCause) : (trunkDown s k c).stage = s.stage := by
  simp [trunkDown, ↓State.stage_update]
@[simp] theorem trunkUp_stage (s : State) (k : Nat) : (trunkUp s k).stage = s.stage := by simp [trunkUp]
@[simp] theorem trunkWatch_stage (s : State) (c : DownCause) : (trunkWatch s c).stage = s.stage := by simp [trunkWatch]
@[simp] theorem pktSent_stage (s : State) (cell : Nat) : (pktSent s cell).stage = s.stage := by simp [pktSent, ↓State.stage_update]
@[simp] theorem modOut_stage (s : State) (cell : Nat) (f : OutPkt → OutPkt) : (modOut s cell f).stage = s.stage := by
  simp [modOut, ↓State.stage_update]
@[simp] theorem stepCtr_stage (s : State) (k : Nat) : (stepCtr s k).stage = s.stage := by simp [stepCtr, ↓State.stage_update]
@[simp] theorem dropBad_stage (s : State) (o : OutPkt) : (dropBad s o).stage = s.stage := by
  unfold dropBad
  dsimp only
  split <;> simp [↓State.stage_update]
@[simp] theorem takePkt_stage (k : Nat) (ok : OutPkt → Bool) (n : Nat) (s : State) : (takePkt k ok n s).2.stage = s.stage := by
  induction n generalizing s with
  | zero => rfl
  | succ n ih =>
    unfold takePkt
    split
    · rfl
    · split <;> simp [ih]
@[simp] theorem passOver_stage (s : State) (k c : Nat) : (passOver s k c).stage = s.stage := by simp [passOver, ↓State.stage_update]
@[simp] theorem loadBurst_stage (s : State) (k : Nat) (b : Bool) : (loadBurst s k b).stage = s.stage := by
  unfold loadBurst
  split <;> (next h => simp [stage_of_snd h])
@[simp] theorem endBad_stage (s : State) (k : Nat) : (endBad s k).stage = s.stage := by
  unfold endBad
  split <;> simp
@[simp] theorem trunkByte_stage (s : State) (k : Nat) : (trunkByte s k).2.stage = s.stage := by
  unfold trunkByte
  dsimp only
  split
  · simp
  · split
    · split
      · split
        · split <;> simp [↓State.stage_update]
        · simp [↓State.stage_update]
      · split
        · split <;> simp [↓State.stage_update]
        · simp [↓State.stage_update]
    · split
      · split
        · split <;> simp [↓State.stage_update]
        · simp [↓State.stage_update]
      · split
        · split <;> simp [↓State.stage_update]
        · simp [↓State.stage_update]

end Sys2Proof.Machine
end

section
/-! PROOF. The functions of Sys2Proof/Machine/Fabric.lean leave the stage (O60). -/
namespace Sys2Proof.Machine

@[simp] theorem takeIn_stage (s : State) (p : InPkt) : (takeIn s p).stage = s.stage := by simp [takeIn, ↓State.stage_update]
@[simp] theorem onPkt_stage {f : State → InPkt → State} (h : ∀ t q, (f t q).stage = t.stage) (s : State) (p : InPkt → Bool) :
    (onPkt s p f).stage = s.stage := by
  unfold onPkt
  split <;> simp [h, ↓State.stage_update]
theorem Stays.onPkt {f : State → InPkt → State} (h : ∀ t q, (f t q).stage = t.stage) (s : State) (p : InPkt → Bool) :
    Stays s (.next (onPkt s p f)) := (stays_next _ _).2 (onPkt_stage h s p)
@[simp] theorem segErr_stage (s : State) : (segErr s).stage = s.stage := by simp [segErr]
@[simp] theorem segAdd_stage (s : State) (r : Reasm) (last : Bool) (data : List Byte) (fdf : Bool) :
    (segAdd s r last data fdf).stage = s.stage := by
  unfold segAdd
  split
  · dsimp only
    split <;> simp [↓State.stage_update]
  · dsimp only
    split
    · simp [↓State.stage_update]
    · split
      · simp [↓State.stage_update]
      · split
        · simp [↓State.stage_update]
        · split <;> simp [↓State.stage_update]
@[simp] theorem execFabricSegmentReceive_stays (ch : ChanId) (s : State) : Stays s (execFabricSegmentReceive ch s) := by
  unfold execFabricSegmentReceive
  split
  · simp
  · split
    · simp [↓State.stage_update]
    · split
      · simp [↓State.stage_update]
      · dsimp only
        split
        · simp [↓State.stage_update]
        · split
          · simp [↓State.stage_update]
          · split <;> simp [↓State.stage_update]
@[simp] theorem hunt_stage (s : State) (k : Nat) : (hunt s k).stage = s.stage := by simp [hunt]
@[simp] theorem trunkRx_stage (s : State) (k : Nat) (b : Byte) (t0 : Time) : (trunkRx s k b t0).stage = s.stage := by simp [trunkRx]
@[simp] theorem trunkTimeout_stage (s : State) (k : Nat) : (trunkTimeout s k).stage = s.stage := by simp [trunkTimeout]
@[simp] theorem judgeAuth_stage (s : State) (k : Nat) (auth : Bool) (key sender : Nat) (h : List Byte) (tail : List Byte) (p : Pkt) (at_ : Time) :
    (judgeAuth s k auth key sender h tail p at_).stage = s.stage := by
  unfold judgeAuth
  split
  · simp
  · split
    · simp
    · split
      · dsimp only
        split
        · simp
        · split
          · split
            · simp
            · split
              · split <;> simp
              · split <;> simp
          · split
            · simp
            · split
              · split <;> simp
              · split <;> simp
      · simp
@[simp] theorem execTrunkFrameJudge_stays (t : Fin 4) (s : State) : Stays s (execTrunkFrameJudge t s) := by
  unfold execTrunkFrameJudge
  dsimp only
  split
  · simp
  · split
    · simp
    · split
      · simp
      · split
        · simp
        · split
          · simp
          · split
            · simp
            · split <;> simp
@[simp] theorem deliver_stage (s : State) (p : Pkt) (bad : Option (Nat × Nat)) : (deliver s p bad).stage = s.stage := by
  unfold deliver
  split
  · next h => simp [stage_of_snd h]
  · next h =>
    dsimp only
    split
    · rw [oweRefused_stage]
      split <;> simp [stage_of_snd h]
    · split <;> (next k => simp [stage_of_snd h, stage_of_snd k])
@[simp] theorem setOrder_stage (s : State) (r : Nat) (x : Reorder) : (s.setOrder r x).stage = s.stage := by
  simp [State.setOrder, ↓State.stage_update]
@[simp] theorem drainHeld_stage (r n : Nat) (s : State) : (drainHeld r n s).stage = s.stage := by
  induction n generalizing s with
  | zero => rfl
  | succ n ih =>
    unfold drainHeld
    dsimp only
    split <;> simp [ih]
@[simp] theorem skipTo_stage (s : State) (r e : Nat) : (skipTo s r e).stage = s.stage := by simp [skipTo]
@[simp] theorem judgeData_stage (s : State) (r : Nat) (p : Pkt) : (judgeData s r p).stage = s.stage := by simp [judgeData]
@[simp] theorem execDataReceive_stays (s : State) : Stays s (execDataReceive s) := by
  refine .onPkt (fun t q => ?_) _ _
  simp only [State.stage_ite]
  split
  · simp
  · split
    · simp
    · split <;> simp
@[simp] theorem execPacketRelay_stays (s : State) : Stays s (execPacketRelay s) := by
  refine .onPkt (fun t q => ?_) _ _
  dsimp only
  split
  · rfl
  · split
    · simp
    · split
      · rfl
      · split
        · simp
        · split <;> (next h => simp [stage_of_snd h, ↓State.stage_update])
@[simp] theorem execProbeReceive_stays (s : State) : Stays s (execProbeReceive s) := by
  refine .onPkt (fun t q => ?_) _ _
  dsimp only
  rw [sendCtl_stage]
  split <;> simp
@[simp] theorem execTombReceive_stays (s : State) : Stays s (execTombReceive s) := by
  refine .onPkt (fun t q => ?_) _ _
  dsimp only
  split <;> simp
@[simp] theorem sendClaims_stage (s : State) (addr : Nat) (owner strapped : Bool) : (sendClaims s addr owner strapped).stage = s.stage := by
  simp [sendClaims, ↓State.stage_update]
@[simp] theorem startClaim_stage (s : State) (addr : Nat) (strapped : Bool) (attempt defeats : Nat) :
    (startClaim s addr strapped attempt defeats).stage = s.stage := by
  simp [startClaim, ↓State.stage_update]
@[simp] theorem claimAuto_stage (s : State) (a defeats : Nat) : (claimAuto s a defeats).stage = s.stage := by
  simp [claimAuto, ↓State.stage_update]
@[simp] theorem claimReq_stage (s : State) : (claimReq s).stage = s.stage := by simp [claimReq]
@[simp] theorem defeated_stage (s : State) (addr : Nat) (strapped : Bool) (uid : Nat) : (defeated s addr strapped uid).stage = s.stage := by
  simp [defeated]
@[simp] theorem meetRival_stage (s : State) (addr : Nat) (strap owner : Bool) (uid mUid : Nat) (defend : Bool) :
    (meetRival s addr strap owner uid mUid defend).stage = s.stage := by
  simp [meetRival]
@[simp] theorem unbind_stage (s : State) (c : Nat) : (unbind s c).stage = s.stage := by
  unfold unbind
  dsimp only
  split <;> simp
@[simp] theorem setBoth_stage (s : State) (a lo wd v : Nat) : (setBoth s a lo wd v).stage = s.stage := by simp [setBoth]
@[simp] theorem selfBind_stage (s : State) : (selfBind s).stage = s.stage := by simp [selfBind, ↓State.stage_update]
@[simp] theorem execClaimTimer_stays (s : State) : Stays s (execClaimTimer s) := by
  unfold execClaimTimer
  dsimp only
  split
  · simp
  · split
    · simp [↓State.stage_update]
    · split <;> simp [↓State.stage_update]
@[simp] theorem execHelloReceive_stays (s : State) : Stays s (execHelloReceive s) := by
  refine .onPkt (fun t q => ?_) _ _
  extract_lets b k uid u
  have hu : u.stage = t.stage := by simp [u]
  clear_value u
  split
  · simp [hu]
  · simp [hu, ↓State.stage_update]
@[simp] theorem offer_stage (s : State) (i dst tag : Nat) (strap : Bool) (p : RPath) : (offer s i dst tag strap p).stage = s.stage := by
  unfold offer
  extract_lets r up
  clear_value r up
  split
  · simp
  · simp
  · split
    · simp
    · split
      · simp
      · split
        · simp
        · split
          · split <;> simp
          · rfl
@[simp] theorem routeEntry_stage (s : State) (k sender : Nat) (b : List Byte) : (routeEntry s k sender b).stage = s.stage := by
  unfold routeEntry
  dsimp only
  split
  · simp
  · split
    · simp
    · split
      · simp
      · split
        · simp
        · split
          · simp
          · split <;> simp
@[simp] theorem doRouteupd_stage (s : State) : (doRouteupd s).stage = s.stage := by simp [doRouteupd]
@[simp] theorem doFabClrcnt_stage (s : State) : (doFabClrcnt s).stage = s.stage := by simp [doFabClrcnt]
@[simp] theorem execPacketLifeExpiry_stays (cell : CellId) (s : State) : Stays s (execPacketLifeExpiry cell s) := by
  unfold execPacketLifeExpiry
  split <;> simp [↓State.stage_update]
@[simp] theorem execCellHandover_stays (c : CircId) (s : State) : Stays s (execCellHandover c s) := by
  unfold execCellHandover
  dsimp only
  split <;> simp [↓State.stage_update]

end Sys2Proof.Machine
end

section
/-! PROOF. The functions of Sys2Proof/Machine/Ports.lean leave the stage (O60).
Where a function's text holds long sums or products, `simp only` leaves them alone: rewritten, they are slow for the kernel to check. -/
namespace Sys2Proof.Machine

@[simp] theorem modPort_stage (s : State) (n : Nat) (f : Port → Port) : (modPort s n f).stage = s.stage := by simp [modPort]
@[simp] theorem feedEvent_stage (s : State) (n b : Nat) : (feedEvent s n b).stage = s.stage := by
  unfold feedEvent
  split
  · rfl
  · split <;> simp
@[simp] theorem closeRx_stage (s : State) (i c cause : Nat) : (closeRx s i c cause).stage = s.stage := by simp [closeRx]
@[simp] theorem closeAllRx_stage (s : State) (n k : Nat) : (closeAllRx s n k).stage = s.stage := by
  refine (modPort_stage _ _ _).trans (stage_forList (fun t e => ?_) _ s)
  split <;> simp
@[simp] theorem gloveFor_stage (s : State) (n secs : Nat) : (gloveFor s n secs).stage = s.stage := by simp [gloveFor]
@[simp] theorem storm_stage (s : State) (n : Nat) : (storm s n).stage = s.stage := by
  simp only [storm, State.stage_ite, gloveFor_stage, setBit_stage, setFld_stage, count_stage, modPort_stage, journal_stage,
    ↓State.stage_update, ite_self]
@[simp] theorem stormEvent_stage (s : State) (n kind : Nat) : (stormEvent s n kind).stage = s.stage := by simp [stormEvent]
@[simp] theorem overrun_stage (s : State) (n : Nat) : (overrun s n).stage = s.stage := by simp [overrun]
@[simp] theorem storeCell_stage (s : State) (n c e : Nat) (b : Byte) (w : Word) (err : Bool) (t0 : Time) :
    (storeCell s n c e b w err t0).stage = s.stage := by
  unfold storeCell
  extract_lets got
  have h : got.2.stage = s.stage := by
    simp only [got]
    split
    · rfl
    · split <;> (next h => simp [stage_of_snd h])
  clear_value got
  split
  · simp_all
  · dsimp only
    split
    · simp_all
    · next k =>
      have := appendByte_stage k
      split <;> simp_all
@[simp] theorem storeHold_stage (s : State) (n : Nat) (c : RxIn) (b : Byte) (mark : Bool) (cls : Nat) :
    (storeHold s n c b mark cls).stage = s.stage := by
  unfold storeHold
  split <;> simp
@[simp] theorem noMatch_stage (s : State) (n : Nat) : (noMatch s n).stage = s.stage := by simp [noMatch]
@[simp] theorem startFrame_stage (s : State) (n : Nat) (b : Byte) (cls : Nat) : (startFrame s n b cls).stage = s.stage := by
  unfold startFrame
  split
  · simp
  · dsimp only
    split <;> simp
@[simp] theorem holdFrame_stage (s : State) (n : Nat) (b : Byte) (cls : Nat) : (holdFrame s n b cls).stage = s.stage := by simp [holdFrame]
@[simp] theorem routeChar_stage (s : State) (n : Nat) (x : RxIn) (b : Byte) (m : Bool) (cls : Nat) :
    (routeChar s n x b m cls).stage = s.stage := by
  unfold routeChar
  split
  · rfl
  · split
    · simp
    · split <;> split <;> simp
@[simp] theorem flowChar_stage (s : State) (n kind : Nat) : (flowChar s n kind).stage = s.stage := by simp [flowChar]
@[simp] theorem xoffAgain_stage (s : State) (n : Nat) : (xoffAgain s n).stage = s.stage := by simp [xoffAgain]
@[simp] theorem falseStart_stage (s : State) (n : Nat) : (falseStart s n).stage = s.stage := by simp [falseStart]
@[simp] theorem countChar_stage (s : State) (n : Nat) (x : RxIn) (cls : Nat) : (countChar s n x cls).stage = s.stage := by
  unfold countChar
  dsimp only
  split <;> simp
@[simp] theorem stormClass_stage (s : State) (n cls : Nat) : (stormClass s n cls).stage = s.stage := by
  unfold stormClass
  split <;> simp
@[simp] theorem receiveBreak_stage (s : State) (n : Nat) (x : RxIn) (b : Byte) (mark : Bool) : (receiveBreak s n x b mark).stage = s.stage := by
  simp [receiveBreak]
@[simp] theorem keepChar_stage (s : State) (n : Nat) (x : RxIn) (b c : Byte) (mark : Bool) (cls : Nat) :
    (keepChar s n x b c mark cls).stage = s.stage := by
  unfold keepChar
  split
  · split <;> simp
  · split <;> simp
@[simp] theorem receiveChar_stage (s : State) (n : Nat) (r : RxBits) : (receiveChar s n r).stage = s.stage := by simp [receiveChar]
@[simp] theorem loseChar_stage (s : State) (n : Nat) : (loseChar s n).stage = s.stage := by simp [loseChar]
@[simp] theorem execReceiveTimeout_stays (n : PortId) (s : State) : Stays s (execReceiveTimeout n s) := by
  unfold execReceiveTimeout
  dsimp only
  split
  · simp
  · split
    · simp
    · split
      · simp
      · split <;> simp
@[simp] theorem doClose_stage (s : State) (n : Nat) : (doClose s n).stage = s.stage := by simp [doClose]
@[simp] theorem doPortClrcnt_stage (s : State) (n : Nat) : (doPortClrcnt s n).stage = s.stage := by simp [doPortClrcnt]
@[simp] theorem takeHead_stage (s : State) (c i : Nat) (h : Holder) : (takeHead s c i h).stage = s.stage := by simp [takeHead]
@[simp] theorem selectTx_stage (n f : Nat) (s : State) : (selectTx n f s).stage = s.stage := by
  induction f generalizing s with
  | zero => rfl
  | succ f ih =>
    unfold selectTx
    split <;> simp [ih]
@[simp] theorem prepareTx_stage (s : State) (n : Nat) : (prepareTx s n).stage = s.stage := by simp [prepareTx]
@[simp] theorem endTxCell_stage (s : State) (n : Nat) (done : Bool) : (endTxCell s n done).stage = s.stage := by
  unfold endTxCell
  split <;> simp
@[simp] theorem dropAbandoned_stage (s : State) (n : Nat) : (dropAbandoned s n).stage = s.stage := by
  unfold dropAbandoned
  split <;> simp
@[simp] theorem cellByte_stage (s : State) (n : Nat) : (cellByte s n).2.stage = s.stage := by
  unfold cellByte
  split
  · simp
  · dsimp only
    split <;> simp
@[simp] theorem sendChar_stage (s : State) (n : Nat) (b : Byte) (mark : Bool) : (sendChar s n b mark).stage = s.stage := by simp [sendChar]
@[simp] theorem failHeld_stage (s : State) (n : Nat) (h : TxChar) : (failHeld s n h).stage = s.stage := by
  unfold failHeld
  dsimp only
  split <;> simp
@[simp] theorem txBegin_stage (s : State) (n : Nat) (it : TxItem) : (txBegin s n it).2.stage = s.stage := by
  unfold txBegin
  split
  · simp
  · simp
  · split
    · split <;> (next h => simp [stage_of_snd h])
    · split
      · split <;> (next h => simp [stage_of_snd h])
      · split
        · split <;> simp
        · rfl
@[simp] theorem deAssert_stage (s : State) (n : Nat) : (deAssert s n).stage = s.stage := by simp [deAssert]
@[simp] theorem deRelease_stage (s : State) (n : Nat) : (deRelease s n).stage = s.stage := by simp [deRelease]
@[simp] theorem txIdle_stage (s : State) (n : Nat) : (txIdle s n).stage = s.stage := by simp [txIdle]
@[simp] theorem txDecide_stage (n f : Nat) (s : State) : (txDecide n f s).stage = s.stage := by
  induction f generalizing s with
  | zero => simp [txDecide]
  | succ f ih =>
    unfold txDecide
    dsimp only
    split
    · simp
    · split
      · simp
      · split
        · split
          · split <;> (next h => simp [ih, stage_of_snd h])
          · simp
        · split <;> (next h => simp [ih, stage_of_snd h])
@[simp] theorem endLine_stage (s : State) (n : Nat) : (endLine s n).stage = s.stage := by simp [endLine]
@[simp] theorem execDeLeadEnd_stays (n : PortId) (s : State) : Stays s (execDeLeadEnd n s) := by
  unfold execDeLeadEnd
  dsimp only
  split
  · split
    · simp
    · split <;> (next h => simp [stage_of_snd h])
  · simp
@[simp] theorem doSendbrk_stage (s : State) (n : Nat) : (doSendbrk s n).stage = s.stage := by simp [doSendbrk]
@[simp] theorem putCts_stage (s : State) : (putCts s).stage = s.stage := by simp [putCts]

end Sys2Proof.Machine
end

section
/-! PROOF. The functions of Sys2Proof/Machine/Can.lean leave the stage (O60). -/
namespace Sys2Proof.Machine

@[simp] theorem canEvt_stage (s : State) (ch bit : Nat) : (canEvt s ch bit).stage = s.stage := by simp [canEvt]
@[simp] theorem setRole_stage (s : State) (ch : Nat) (r : CanRole) : (setRole s ch r).stage = s.stage := by simp [setRole]
@[simp] theorem setCanSt_stage (s : State) (ch : Nat) (st : CanSt) (c : DownCause) : (setCanSt s ch st c).stage = s.stage := by
  unfold setCanSt
  dsimp only
  split <;> simp
@[simp] theorem integrate_stage (s : State) (ch : Nat) (clear : Bool) (c : DownCause) : (integrate s ch clear c).stage = s.stage := by
  simp [integrate]
@[simp] theorem watchErrors_stage (s : State) (ch : Nat) : (watchErrors s ch).stage = s.stage := by simp [watchErrors]
@[simp] theorem objLost_stage (s : State) (ch i : Nat) : (objLost s ch i).stage = s.stage := by simp [objLost]
@[simp] theorem objCell_stage (s : State) (ch i : Nat) (f : CanFrame) (t0 : Time) (v : Bool) : (objCell s ch i f t0 v).stage = s.stage := by
  unfold objCell
  dsimp only
  split
  · next h => simp [objLost, stage_of_snd h]
  · next h =>
    split
    · next k => simp [stage_of_trd k, stage_of_snd h]
    · next k => split <;> simp [stage_of_trd k, stage_of_snd h]
@[simp] theorem objStore_stage (s : State) (ch i : Nat) (f : CanFrame) (t0 : Time) : (objStore s ch i f t0).stage = s.stage := by
  simp [objStore]
@[simp] theorem offerObjects_stage (s : State) (ch : Nat) (f : CanFrame) (t0 : Time) : (offerObjects s ch f t0).stage = s.stage := by
  unfold offerObjects
  split <;> simp
@[simp] theorem frameIn_stage (s : State) (ch : Nat) (f : CanFrame) (t0 : Time) : (frameIn s ch f t0).stage = s.stage := by
  simp [frameIn, ↓State.stage_update]
@[simp] theorem objRelease_stage (s : State) (ch i : Nat) (done : Bool) : (objRelease s ch i done).stage = s.stage := by
  unfold objRelease
  dsimp only
  split <;> simp
@[simp] theorem objWithdraw_stage (s : State) (ch i : Nat) : (objWithdraw s ch i).stage = s.stage := by
  unfold objWithdraw
  dsimp only
  split
  · simp
  · split
    · simp
    · split <;> simp
@[simp] theorem fillObj_stage (ch i n : Nat) (s : State) : (fillObj ch i n s).stage = s.stage := by
  induction n generalizing s with
  | zero => rfl
  | succ n ih =>
    unfold fillObj
    dsimp only
    split
    · rfl
    · split
      · rfl
      · split
        · simp [ih]
        · split <;> simp [ih]
@[simp] theorem fillObjs_stage (s : State) (ch : Nat) : (fillObjs s ch).stage = s.stage := by simp [fillObjs]
@[simp] theorem noteLosses_stage (s : State) (ch : Nat) (won : TxSrc) : (noteLosses s ch won).stage = s.stage := by
  refine stage_forList (fun t o => ?_) _ s
  split
  · rfl
  · split <;> simp
@[simp] theorem purgeBad_stage (s : State) (ch : Nat) : (purgeBad s ch).stage = s.stage := by simp [purgeBad]
theorem loadFails_stage {s t : State} {ch i : Nat} (h : loadFails s ch i = some t) : t.stage = s.stage := by
  unfold loadFails at h
  split at h
  · cases h
  · dsimp only at h
    split at h <;> cases h
    simp
@[simp] theorem chooseLoaded_stage (ch n : Nat) (s : State) : (chooseLoaded ch n s).2.stage = s.stage := by
  induction n generalizing s with
  | zero => rfl
  | succ n ih =>
    unfold chooseLoaded
    dsimp only
    split
    · simp
    · split
      · next h => simp [ih, loadFails_stage h]
      · simp
    · simp
@[simp] theorem execCanStartOfFrame_stays (ch : ChanId) (t0 : BitVec 80) (s : State) : Stays s (execCanStartOfFrame ch t0 s) := by
  unfold execCanStartOfFrame
  extract_lets c x
  refine .ite (by simp) ?_
  split <;> (next h => simp [stage_of_snd h])
@[simp] theorem objFail_stage (s : State) (ch i : Nat) : (objFail s ch i).stage = s.stage := by simp [objFail]
@[simp] theorem endFrame_stage (s : State) (ch : Nat) (lost : Bool) : (endFrame s ch lost).stage = s.stage := by
  unfold endFrame
  split
  · simp
  · split <;> simp
@[simp] theorem execCanArbitrationLost_stays (ch : ChanId) (toRef : Bool) (s : State) : Stays s (execCanArbitrationLost ch toRef s) := by
  unfold execCanArbitrationLost
  split
  · dsimp only
    split
    · simp
    · split <;> simp
  · dsimp only
    split
    · simp
    · split <;> simp
@[simp] theorem measureLoop_stage (s : State) (ch d : Nat) : (measureLoop s ch d).stage = s.stage := by
  unfold measureLoop
  split <;> simp
@[simp] theorem execCanFrameTransmitted_stays (ch : ChanId) (s : State) (d : BitVec 16) : Stays s (execCanFrameTransmitted ch s d) := by
  unfold execCanFrameTransmitted
  dsimp only
  split
  · simp
  · split
    · simp
    · split
      · simp [↓State.stage_update]
      · simp
    · simp [↓State.stage_update]
    · simp
@[simp] theorem countErr_stage (s : State) (ch : Nat) (k : Fin 5) : (countErr s ch k).stage = s.stage := by
  unfold countErr
  split <;> simp
@[simp] theorem busOff_stage (s : State) (ch : Nat) : (busOff s ch).stage = s.stage := by simp [busOff]
@[simp] theorem execCanError_stays (ch : ChanId) (k : Fin 5) (big keep : Bool) (part : Option (CanFrame × BitVec 80)) (s : State)
    (d : Option (BitVec 16)) : Stays s (execCanError ch k big keep part s d) := by
  unfold execCanError
  extract_lets c s1 tx s2 s3 fab3 s5 s6 s7
  have h1 : s1.stage = s.stage := by cases d <;> simp [s1]
  have h3 : s3.stage = s.stage := by
    simp only [s3]
    split
    · split
      · simp [s2, h1]
      · split <;> simp [s2, h1]
    · simp [s2, h1]
  have h5 : s5.stage = s.stage := by
    clear_value tx
    simp only [s5]
    split <;> simp [h3, ↓State.stage_update]
  simp [s7, s6, h3, h5]
@[simp] theorem doRecover_stage (s : State) (ch : Nat) : (doRecover s ch).stage = s.stage := by simp [doRecover]
@[simp] theorem doTxreq_stage (s : State) (ch i : Nat) : (doTxreq s ch i).stage = s.stage := by simp [doTxreq]
@[simp] theorem doCancel_stage (s : State) (ch i : Nat) : (doCancel s ch i).stage = s.stage := by simp [doCancel]
@[simp] theorem canMemError_stage (s : State) (ch i word : Nat) (bad : Bool) : (canMemError s ch i word bad).stage = s.stage := by
  simp [canMemError]
@[simp] theorem doCanClrcnt_stage (s : State) (ch : Nat) : (doCanClrcnt s ch).stage = s.stage := by simp [doCanClrcnt]
@[simp] theorem canRelock_stage (s : State) (ch : Nat) : (canRelock s ch).stage = s.stage := by simp [canRelock]

end Sys2Proof.Machine
end

section
/-! PROOF. The functions of Sys2Proof/Machine/Time.lean leave the stage (O60).
Where a function's text holds long sums or products, `simp only` leaves them alone: rewritten, they are slow for the kernel to check. -/
namespace Sys2Proof.Machine

@[simp] theorem loopStep_stage (s : State) (e dt : Rat) : (loopStep s e dt).stage = s.stage := by simp [loopStep]
@[simp] theorem lockTest_stage (s : State) (ok : Bool) : (lockTest s ok).stage = s.stage := by simp [lockTest]
@[simp] theorem measure_stage (s : State) (k : Nat) (e : Int) (t : Time) : (measure s k e t).stage = s.stage := by simp [measure]
@[simp] theorem netLoop_stage (s : State) (t : Time) : (netLoop s t).stage = s.stage := by simp [netLoop]
@[simp] theorem doTimClrcnt_stage (s : State) : (doTimClrcnt s).stage = s.stage := by simp [doTimClrcnt]
@[simp] theorem fabricSet_stage (s : State) (k : Nat) : (fabricSet s k).stage = s.stage := by simp [fabricSet]
@[simp] theorem execTimeReceive_stays (s : State) : Stays s (execTimeReceive s) := by
  refine .onPkt (fun t q => ?_) _ _
  split
  · rfl
  · simp
@[simp] theorem execReferenceMessageReceived_stays (ch : ChanId) (s : State) : Stays s (execReferenceMessageReceived ch s) := by
  unfold execReferenceMessageReceived
  dsimp only
  split <;> simp
@[simp] theorem loadCount_stage (s : State) (new : Time) : (loadCount s new).stage = s.stage := by simp [loadCount, ↓State.stage_update]
@[simp] theorem tpoAtBoundary_stage (s : State) : (tpoAtBoundary s).stage = s.stage := by simp [tpoAtBoundary]
@[simp] theorem secondEffects_stage (s : State) : (secondEffects s).stage = s.stage := by
  simp only [secondEffects, tpoAtBoundary_stage, State.stage_ite, netLoop_stage, ↓State.stage_update, ite_self, stage_forEach,
    ctxEvent_stage, implies_true]
@[simp] theorem loadSeconds_stage (s : State) : (loadSeconds s).stage = s.stage := by
  unfold loadSeconds
  split
  · rfl
  · simp only [putStratum_stage, State.stage_ite, setQuality_stage, ite_self, setBit_stage, loadCount_stage, modTim_stage]

end Sys2Proof.Machine
end

section
/-! PROOF. The functions of Sys2Proof/Machine/Apply.lean leave the stage (O60). -/
namespace Sys2Proof.Machine

@[simp] theorem noteXclamp_stage (s : State) (a : Nat) : (noteXclamp s a).stage = s.stage := by simp [noteXclamp]
@[simp] theorem putRuled_stage (s : State) (i : Inst) (words : List (Nat × Word × Word)) {rule : State → State}
    (h : ∀ t, (rule t).stage = t.stage) : (putRuled s i words rule).stage = s.stage := by simp [putRuled, h]
@[simp] theorem fixIf_stage (c : Bool) (a lo wd v : Nat) (s : State) : (fixIf c a lo wd v s).stage = s.stage := by simp [fixIf]
@[simp] theorem portRule_stage (n : Nat) (s : State) : (portRule n s).stage = s.stage := by simp [portRule]
@[simp] theorem bindRule_stage (c : Nat) (s : State) : (bindRule c s).stage = s.stage := by simp [bindRule]
@[simp] theorem trimmedReserve_stage (s : State) (e : Staged) (c : Nat) : (trimmedReserve s e c).2.stage = s.stage := by
  unfold trimmedReserve
  dsimp only
  split <;> simp [↓State.stage_update]
@[simp] theorem quotaRule_stage (c trimmed : Nat) (s : State) : (quotaRule c trimmed s).stage = s.stage := by simp [quotaRule]
@[simp] theorem celRule_stage (s : State) : (celRule s).stage = s.stage := by simp [celRule]
@[simp] theorem canRule_stage (ch : Nat) (s : State) : (canRule ch s).stage = s.stage := by simp [canRule]
@[simp] theorem fabRule_stage (s : State) : (fabRule s).stage = s.stage := by simp [fabRule]
@[simp] theorem afterPort_stage (old : State) (n : Nat) (s : State) : (afterPort old n s).stage = s.stage := by simp [afterPort]
@[simp] theorem afterCirc_stage (c : Nat) (en : Bool) (bind : Word) (s : State) : (afterCirc c en bind s).stage = s.stage := by
  unfold afterCirc
  split <;> simp
@[simp] theorem afterCan_stage (old : State) (ch : Nat) (s : State) : (afterCan old ch s).stage = s.stage := by simp [afterCan]
@[simp] theorem afterFab_stage (old asked : State) (s : State) : (afterFab old asked s).stage = s.stage := by simp [afterFab]
@[simp] theorem afterStr_stage (s : State) : (afterStr s).stage = s.stage := by simp [afterStr, ↓State.stage_update]
@[simp] theorem finishEntry_stage (s : State) (e : Staged) : (finishEntry s e).stage = s.stage := by
  unfold finishEntry
  dsimp only
  split
  · simp [↓State.stage_update]
  · split
    · simp [↓State.stage_update]
    · split <;> simp [↓State.stage_update]
@[simp] theorem setGroup_stage (s : State) (g : Nat) (x : Group) : (s.setGroup g x).stage = s.stage := by
  simp [State.setGroup, ↓State.stage_power]
@[simp] theorem beginSwitch_stage (s : State) (g code : Nat) : (beginSwitch s g code).stage = s.stage := by simp [beginSwitch]
@[simp] theorem applyClk_stage (s : State) (e : Staged) : (applyClk s e).stage = s.stage := by simp [applyClk, ↓State.stage_update]
@[simp] theorem applyPort_stage (s : State) (n : Nat) (e : Staged) : (applyPort s n e).stage = s.stage := by simp [applyPort]
@[simp] theorem applyCircOnly_stage (s : State) (c : Nat) (e : Staged) : (applyCircOnly s c e).stage = s.stage := by simp [applyCircOnly]
@[simp] theorem moveInbox_stage (s : State) (x : Nat) : (moveInbox s x).stage = s.stage := by simp [moveInbox]
@[simp] theorem applyCtxOnly_stage (s : State) (e : Staged) : (applyCtxOnly s e).stage = s.stage := by
  unfold applyCtxOnly
  split <;> simp
@[simp] theorem applyCirc_stage (s : State) (c : Nat) (e : Staged) : (applyCirc s c e).stage = s.stage := by
  unfold applyCirc
  split <;> simp
@[simp] theorem applyCan_stage (s : State) (ch : Nat) (e : Staged) : (applyCan s ch e).stage = s.stage := by simp [applyCan]
@[simp] theorem celWatch_stage (s : State) : (celWatch s).stage = s.stage := by simp [celWatch, ↓State.stage_update]
@[simp] theorem applyPlain_stage (s : State) (e : Staged) : (applyPlain s e).stage = s.stage := by
  unfold applyPlain
  split <;> simp
@[simp] theorem settleCommits_stage (n : Nat) (s : State) : (settleCommits n s).stage = s.stage := by
  induction n generalizing s with
  | zero => rfl
  | succ n ih =>
    unfold settleCommits
    split
    · rfl
    · split
      · rfl
      · rw [ih]
        split <;> simp
@[simp] theorem settleAll_stage (s : State) : (settleAll s).stage = s.stage := by simp [settleAll]
@[simp] theorem doCommit_stage (s : State) (groups : Nat) : (doCommit s groups).stage = s.stage := by simp [doCommit, ↓State.stage_update]
@[simp] theorem doPortApply_stage (s : State) (n : Nat) : (doPortApply s n).stage = s.stage := by
  unfold doPortApply
  split <;> simp
@[simp] theorem doCircuitApply_stage (s : State) (c : Nat) : (doCircuitApply s c).stage = s.stage := by
  unfold doCircuitApply
  split <;> simp
@[simp] theorem doCtxApply_stage (s : State) (x : Nat) : (doCtxApply s x).stage = s.stage := by
  unfold doCtxApply
  split <;> simp
@[simp] theorem doCanApply_stage (s : State) (ch : Nat) : (doCanApply s ch).stage = s.stage := by
  unfold doCanApply
  split <;> simp
@[simp] theorem doApply_stage (s : State) (i : Inst) : (doApply s i).stage = s.stage := by
  unfold doApply
  split
  case h_6 => split <;> simp
  all_goals simp
@[simp] theorem execCommitSlow_stays (i : Inst) (s : State) : Stays s (execCommitSlow i s) := by
  unfold execCommitSlow
  split <;> simp [↓State.stage_update]
@[simp] theorem execGroupClockRelease_stays (g : Fin 4) (s : State) : Stays s (execGroupClockRelease g s) := by
  unfold execGroupClockRelease
  extract_lets n x clk s1 s2 s3 s4
  clear_value clk
  have h3 : s3.stage = s.stage := by
    refine (stage_forEach (fun t k => ?_) 4 s2).trans (by simp [s2, s1])
    simp only [State.stage_ite, modPort_stage, ite_self]
    split <;> simp
  refine .ite (by simp) ?_
  rw [stays_next, settleAll_stage, ← h3]
  simp only [s4]
  split <;> simp

end Sys2Proof.Machine
end

section
/-! PROOF. The functions of Sys2Proof/Machine/Flags.lean leave the stage (O60). -/
namespace Sys2Proof.Machine

@[simp] theorem modCtx_stage (s : State) (x : Nat) (f : Ctx → Ctx) : (modCtx s x f).stage = s.stage := by simp [modCtx]
@[simp] theorem setGreg_stage (s : State) (x : Nat) (r : Reg) (v : Word) : (setGreg s x r v).stage = s.stage := by simp [setGreg]
@[simp] theorem setZ_stage (s : State) (x : Nat) (v : Word) : (setZ s x v).stage = s.stage := by simp [setZ]
@[simp] theorem setZN_stage (s : State) (x : Nat) (v : Word) : (setZN s x v).stage = s.stage := by simp [setZN]
@[simp] theorem setZNC_stage (s : State) (x : Nat) (v : Word) (c : Bool) : (setZNC s x v c).stage = s.stage := by simp [setZNC]
@[simp] theorem setZNCV_stage (s : State) (x : Nat) (v : Word) (c o : Bool) : (setZNCV s x v c o).stage = s.stage := by simp [setZNCV]
@[simp] theorem setE_stage (s : State) (x : Nat) (e : Bool) : (setE s x e).stage = s.stage := by simp [setE]

end Sys2Proof.Machine
end

section
/-! PROOF. The functions of Sys2Proof/Machine/Operands.lean leave the stage (O60). -/
namespace Sys2Proof.Machine

@[simp] theorem requestFill_stage (s : State) (la : Nat) : (requestFill s la).stage = s.stage := by simp [requestFill, ↓State.stage_update]
@[simp] theorem touchLine_stage (s : State) (a : Nat) : (touchLine s a).stage = s.stage := by
  unfold touchLine
  split
  · simp
  · dsimp only
    split
    · simp [↓State.stage_update]
    · simp
@[simp] theorem waitFill_stage (s : State) (x la : Nat) : (waitFill s x la).stage = s.stage := by simp [waitFill]
/-- An act that leaves how far start-up has come. -/
def Act.stays (s : State) : Act → Prop
  | .go t | .jump t _ | .faulted t => t.stage = s.stage
  | .fault _ | .block _ | .load _ _ _ => True
@[simp] theorem Act.stays_go (s t : State) : (Act.go t).stays s ↔ t.stage = s.stage := .rfl
@[simp] theorem Act.stays_jump (s t : State) (a : Nat) : (Act.jump t a).stays s ↔ t.stage = s.stage := .rfl
@[simp] theorem Act.stays_faulted (s t : State) : (Act.faulted t).stays s ↔ t.stage = s.stage := .rfl
@[simp] theorem Act.stays_fault (s : State) (c : Nat) : (Act.fault c).stays s := trivial
@[simp] theorem Act.stays_block (s : State) (p : Nat) : (Act.block p).stays s := trivial
@[simp] theorem Act.stays_load (s : State) (d : Reg) (a l : Nat) : (Act.load d a l).stays s := trivial
@[simp] theorem Act.stays_ite (s : State) (c : Prop) [Decidable c] (a b : Act) :
    (if c then a else b).stays s ↔ if c then a.stays s else b.stays s := by
  split <;> rfl

@[simp] theorem issueIf_stage {f : State → Act} (h : ∀ t, (f t).stays t) (x : Nat) (is : Word → Bool) (w : Bool) (src : List Reg)
    (s : State) :
    (issueIf x is w src f s).stage = s.stage := by
  unfold issueIf
  split
  · rfl
  · extract_lets a t u
    have ht : t.stage = s.stage := by simp [t]
    have hu : u.stage = s.stage := by simp [u, ht]
    have acted := h u
    split
    · simp
    · simp
    · split
      · rfl
      · split
        · simp [ht]
        · clear_value u
          split
          · simp [hu]
          · generalize f u = act at acted
            cases act <;> simp_all
@[simp] theorem issue_stage {f : State → Act} (h : ∀ t, (f t).stays t) (x : Nat) (op : SeqOp) (s : State) : (issue x op f s).stage = s.stage :=
  issueIf_stage h _ _ _ _ _
theorem Stays.issue {f : State → Act} (h : ∀ t, (f t).stays t) (x : Nat) (op : SeqOp) (s : State) : Stays s (.next (issue x op f s)) :=
  (stays_next _ _).2 (issue_stage h x op s)

end Sys2Proof.Machine
end

section
/-! PROOF. The functions of Sys2Proof/Machine/Sequencer.lean leave the stage (O60). -/
namespace Sys2Proof.Machine

@[simp] theorem putZNCV_stays (s t : State) (x : Nat) (d : Reg) (v : Word) (c o : Bool) : (putZNCV t x d v c o).stays s ↔ t.stage = s.stage := by
  simp [putZNCV]
@[simp] theorem putZN_stays (s t : State) (x : Nat) (d : Reg) (v : Word) : (putZN t x d v).stays s ↔ t.stage = s.stage := by
  simp [putZN]
@[simp] theorem putZ_stays (s t : State) (x : Nat) (d : Reg) (v : Word) : (putZ t x d v).stays s ↔ t.stage = s.stage := by
  simp [putZ]
@[simp] theorem putShift_stays (s t : State) (x : Nat) (d : Reg) (r : Word × Bool) : (putShift t x d r).stays s ↔ t.stage = s.stage := by
  simp [putShift]
@[simp] theorem execLdp_stays (x : CircId) (d a : Fin 16) (s : State) : Stays s (execLdp x d a s) := by
  refine .issue (fun t => ?_) _ _ _
  dsimp only
  split <;> simp
@[simp] theorem execRet_stays (x : CircId) (s : State) : Stays s (execRet x s) := by
  refine .issue (fun t => ?_) _ _ _
  dsimp only
  split <;> simp
@[simp] theorem deliverEvents_stage (s : State) (x : Nat) (d : Reg) : (deliverEvents s x d).stage = s.stage := by simp [deliverEvents]
@[simp] theorem swapMask_stays (s t : State) (x : Nat) (d : Reg) (m : BitVec 16) : (swapMask t x d m).stays s ↔ t.stage = s.stage := by
  simp [swapMask]
@[simp] theorem putTimer_stage (s : State) (x : Nat) (n : Bool) (t : Tmr) : (putTimer s x n t).stage = s.stage := by simp [putTimer]
@[simp] theorem feedCrc_stage (s : State) (x : Nat) (bs : List Byte) : (feedCrc s x bs).stage = s.stage := by simp [feedCrc]
@[simp] theorem feedPm_stage (s : State) (x : Nat) (b : Byte) : (feedPm s x b).stage = s.stage := by simp [feedPm]

end Sys2Proof.Machine
end

section
/-! PROOF. The functions of Sys2Proof/Machine/Cursors.lean leave the stage (O60). -/
namespace Sys2Proof.Machine

@[simp] theorem takeChar_stage (s : State) (x : Nat) (d : Reg) (p : Nat) (h : RxChar) : (takeChar s x d p h).stage = s.stage := by
  simp [takeChar]
@[simp] theorem execPrx_stays (x : CircId) (d p : Fin 16) (s : State) : Stays s (execPrx x d p s) := by
  refine .issue (fun t => ?_) _ _ _
  split
  · simp
  · split
    · simp
    · split <;> simp
@[simp] theorem execPrxNb_stays (x : CircId) (d p : Fin 16) (s : State) : Stays s (execPrxNb x d p s) := by
  refine .issue (fun t => ?_) _ _ _
  split
  · simp
  · split
    · simp
    · split <;> simp
@[simp] theorem putChar_stage (s : State) (x p : Nat) (v : Word) (last : Bool) : (putChar s x p v last).stage = s.stage := by simp [putChar]
@[simp] theorem ptxEffect_stays (x : Nat) (a : Reg) (p : Nat) (l b : Bool) (s : State) : (ptxEffect x a p l b s).stays s := by
  simp [ptxEffect]
@[simp] theorem giveVerdict_stage (s : State) (x i : Nat) : (giveVerdict s x i).2.stage = s.stage := by
  unfold giveVerdict
  dsimp only
  split
  · simp
  · rw [stage_forEach]
    · simp
    · intro t n
      split <;> simp
@[simp] theorem releaseSource_stage (s : State) (x i : Nat) (pass : Bool) : (releaseSource s x i pass).stage = s.stage := by
  unfold releaseSource
  split <;> simp
@[simp] theorem onRcur_stays {s : State} {f : Nat → Nat → Act} (h : ∀ i off, (f i off).stays s) (x : Nat) : (onRcur s x f).stays s := by
  unfold onRcur
  split <;> simp [h]
@[simp] theorem readTo_stage (s : State) (x i off : Nat) : (readTo s x i off).stage = s.stage := by simp [readTo, ↓State.stage_update]
@[simp] theorem execCurTake_stays (x : CircId) (d : Fin 16) (s : State) : Stays s (execCurTake x d s) := by
  refine .issue (fun t => ?_) _ _ _
  dsimp only
  split <;> simp
@[simp] theorem execCurInfo_stays (x : CircId) (d : Fin 16) (w : Bool) (s : State) : Stays s (execCurInfo x d w s) := by
  refine .issue (fun t => ?_) _ _ _
  extract_lets y put none'
  split
  · split <;> simp [put, none']
  · split <;> simp [put, none']
@[simp] theorem execCurHdr_stays (x : CircId) (d : Fin 16) (n : Fin 4) (s : State) : Stays s (execCurHdr x d n s) := by
  refine .issue (fun t => ?_) _ _ _
  split <;> simp
@[simp] theorem execCurAlloc_stays (x : CircId) (d : Fin 16) (s : State) : Stays s (execCurAlloc x d s) := by
  refine .issue (fun t => ?_) _ _ _
  dsimp only
  split
  · simp
  · split <;> (next h => simp [stage_of_snd h])
@[simp] theorem closeWcur_stage (s : State) (x i : Nat) (e l c : Bool) : (closeWcur s x i e l c).2.stage = s.stage := by
  unfold closeWcur
  dsimp only
  split
  · next h => simp [stage_of_snd h]
  · next h => split <;> simp [stage_of_snd h]
@[simp] theorem execCurClose_stays (x : CircId) (d : Fin 16) (e l c : Bool) (s : State) : Stays s (execCurClose x d e l c s) := by
  refine .issue (fun t => ?_) _ _ _
  split
  · simp
  · split <;> (next h => simp [stage_of_snd h])
@[simp] theorem execCurDisc_stays (x : CircId) (s : State) : Stays s (execCurDisc x s) := by
  refine .issue (fun t => ?_) _ _ _
  split <;> simp
@[simp] theorem feedOpts_stage (s : State) (x : Nat) (bs : List Byte) (crc pm : Bool) : (feedOpts s x bs crc pm).stage = s.stage := by
  simp [feedOpts]
@[simp] theorem writeFail_stage (s : State) (x i point : Nat) : (writeFail s x i point).stage = s.stage := by simp [writeFail]
@[simp] theorem checkFail_stage (s : State) (x i : Nat) : (checkFail s x i).stage = s.stage := by simp [checkFail]
@[simp] theorem execWr_stays (x : CircId) (a : Fin 16) (crc latch word : Bool) (s : State) : Stays s (execWr x a crc latch word s) := by
  refine .issue (fun t => ?_) _ _ _
  extract_lets y src good clear
  have cleared (u : State) : (clear u).stage = u.stage := by simp [clear]
  clear_value src good
  split
  · simp
  · extract_lets failed
    split
    · simp
    · split
      · simp
      · split
        · simp [failed, cleared]
        · split <;> (next h => simp [stage_of_trd h, cleared])
@[simp] theorem execCopy_stays (x : CircId) (a : Fin 16) (crc : Bool) (s : State) : Stays s (execCopy x a crc s) := by
  refine .issue (fun t => ?_) _ _ _
  refine onRcur_stays (fun i off => ?_) _
  dsimp only
  split
  · simp
  · split
    · simp
    · split
      · simp
      · split <;> (next h => simp [stage_of_trd h])

end Sys2Proof.Machine
end

section
/-! PROOF. The functions of Sys2Proof/Machine/Image.lean leave the stage (O60). -/
namespace Sys2Proof.Machine

@[simp] theorem writeIram_stage (s : State) (k : Nat) (h : ImgHdr) : (writeIram s k h).stage = s.stage :=
  stage_forEach (fun t i => by simp [↓State.stage_update]) _ s
@[simp] theorem loadSlot_stage (atStart : Bool) (s : State) (slot : Nat) : (loadSlot atStart s slot).2.stage = s.stage := by
  unfold loadSlot
  split
  · rfl
  · next h _ =>
    extract_lets req t left auth t1 t2 t3
    have hleft : left.stage = s.stage := by simp [left, t]
    have h2 : t2.stage = s.stage := by simp [t2, t1, t]
    clear_value t2 left
    split
    · rfl
    · split
      · rfl
      · split
        · exact hleft
        · split
          · exact hleft
          · simp [h2, t3]
@[simp] theorem trySlots_stage (b : Bool) (l : List Nat) (s : State) : (trySlots b l s).2.stage = s.stage := by
  induction l generalizing s with
  | nil => rfl
  | cons k t ih =>
    unfold trySlots
    split <;> (next h => simp [ih, stage_of_snd h])
@[simp] theorem loadImage_stage (b : Bool) (s : State) (k : Nat) : (loadImage b s k).2.stage = s.stage := by
  unfold loadImage
  dsimp only
  split <;> (next h => simp [stage_of_snd h])
@[simp] theorem ctxTable_stage (s : State) (k : Nat) : (ctxTable s k).2.stage = s.stage := by
  unfold ctxTable
  split
  · rfl
  · refine List.foldlRecOn (motive := fun r : List (Nat × Word) × State => r.2.stage = s.stage) _ _ rfl fun r h i _ => ?_
    dsimp only
    split
    · exact h
    · split <;> simp [h]

end Sys2Proof.Machine
end

section
/-! PROOF. The functions of Sys2Proof/Machine/Stock.lean leave the stage (O60). -/
namespace Sys2Proof.Machine

@[simp] theorem modStock_stage (s : State) (x : Nat) (f : Stock → Stock) : (modStock s x f).stage = s.stage := by simp [modStock]
@[simp] theorem cnt0_stage (s : State) (x : Nat) : (cnt0 s x).stage = s.stage := by simp [cnt0]
@[simp] theorem cnt1_stage (s : State) (x : Nat) : (cnt1 s x).stage = s.stage := by simp [cnt1]
@[simp] theorem passCell_stage (s : State) (x i : Nat) : (passCell s x i).stage = s.stage := by simp [passCell]
@[simp] theorem passOthers_stage (s : State) (x : Nat) : (passOthers s x).stage = s.stage := by simp [passOthers]
@[simp] theorem runPipe_stage (s : State) (x : Nat) : (runPipe s x).stage = s.stage := by simp [runPipe]
@[simp] theorem discardFrame_stage (s : State) (x : Nat) (l : List Nat) : (discardFrame s x l).stage = s.stage := by simp [discardFrame]
@[simp] theorem passFrame_stage (s : State) (x : Nat) (l : List Nat) : (passFrame s x l).stage = s.stage := by simp [passFrame]
@[simp] theorem runDelim_stage (p : StockProg) (x n : Nat) (b : Bool) (s : State) : (runDelim p x n b s).stage = s.stage := by
  induction n generalizing s b with
  | zero => rfl
  | succ n ih =>
    unfold runDelim
    dsimp only
    split
    · rfl
    · split
      · simp [ih]
      · split
        · simp
        · simp [ih]
@[simp] theorem dropBuilt_stage (s : State) (x : Nat) : (dropBuilt s x).stage = s.stage := by simp [dropBuilt]
/-- The state that feeding a byte leaves. -/
@[simp] def PutOut.state : PutOut → State
  | .ok s | .wait s | .drop s => s
@[simp] theorem putByte_stage (s : State) (x : Nat) (b : Byte) : (putByte s x b).state.stage = s.stage := by
  unfold putByte
  extract_lets u got
  have hu : u.stage = s.stage := by
    simp only [u]
    split
    · split <;> simp
    · rfl
  clear_value u
  have hg : got.2.stage = s.stage := by
    simp only [got]
    split <;> simp [hu]
  clear_value got
  split
  · split
    · next h => exact (appendByte_stage h).trans hg
    · exact (writeFail_stage _ _ _ _).trans hg
  · split <;> simpa using hg
@[simp] theorem holdFrameCells_stage (s : State) (x : Nat) : (holdFrameCells s x).stage = s.stage := by
  unfold holdFrameCells
  split <;> simp
@[simp] theorem failFrame_stage (s : State) (x : Nat) : (failFrame s x).stage = s.stage := by simp [failFrame]
@[simp] theorem feedNmea_stage (s : State) (x : Nat) (b : Byte) : (feedNmea s x b).2.stage = s.stage := by
  have h := putByte_stage s x b
  unfold feedNmea
  dsimp only
  split
  · simp
  · split
    · rfl
    · split
      · simp
      · split <;> (next e => rw [e] at h; simpa using h)
@[simp] theorem retryDnp3_stage (s : State) (x : Nat) (all : List Byte) : (retryDnp3 s x all).stage = s.stage := by simp [retryDnp3]
@[simp] theorem putAll_stage (x : Nat) (l : List Byte) (s : State) : (putAll x l s).state.stage = s.stage := by
  induction l generalizing s with
  | nil => rfl
  | cons b t ih =>
    have h := putByte_stage s x b
    unfold putAll
    split
    · next e => rw [e] at h; exact (ih _).trans h
    · exact h
@[simp] theorem feedDnp3_stage (s : State) (x : Nat) (b : Byte) : (feedDnp3 s x b).2.stage = s.stage := by
  unfold feedDnp3
  extract_lets k all keep n l
  have kept (t : State) (q : List Byte) : (keep t q).stage = t.stage := modStock_stage _ _ _
  have h := putAll_stage x (if k.bytes.length = 1 then all else [b]) s
  split
  · simp [kept]
  · split
    · simp [kept]
    · split
      · next e => rw [e] at h; exact h
      · next e => rw [e] at h; simpa using h
      · next e =>
        rw [e] at h
        simp only [PutOut.state] at h
        split
        · simp [h]
        · split
          · simp [h]
          · split <;> simp [kept, h]
@[simp] theorem countFrames_stage (s : State) (x : Nat) (passed : Bool) : (countFrames s x passed).stage = s.stage := by simp [countFrames]
@[simp] theorem lostSource_stage (s : State) (x : Nat) : (lostSource s x).stage = s.stage := by simp [lostSource]
/-- Feeding a byte to a copying program leaves how far start-up has come. -/
theorem feed_stage (p : StockProg) (s : State) (x : Nat) (b : Byte) :
    (if p = .nmea then feedNmea s x b else feedDnp3 s x b).2.stage = s.stage := by
  split <;> simp
@[simp] theorem runCopy_stage (p : StockProg) (x n : Nat) (s : State) : (runCopy p x n s).stage = s.stage := by
  induction n generalizing s with
  | zero => rfl
  | succ n ih =>
    unfold runCopy
    split
    · rfl
    · extract_lets u src k
      have hu : u.stage = s.stage := by simp [u]
      split
      · simp [ih, hu]
      · split
        · exact hu
        · split <;> simp [ih, hu]
      · extract_lets next v t
        clear_value next
        split
        · have hv : v.2.stage = s.stage := by simp [v, hu]
          split
          · exact hv
          · split <;> simp [ih, hv]
        · next b _ =>
          have ht : t.stage = s.stage := by simp [t, hu]
          split
          · next e => simp [ih, stage_of_snd e, feed_stage, ht]
          · next e => split <;> simp [stage_of_snd e, feed_stage, ht]
@[simp] theorem stockRun_stage (s : State) (x : Nat) (p : StockProg) : (stockRun s x p).stage = s.stage := by
  cases p <;> simp [stockRun, ↓State.stage_update]
@[simp] theorem execWaitWake_stays (x : CircId) (s : State) : Stays s (execWaitWake x s) := by
  unfold execWaitWake
  dsimp only
  split
  · simp
  · split <;> simp

end Sys2Proof.Machine
end

section
/-! PROOF. The functions of Sys2Proof/Machine/SeqCtl.lean leave the stage (O60). -/
namespace Sys2Proof.Machine

@[simp] theorem haltNow_stage (s : State) (x : Nat) : (haltNow s x).stage = s.stage := by simp [haltNow]
@[simp] theorem doHalt_stage (s : State) (x : Nat) : (doHalt s x).stage = s.stage := by
  unfold doHalt
  split <;> simp
@[simp] theorem doResume_stage (s : State) (x : Nat) : (doResume s x).stage = s.stage := by simp [doResume]
@[simp] theorem doStartSig_stage (s : State) (x : Nat) (sig : Bool) : (doStartSig s x sig).stage = s.stage := by simp [doStartSig]
@[simp] theorem doStart_stage (s : State) (x : Nat) : (doStart s x).stage = s.stage := by simp [doStart]
@[simp] theorem doSignal_stage (s : State) (x : Nat) : (doSignal s x).stage = s.stage := by simp [doSignal]
@[simp] theorem doSeqCtl_stage (s : State) (x : Nat) (halt resume start signal : Bool) :
    (doSeqCtl s x halt resume start signal).stage = s.stage := by
  simp [doSeqCtl]
@[simp] theorem endLdp_stage (s : State) (x d a : Nat) : (endLdp s x d a).stage = s.stage := by
  unfold endLdp
  split <;> simp
@[simp] theorem atFillEnd_stage (s : State) (x : Nat) : (atFillEnd s x).stage = s.stage := by
  unfold atFillEnd
  dsimp only
  split <;> simp
@[simp] theorem fillReady_stage (s : State) (x : Nat) : (fillReady s x).stage = s.stage := by
  unfold fillReady
  dsimp only
  split <;> simp
@[simp] theorem settleInv_stage (s : State) : (settleInv s).stage = s.stage := by simp [settleInv, ↓State.stage_update]
@[simp] theorem fillDone_stage (s : State) (la : Nat) (r : FillOut) : (fillDone s la r).stage = s.stage := by
  simp [fillDone, ↓State.stage_update]
@[simp] theorem doXipinv_stage (s : State) : (doXipinv s).stage = s.stage := by simp [doXipinv, ↓State.stage_update]
@[simp] theorem doLoad_stage (s : State) : (doLoad s).stage = s.stage := by simp [doLoad, ↓State.stage_update]
@[simp] theorem putEntry_stage (s : State) (e : Nat × Word) : (putEntry s e).stage = s.stage := by simp [putEntry]
@[simp] theorem execReloadDone_stays (s : State) : Stays s (execReloadDone s) := by
  unfold execReloadDone
  dsimp only
  split
  · simp
  · split <;> (next h => simp [stage_of_snd h, ↓State.stage_update])
@[simp] theorem startSys_stage (s : State) (k : Nat) : (startSys s k).stage = s.stage := by simp [startSys]
@[simp] theorem startSystem_stage (s : State) : (startSystem s).stage = s.stage := by simp [startSystem]

end Sys2Proof.Machine
end

section
/-! PROOF. The functions of Sys2Proof/Machine/Mailbox.lean leave the stage (O60). -/
namespace Sys2Proof.Machine

@[simp] theorem mbxTaken_stage (s : State) (sel : Nat) : (mbxTaken s sel).stage = s.stage := by simp [mbxTaken]
@[simp] theorem mbxStore_stage (s : State) (sel : Nat) (ws : List Word) : (mbxStore s sel ws).stage = s.stage := by
  unfold mbxStore
  split <;> simp [↓State.stage_update]
@[simp] theorem doMbxSelect_stage (s : State) (sel : Nat) : (doMbxSelect s sel).stage = s.stage := by
  simp [doMbxSelect, ↓State.stage_update]
@[simp] theorem doMbxRecapture_stage (s : State) : (doMbxRecapture s).stage = s.stage := by simp [doMbxRecapture, ↓State.stage_update]
@[simp] theorem putDat_stage (s : State) (ws : List Word) : (putDat s ws).stage = s.stage := by simp [putDat]
@[simp] theorem doMbxCapture_stage (s : State) : (doMbxCapture s).stage = s.stage := by simp [doMbxCapture, ↓State.stage_update]
@[simp] theorem doMbxData_stage (s : State) (i : Nat) (w : Word) : (doMbxData s i w).stage = s.stage := by simp [doMbxData]
@[simp] theorem doMbxWrite_stage (s : State) : (doMbxWrite s).stage = s.stage := by simp [doMbxWrite]

end Sys2Proof.Machine
end

section
/-! PROOF. The functions of Sys2Proof/Machine/Derived.lean leave the stage (O60). -/
namespace Sys2Proof.Machine

@[simp] theorem clearRc_stage (s : State) (a : Nat) (w : Word) : (clearRc s a w).stage = s.stage := by simp [clearRc]
@[simp] theorem normalRead_stage (s : State) (a : Nat) : (normalRead s a).2.stage = s.stage := by simp [normalRead, ↓State.stage_update]

end Sys2Proof.Machine
end

section
/-! PROOF. The functions of Sys2Proof/Machine/Journal.lean leave the stage (O60).
Where a function's text holds long sums or products, `simp only` leaves them alone: rewritten, they are slow for the kernel to check. -/
namespace Sys2Proof.Machine

@[simp] theorem putMemByte_stage (s : State) (m a : Nat) (b : Byte) : (putMemByte s m a b).stage = s.stage := by
  simp [putMemByte, ↓State.stage_update]
@[simp] theorem putMem_stage (s : State) (m a : Nat) (bs : List Byte) : (putMem s m a bs).stage = s.stage := by simp [putMem]
@[simp] theorem eraseFlash_stage (s : State) (a n : Nat) : (eraseFlash s a n).stage = s.stage := by simp [eraseFlash, ↓State.stage_update]
@[simp] theorem setHead_stage (s : State) (u i : Nat) : (setHead s u i).stage = s.stage := by simp [setHead]
@[simp] theorem programmed_stage (s : State) : (programmed s).stage = s.stage := by simp [programmed, ↓State.stage_update]
@[simp] theorem popJob_stage (s : State) : (popJob s).stage = s.stage := by
  unfold popJob
  dsimp only
  split <;> simp [↓State.stage_update]
@[simp] theorem advanceHead_stage (s : State) : (advanceHead s).stage = s.stage := by simp [advanceHead, ↓State.stage_update]
@[simp] theorem sealAtHead_stage (s : State) (r : JRec) : (sealAtHead s r).stage = s.stage := by simp [sealAtHead]
@[simp] theorem firstPhase_stage (s : State) : (firstPhase s).stage = s.stage := by
  unfold firstPhase
  extract_lets w record
  have hrecord (t : State) : (record t).stage = t.stage := by
    unfold record
    split
    · simp [↓State.stage_update]
    · split
      · simp [↓State.stage_update]
      · split <;> simp [↓State.stage_update]
  clear_value w record
  split
  · simp
  · simp
  · simp [hrecord, ↓State.stage_update]
  · simp [hrecord]
@[simp] theorem countCommitted_stage (s : State) : (countCommitted s).stage = s.stage := by simp [countCommitted, ↓State.stage_update]
@[simp] theorem secondPhase_stage (s : State) : (secondPhase s).stage = s.stage := by
  unfold secondPhase
  split
  · dsimp only
    split <;> simp [↓State.stage_update]
  · split
    · simp [↓State.stage_update]
    · simp
@[simp] theorem erased_stage (s : State) (a : Nat) : (erased s a).stage = s.stage := by
  unfold erased
  dsimp only
  split <;> simp [↓State.stage_update]
@[simp] theorem doFormat_stage (s : State) : (doFormat s).stage = s.stage := by simp [doFormat, ↓State.stage_update]
@[simp] theorem doJnlClrcnt_stage (s : State) : (doJnlClrcnt s).stage = s.stage := by simp [doJnlClrcnt]
@[simp] theorem takeScan_stage (s : State) (t : Scan) : (takeScan s t).stage = s.stage := by simp [takeScan, ↓State.stage_update]
@[simp] theorem useRing_stage (s : State) (m slot base units : Nat) : (useRing s m slot base units).stage = s.stage := by simp [useRing]
@[simp] theorem claimSlot_stage (s : State) (m slot : Nat) : (claimSlot s m slot).stage = s.stage := by
  simp only [claimSlot, setHead_stage, ↓State.stage_update, setBit_stage, useRing_stage]
@[simp] theorem noSlot_stage (s : State) : (noSlot s).stage = s.stage := by simp [noSlot]
@[simp] theorem settleClaim_stage (s : State) : (settleClaim s).stage = s.stage := by
  unfold settleClaim
  split <;> simp [↓State.stage_update]
@[simp] theorem scanJournal_stage (s : State) : (scanJournal s).stage = s.stage := by
  unfold scanJournal
  extract_lets m
  clear_value m
  split
  · simp
  · split
    · simp [↓State.stage_update]
    · next t _ _ _ =>
      have ht : t.stage = s.stage := by
        unfold t
        split
        · split <;> simp
        · rfl
      clear_value t
      split <;> simp [ht]
@[simp] theorem execJournalClaimVerify_stays (uid : BitVec 64) (s : State) : Stays s (execJournalClaimVerify uid s) := by
  unfold execJournalClaimVerify
  split <;> simp [↓State.stage_update]

end Sys2Proof.Machine
end

section
/-! PROOF. The functions of Sys2Proof/Machine/Memory.lean leave the stage (O60). -/
namespace Sys2Proof.Machine

@[simp] theorem execMemoryEntryStart_stays (s : State) (other : Bool) (high : BitVec 8) : Stays s (execMemoryEntryStart s other high) := by
  unfold execMemoryEntryStart
  split
  · simp
  · dsimp only
    split
    · simp [↓State.stage_update]
    · split <;> simp [↓State.stage_update]
@[simp] theorem endEntry_stage (s : State) : (endEntry s).stage = s.stage := by simp [endEntry, ↓State.stage_update]
@[simp] theorem execXipFillDone_stays (r : Fin 3) (s : State) : Stays s (execXipFillDone r s) := by
  unfold execXipFillDone
  split <;> simp [↓State.stage_update]
@[simp] theorem doMemGo_stage (s : State) : (doMemGo s).stage = s.stage := by simp [doMemGo, ↓State.stage_update]
@[simp] theorem periodWrites_stage (s : State) (m cmd addr : Nat) (dat : List Byte) : (periodWrites s m cmd addr dat).stage = s.stage := by
  simp [periodWrites, ↓State.stage_update]
@[simp] theorem runPeriod_stage (m : Nat) (din : List Word) (s : State) (p : List HWord) : (runPeriod m din s p).stage = s.stage := by
  unfold runPeriod
  dsimp only
  rw [periodWrites_stage]
  refine List.foldlRecOn (motive := fun r : Nat × State => r.2.stage = s.stage) _ _ rfl fun r h w _ => ?_
  split <;> simp [h]
@[simp] theorem runHostEntry_stage (s : State) (din : List Word) : (runHostEntry s din).stage = s.stage := by
  simp [runHostEntry, ↓State.stage_update]
@[simp] theorem chainDone_stage (s : State) (din : List Word) : (chainDone s din).stage = s.stage := by
  simp [chainDone, ↓State.stage_update]
@[simp] theorem chainCycle_stage (s : State) (din : List Word) : (chainCycle s din).stage = s.stage := by
  simp [chainCycle, ↓State.stage_update]
@[simp] theorem execMemEntryDone_stays (din : List Word) (s : State) : Stays s (execMemEntryDone din s) := by
  unfold execMemEntryDone
  split
  · simp
  · split
    · simp
    · simp
    · simp
    · simp
    · simp
    · simp
    · simp
    · simp [↓State.stage_update]
@[simp] theorem execFlashStatusPoll_stays (busy : Bool) (s : State) : Stays s (execFlashStatusPoll busy s) := by
  unfold execFlashStatusPoll
  split
  · simp
  · split
    · simp [↓State.stage_update]
    · split <;> simp
@[simp] theorem execFlashBusyTimeout_stays (s : State) : Stays s (execFlashBusyTimeout s) := by
  unfold execFlashBusyTimeout
  dsimp only
  split <;> simp [↓State.stage_update]
@[simp] theorem execFlashRetry_stays (s : State) : Stays s (execFlashRetry s) := by
  unfold execFlashRetry
  split <;> simp [↓State.stage_update]
@[simp] theorem noteCollision_stage (s : State) : (noteCollision s).stage = s.stage := by simp [noteCollision, ↓State.stage_update]
@[simp] theorem execMemCollision_stays (s : State) : Stays s (execMemCollision s) := by
  unfold execMemCollision
  split
  · simp [↓State.stage_update]
  · split <;> simp [↓State.stage_update]
@[simp] theorem doChaingo_stage (s : State) : (doChaingo s).stage = s.stage := by simp [doChaingo, ↓State.stage_update]
@[simp] theorem doMemClrcnt_stage (s : State) : (doMemClrcnt s).stage = s.stage := by simp [doMemClrcnt]
@[simp] theorem identify_stage (s : State) : (identify s).stage = s.stage := by
  unfold identify
  dsimp only
  split
  · split <;> simp
  · split <;> simp
@[simp] theorem attach_stage (s : State) (f : MemFit) : (attach s f).stage = s.stage := by simp [attach, ↓State.stage_update]

end Sys2Proof.Machine
end

section
/-! PROOF. The functions of Sys2Proof/Machine/Power.lean leave the stage (O60). -/
namespace Sys2Proof.Machine

@[simp] theorem doRstarm_stage (s : State) : (doRstarm s).stage = s.stage := by simp [doRstarm, ↓State.stage_power]
@[simp] theorem doDormant_stage (s : State) : (doDormant s).stage = s.stage := by simp [doDormant]
@[simp] theorem doDcancel_stage (s : State) : (doDcancel s).stage = s.stage := by simp [doDcancel]

end Sys2Proof.Machine
end

section
/-! PROOF. The functions of Sys2Proof/Machine/Strap.lean leave the stage (O60).
Where a function's text holds long sums or products, `simp only` leaves them alone: rewritten, they are slow for the kernel to check. -/
namespace Sys2Proof.Machine

@[simp] theorem settlePin_stage (s : State) (k mv : Nat) : (settlePin s k mv).2.stage = s.stage := by
  unfold settlePin
  dsimp only
  split
  · simp
  · split
    · simp
    · split
      · simp
      · split <;> simp
@[simp] theorem settlePins_stage (s : State) (l : List Nat) : (settlePins s l).2.stage = s.stage :=
  List.foldlRecOn (motive := fun r : Nat × State => r.2.stage = s.stage) _ _ rfl fun _ h _ _ => (settlePin_stage _ _ _).trans h
@[simp] theorem settleUnstable_stage (s : State) : (settleUnstable s).2.stage = s.stage := by
  refine List.foldlRecOn (motive := fun r : Nat × State => r.2.stage = s.stage) _ _ rfl fun r h k _ => ?_
  split <;> simp [h]
@[simp] theorem settleCodes_stage (s : State) (aux : Nat) : (settleCodes s aux).2.stage = s.stage := by
  unfold settleCodes
  split
  · simp
  · split
    · simp
    · dsimp only
      split <;> simp
@[simp] theorem resolveChain_stage (s : State) (a b : BitVec 256) : (resolveChain s a b).stage = s.stage := by
  simp only [resolveChain, State.stage_ite, journal_stage, setFld_stage, setBit_stage, stage_forEach, setReg_stage, ite_self,
    implies_true]
@[simp] theorem decodeLevels_stage (s : State) (lv : Nat) : (decodeLevels s lv).stage = s.stage := by simp [decodeLevels]
@[simp] theorem putCodes_stage (s : State) (aux : Nat) : (putCodes s aux).stage = s.stage := rfl
@[simp] theorem putReq_stage (s : State) : (putReq s).stage = s.stage := by
  unfold putReq
  dsimp only
  split <;> simp
@[simp] theorem resolveStraps_stage (s : State) (a b : BitVec 256) : (resolveStraps s a b).stage = s.stage := by
  unfold resolveStraps
  extract_lets old s1 r u x s2 s3 s4 s5 s6
  have h2 : s2.stage = s.stage := by simp [s2, x, u, r, s1]
  clear_value s2 old
  simp [s6, s5, s4, s3, h2]
@[simp] theorem writeLkg_stage (s : State) : (writeLkg s).stage = s.stage := by simp [writeLkg, ↓State.stage_update]
@[simp] theorem doMeasure_stage (s : State) : (doMeasure s).stage = s.stage := by simp [doMeasure, ↓State.stage_update]

end Sys2Proof.Machine
end

section
/-! PROOF. The functions of Sys2Proof/Machine/Mantle.lean leave the stage (O60). -/
namespace Sys2Proof.Machine

@[simp] theorem computeMantle_stage (s : State) : (computeMantle s).stage = s.stage := by simp [computeMantle, ↓State.stage_update]
@[simp] theorem mantleRecords_stage (s : State) : (mantleRecords s).stage = s.stage := by
  unfold mantleRecords
  extract_lets prof want s1 key mask s2 s3
  have h1 : s1.stage = s.stage := by simp [s1]
  have h2 : s2.stage = s.stage := by
    simp only [s2]
    split <;> simp [key, h1]
  have h3 : s3.stage = s.stage := by simp [s3, h2]
  split
  · exact h2
  · rw [stage_forEach, h3]
    intro t c
    split <;> simp
@[simp] theorem putMantle_stage (s : State) : (putMantle s).stage = s.stage := by simp [putMantle]
@[simp] theorem stageHeld_stage (s : State) (h : HeldCommit) : (stageHeld s h).stage = s.stage := by simp [stageHeld, ↓State.stage_update]
@[simp] theorem mantleRun_stage (s : State) (c : Nat) : (mantleRun s c).stage = s.stage := by simp [mantleRun]
@[simp] theorem startGroups_stage (s : State) : (startGroups s).stage = s.stage := by simp [startGroups]
@[simp] theorem doHandback_stage (s : State) : (doHandback s).stage = s.stage := by simp [doHandback, ↓State.stage_update]
@[simp] theorem restartHandback_stage (s : State) : (restartHandback s).stage = s.stage := by simp [restartHandback]

end Sys2Proof.Machine
end

section
/-! PROOF. The functions of Sys2Proof/Machine/Circuits.lean leave the stage (O60). -/
namespace Sys2Proof.Machine

@[simp] theorem noteServed_stage (s : State) (l : List Requester) (r : Requester) : (noteServed s l r).stage = s.stage := by
  unfold noteServed
  split <;> simp [↓State.stage_update]
@[simp] theorem allocFor_stage (s : State) (r : Requester) : (allocFor s r).stage = s.stage := by
  cases r <;> simp [allocFor]
@[simp] theorem execCellAllocate_stays (l : List Requester) (s : State) : Stays s (execCellAllocate l s) := by
  unfold execCellAllocate
  dsimp only
  split <;> simp
@[simp] theorem execCreditTableTimer_stays (dev : BitVec 12) (rc owner : CircId) (s : State) : Stays s (execCreditTableTimer dev rc owner s) := by
  unfold execCreditTableTimer
  dsimp only
  split <;> simp [↓State.stage_update]
@[simp] theorem doCut_stage (s : State) (c : Nat) : (doCut s c).stage = s.stage := by simp [doCut]
@[simp] theorem doRestart_stage (s : State) (c : Nat) : (doRestart s c).stage = s.stage := by simp [doRestart]
@[simp] theorem doCircuitClrcnt_stage (s : State) (c : Nat) : (doCircuitClrcnt s c).stage = s.stage := by simp [doCircuitClrcnt]
@[simp] theorem retireCell_stage (s : State) (i : Nat) : (retireCell s i).stage = s.stage := by simp [retireCell]
@[simp] theorem loseChunk_stage (s : State) (i : Nat) : (loseChunk s i).stage = s.stage := by simp [loseChunk, ↓State.stage_update]
@[simp] theorem dropSystem_stage (s : State) (i : Nat) : (dropSystem s i).stage = s.stage := by
  unfold dropSystem
  split
  · simp
  · split
    · simp [↓State.stage_update]
    · simp
@[simp] theorem poisonCell_stage (s : State) (i w : Nat) : (poisonCell s i w).stage = s.stage := by
  unfold poisonCell
  dsimp only
  split <;> simp
@[simp] theorem loseCell_stage (s : State) (i : Nat) : (loseCell s i).stage = s.stage := by
  unfold loseCell
  dsimp only
  split <;> simp [↓State.stage_update]
@[simp] theorem noteStuck_stage (s : State) (m a : Nat) : (noteStuck s m a).stage = s.stage := by simp [noteStuck]
@[simp] theorem rememberCorrected_stage (s : State) (m a : Nat) : (rememberCorrected s m a).stage = s.stage := by
  simp [rememberCorrected, ↓State.stage_update]
@[simp] theorem scrubCorrect_stage (s : State) (m a : Nat) (wrote : Bool) : (scrubCorrect s m a wrote).stage = s.stage := by
  simp [scrubCorrect]
@[simp] theorem scrubRead_stage (s : State) (m a : Nat) (w : Bool) (r : EccRead) : (scrubRead s m a w r).stage = s.stage := by
  cases r <;> simp [scrubRead, ↓State.stage_update]
@[simp] theorem takeUpset_stage (s : State) (u : Upset) : (takeUpset s u).stage = s.stage := by
  cases u <;> simp [takeUpset, ↓State.stage_update]
@[simp] theorem doFull_stage (s : State) : (doFull s).stage = s.stage := by simp [doFull, ↓State.stage_update]
@[simp] theorem doIntegrityClrcnt_stage (s : State) : (doIntegrityClrcnt s).stage = s.stage := by simp [doIntegrityClrcnt]

end Sys2Proof.Machine
end

section
/-! PROOF. The functions of Sys2Proof/Machine/Supervise.lean leave the stage (O60). -/
namespace Sys2Proof.Machine

@[simp] theorem noteWake_stage (s : State) (b : Nat) : (noteWake s b).stage = s.stage := by
  simp [noteWake, ↓State.stage_power]
@[simp] theorem execVoltageMeasure_stays (vddio vbat : BitVec 12) (s : State) : Stays s (execVoltageMeasure vddio vbat s) := by
  unfold execVoltageMeasure
  split
  · simp
  · dsimp only
    split
    · simp
    · split
      · split
        · simp [↓State.stage_update]
        · simp
      · simp [↓State.stage_update]
@[simp] theorem unglove_stage (s : State) (n : Nat) : (unglove s n).stage = s.stage := by simp [unglove]
@[simp] theorem doSupRelease_stage (s : State) (ports : Nat) : (doSupRelease s ports).stage = s.stage := by simp [doSupRelease]
@[simp] theorem auditStraps_stage (s : State) (r : List (Conversions × Conversions)) : (auditStraps s r).2.stage = s.stage := by
  simp [auditStraps]
@[simp] theorem auditMemory_stage (s : State) (mem : List (Fin 151552 × EccRead)) : (auditMemory s mem).2.stage = s.stage := by
  unfold auditMemory
  extract_lets r t pool u
  have h : r.2.stage = s.stage :=
    List.foldlRecOn (motive := fun t : Found × State => t.2.stage = s.stage) _ _ rfl fun t h e _ => (scrubRead_stage _ _ _ _ _).trans h
  simp [u, t, h, ↓State.stage_update]
@[simp] theorem auditVerdict_stage (s : State) (kind dis ports retired : Nat) (f : Found) :
    (auditVerdict s kind dis ports retired f).stage = s.stage := by
  simp [auditVerdict, ↓State.stage_update]
@[simp] theorem runAudit_stage (s : State) (kind ports : Nat) (straps : List (Conversions × Conversions)) (mem : List (Fin 151552 × EccRead)) :
    (runAudit s kind ports straps mem).stage = s.stage := by
  simp [runAudit]
@[simp] theorem beginAudit_stage (s : State) (kind : Nat) : (beginAudit s kind).stage = s.stage := by simp [beginAudit, ↓State.stage_update]
@[simp] theorem doAudit_stage (s : State) : (doAudit s).stage = s.stage := by simp [doAudit]
@[simp] theorem doAck_stage (s : State) : (doAck s).stage = s.stage := by simp [doAck]
@[simp] theorem doLamptest_stage (s : State) : (doLamptest s).stage = s.stage := by simp [doLamptest, ↓State.stage_update]
@[simp] theorem doSupClrcnt_stage (s : State) : (doSupClrcnt s).stage = s.stage := by simp [doSupClrcnt]

end Sys2Proof.Machine
end

section
/-! PROOF. The functions of Sys2Proof/Machine/StartUp.lean leave the stage (O60). -/
namespace Sys2Proof.Machine

@[simp] theorem putProvisional_stage (s : State) : (putProvisional s).stage = s.stage := by simp [putProvisional]
@[simp] theorem takeNonces_stage (s : State) : (takeNonces s).stage = s.stage := by simp [takeNonces, ↓State.stage_update]
@[simp] theorem loseStaged_stage (s : State) : (loseStaged s).stage = s.stage := by simp [loseStaged, ↓State.stage_update]
@[simp] theorem startSeqs_stage (s : State) : (startSeqs s).stage = s.stage := by simp [startSeqs]
@[simp] theorem cutPort_stage (s : State) (n : Nat) : (cutPort s n).stage = s.stage := by simp [cutPort]
@[simp] theorem unlock_stage (s : State) : (unlock s).stage = s.stage := by
  unfold unlock
  dsimp only
  split <;> simp [↓State.stage_power]
@[simp] theorem doWake_stage (s : State) (src : BitVec 20) : (doWake s src).stage = s.stage := by simp [doWake, ↓State.stage_update]
@[simp] theorem rejoin_stage (s : State) (ch : Nat) : (rejoin s ch).stage = s.stage := by simp [rejoin]

end Sys2Proof.Machine
end

section
/-! PROOF. The functions of Sys2Proof/Machine/Strobes.lean leave the stage (O60). -/
namespace Sys2Proof.Machine

@[simp] theorem doHostClrcnt_stage (s : State) : (doHostClrcnt s).stage = s.stage := by simp [doHostClrcnt]
@[simp] theorem onBit_stage {f : State → State} (h : ∀ t, (f t).stage = t.stage) (w : Word) (i : Nat) (s : State) :
    (onBit w i f s).stage = s.stage := by
  simp [onBit, h]
@[simp] theorem iramWritten_stage (s : State) (i : Nat) : (iramWritten s i).stage = s.stage := by simp [iramWritten, ↓State.stage_update]
@[simp] theorem strobeHigh_stage (s : State) (a : Nat) (w : Word) : (strobeHigh s a w).stage = s.stage := by
  unfold strobeHigh
  split <;> simp

end Sys2Proof.Machine
end

section
/-! PROOF. The functions of Sys2Proof/Machine/Host.lean leave the stage (O60). -/
namespace Sys2Proof.Machine

@[simp] theorem hostErr_stage (s : State) (k lo b : Nat) : (hostErr s k lo b).stage = s.stage := by simp [hostErr]
@[simp] theorem setRej_stage (s : State) (b : Bool) : (setRej s b).stage = s.stage := by simp [setRej, ↓State.stage_update]
@[simp] theorem refused_stage (s : State) (again : Bool) : (refused s again).stage = s.stage := by simp [refused]
@[simp] theorem judgePush_stage (s : State) (h1 : Word) : (judgePush s h1).2.2.stage = s.stage := by
  unfold judgePush
  dsimp only
  split
  · rfl
  · split
    · rfl
    · split <;> (next h => simp [stage_of_snd h])
@[simp] theorem lostPush_stage (s : State) (h0 h1 : Word) : (lostPush s h0 h1).stage = s.stage := by
  unfold lostPush
  split
  · rfl
  · split <;> (next h => simp [stage_of_trd h])
@[simp] theorem pushWrite_stage (s : State) (i : Nat) (bs : List Byte) (u : Option Nat) : (pushWrite s i bs u).2.stage = s.stage := by
  cases u <;> simp [pushWrite]
@[simp] theorem runPush_stage (s : State) (h1 : Word) (d : List Word) (u : Option Nat) : (runPush s h1 d u).2.stage = s.stage := by
  unfold runPush
  dsimp only
  split
  · next h => simp [stage_of_trd h]
  · next h => split <;> (next k => simp [stage_of_trd h, stage_of_snd k, ↓State.stage_update])
@[simp] theorem acceptFrame_stage (s : State) (tag : Nat) : (acceptFrame s tag).stage = s.stage := by
  simp [acceptFrame, ↓State.stage_update]
@[simp] theorem keepReply_stage (r : Reply) (s : State) : (keepReply r s).stage = s.stage := by simp [keepReply, ↓State.stage_update]
/-- A host frame leaves it where its command does. -/
theorem framed_keeps {body : State → Reply × State} (h : ∀ t, t.startUpOrder → (body t).2.startUpOrder) (f : HostFrame) {s : State}
    (hs : s.startUpOrder) : (framed s f body).startUpOrder := by
  have kept {t : State} (h : t.stage = s.stage) : t.startUpOrder := State.startUpOrder_of_stage h hs
  unfold framed
  extract_lets host1 s1 s2 host2 r s3 s4 q
  have h1 : s1.stage = s.stage := by simp [s1, ↓State.stage_update]
  have h2 : s2.stage = s.stage := by simp [s2, h1]
  split
  · exact kept (by simp [h1])
  · split
    · exact kept (by simp [h2, ↓State.stage_update])
    · split
      · exact kept (by simp [s3, h2, ↓State.stage_update])
      · have h4 : (acceptFrame s4 (fTag f)).stage = s.stage := by simp [s4, h2, ↓State.stage_update]
        exact State.startUpOrder_of_stage (keepReply_stage _ _) (h _ (kept h4))
@[simp] theorem hostCmd_keeps {body : State → Reply × State} (h : ∀ t, t.startUpOrder → (body t).2.startUpOrder) (op : Nat) (f : HostFrame)
    (s : State) : Keeps s (hostCmd op f s body) :=
  .ite (fun _ => .next (framed_keeps h f)) fun _ => .next id
@[simp] theorem readWords_stage (s : State) (l : List Nat) : (readWords s l).2.stage = s.stage := by
  induction l generalizing s with
  | nil => rfl
  | cons a t ih => simp [readWords, ih]
@[simp] theorem servePull_stage (s : State) (c : Nat) : (servePull s c).stage = s.stage := by simp [servePull, ↓State.stage_update]
@[simp] theorem issueToken_stage (s : State) (c i : Nat) : (issueToken s c i).2.stage = s.stage := by simp [issueToken, ↓State.stage_update]
@[simp] theorem findPull_stage (any : Bool) (c n : Nat) (s : State) : (findPull any c n s).2.stage = s.stage := by
  induction n generalizing c s with
  | zero => rfl
  | succ n ih =>
    unfold findPull
    split
    · rfl
    · next c _ =>
      extract_lets got
      have h : got.2.stage = s.stage := by
        simp only [got]
        split
        · rfl
        · split <;> simp
      clear_value got
      split
      · exact h
      · dsimp only
        split
        · simp_all
        · split <;> simp_all
@[simp] theorem pullUpset_stage (s : State) (c i : Nat) (u : CopyUpset) : (pullUpset s c i u).stage = s.stage := by
  cases u <;> simp [pullUpset]
@[simp] theorem failPull_stage (s : State) (c tok i : Nat) (stale : Bool) (u : CopyUpset) : (failPull s c tok i stale u).2.stage = s.stage := by
  simp [failPull]
@[simp] theorem runPull_stage (s : State) (h1 : Word) (u : Option CopyUpset) : (runPull s h1 u).2.stage = s.stage := by
  unfold runPull
  extract_lets ack any c held stale t
  clear_value held
  have ht : t.stage = s.stage := by simp only [t]; split <;> simp
  split
  · exact ht
  · split
    · next h => simp [stage_of_snd h, ht]
    · next h => split <;> simp [stage_of_snd h, ht]
@[simp] theorem stageCells_stage (n : Nat) (s : State) : (stageCells n s).2.stage = s.stage := by
  induction n generalizing s with
  | zero => rfl
  | succ n ih =>
    unfold stageCells
    split
    · next h => simp [stage_of_snd h]
    · next h => split <;> (next k => simp [stage_of_snd k, stage_of_snd h, ih])
@[simp] theorem snapStart_stage (s : State) (start : Bool) : (snapStart s start).stage = s.stage := by simp [snapStart, ↓State.stage_update]
@[simp] theorem runSnap_stage (s : State) (b : Bool) (n i k : Nat) : (runSnap s b n i k).2.stage = s.stage := by
  unfold runSnap
  split <;> (next h => simp [stage_of_snd h, ↓State.stage_update])
@[simp] theorem loadStatus_stage (s : State) : (loadStatus s).stage = s.stage := by simp [loadStatus, ↓State.stage_update]
@[simp] theorem chainCmd_keeps {body : BitVec 64 → State → Reply × State} (h : ∀ b t, t.startUpOrder → (body b t).2.startUpOrder)
    (p : BitVec 64 → Bool) (s : State) : Keeps s (chainCmd s p body) := by
  unfold chainCmd
  split
  · exact .next id
  · next k _ =>
    extract_lets host1 t r reply a
    have ht : t.stage = s.stage := by simp [t, ↓State.stage_update]
    refine .ite (fun _ => .next id) fun _ => .ite (fun _ => .next (State.startUpOrder_of_stage (by simp [ht]))) fun _ => ?_
    have hr (hs : s.startUpOrder) : r.2.startUpOrder := h _ _ (State.startUpOrder_of_stage (by simp [ht]) hs)
    exact .ite (fun _ => .next fun hs => State.startUpOrder_of_stage (s := r.2) rfl (hr hs)) fun _ => .next hr
@[simp] theorem execChainAgain_stays (s : State) : Stays s (execChainAgain s) := by
  unfold execChainAgain
  split <;> simp [↓State.stage_update]
@[simp] theorem illegalReply_stage (s : State) : (illegalReply s).2.stage = s.stage := by simp [illegalReply]
@[simp] theorem beginFrame_stage (s : State) : (beginFrame s).stage = s.stage := by simp [beginFrame, ↓State.stage_update]
@[simp] theorem endBroken_stage (s : State) (words : List Word) (part : Bool) : (endBroken s words part).stage = s.stage := by
  unfold endBroken
  dsimp only
  split <;> simp
@[simp] theorem endJudged_stage (s : State) (frag surplus : Bool) (late : List Nat) : (endJudged s frag surplus late).stage = s.stage := by
  unfold endJudged
  dsimp only
  split <;> simp [↓State.stage_update]
@[simp] theorem endChain_stage (s : State) (m : Nat) (bits : BitVec 64) : (endChain s m bits).stage = s.stage := by
  simp [endChain, ↓State.stage_update]
@[simp] theorem endFrameHost_stage (s : State) (e : HostEnd) : (endFrameHost s e).stage = s.stage := by
  cases e <;> simp [endFrameHost]
@[simp] theorem execHostReplyComplete_stays (s : State) : Stays s (execHostReplyComplete s) := by
  unfold execHostReplyComplete
  split
  · simp
  · dsimp only
    split <;> simp [↓State.stage_update]

end Sys2Proof.Machine
end

section
/-! PROOF. The functions of Sys2Proof/Machine/Second.lean leave the stage (O60). -/
namespace Sys2Proof.Machine

@[simp] theorem boundaryEffects_stage (s : State) : (boundaryEffects s).stage = s.stage := by simp [boundaryEffects]
@[simp] theorem elapseTimers_stage (s : State) (n : Nat) : (elapseTimers s n).stage = s.stage := by simp [elapseTimers]
@[simp] theorem execTimeStep_stays (s : State) : Stays s (execTimeStep s) := by
  unfold execTimeStep
  split <;> simp [↓State.stage_update]
@[simp] theorem idleTick_stage (s : State) : (idleTick s).stage = s.stage := by simp [idleTick, ↓State.stage_update]

end Sys2Proof.Machine
end

section
/-! PROOF. The order of Table 4-6 (O60): each step of start-up, each reset and each register write keeps it. -/
namespace Sys2Proof.Machine

/-! ## The order of Table 4-6 on the progress alone -/

/-- The order of Table 4-6 for a progress, the power-on release and the supply's level. -/
def Boot.inOrder (b : Boot) (released low : Bool) : Prop :=
  (b.started = true → released = true ∧ low = false) ∧ (b.strapped = true → b.started = true ∧ b.factory = false) ∧
  (b.hostUp = true → b.strapped = true) ∧ b.memUp = b.hostUp ∧ (b.scanned = true → b.memUp = true) ∧
  (b.imaged = true → b.scanned = true) ∧ (b.audited = true → b.scanned = true) ∧
  (b.mantled = true → b.imaged = true ∧ (b.brownout = true → b.audited = true)) ∧ (b.live = true → b.mantled = true)

theorem State.startUpOrder_iff (s : State) : s.startUpOrder ↔ s.boot.inOrder s.power.released s.power.low := .rfl

/-- A reset leaves no step taken. -/
theorem Boot.inOrder_reset (brown released low : Bool) : Boot.inOrder { brownout := brown } released low := by simp [Boot.inOrder]

section
variable {b : Boot} {released low : Bool} (h : b.inOrder released low)
include h

/-- Before the release of reset no step is taken. -/
theorem Boot.inOrder.unstarted (hs : b.started = false) : b.strapped = false ∧ b.hostUp = false ∧ b.memUp = false ∧ b.scanned = false ∧
    b.imaged = false ∧ b.audited = false ∧ b.mantled = false ∧ b.live = false := by
  grind [Boot.inOrder]

/-- While the supply is low or not released nothing has started. -/
theorem Boot.inOrder.not_started (hr : released = false ∨ low = true) : b.started = false := by grind [Boot.inOrder]
/-- So the supply may come and go, and its release settle the cause. -/
theorem Boot.inOrder.power (hr : released = false ∨ low = true) (brown r l : Bool) : Boot.inOrder { b with brownout := brown } r l := by
  have := h.unstarted (h.not_started hr)
  have := h.not_started hr
  simp_all [Boot.inOrder]
theorem Boot.inOrder.start (hr : released = true) (hl : low = false) (hs : b.started = false) (tm : Bool) :
    Boot.inOrder { b with started := true, factory := tm } released low := by
  have := h.unstarted hs
  simp_all [Boot.inOrder]
theorem Boot.inOrder.strap (hs : b.started = true) (hf : b.factory = false) : Boot.inOrder { b with strapped := true } released low := by
  grind [Boot.inOrder]
theorem Boot.inOrder.retry (n : Nat) : Boot.inOrder { b with retrying := true, retries := n } released low := h
theorem Boot.inOrder.hostUp (hs : b.strapped = true) :
    Boot.inOrder { b with hostUp := true, memUp := true, retrying := false } released low := by
  grind [Boot.inOrder]
theorem Boot.inOrder.scan (hm : b.memUp = true) : Boot.inOrder { b with scanned := true } released low := by grind [Boot.inOrder]
theorem Boot.inOrder.image (hs : b.scanned = true) : Boot.inOrder { b with imaged := true } released low := by grind [Boot.inOrder]
theorem Boot.inOrder.audit (hs : b.scanned = true) : Boot.inOrder { b with audited := true } released low := by grind [Boot.inOrder]
theorem Boot.inOrder.mantle (hi : b.imaged = true) (ha : b.brownout = true → b.audited = true) :
    Boot.inOrder { b with mantled := true } released low := by
  grind [Boot.inOrder]
theorem Boot.inOrder.goLive (hm : b.mantled = true) : Boot.inOrder { b with live := true } released low := by grind [Boot.inOrder]
end

theorem State.boot_of_stage {s t : State} (h : t.stage = s.stage) : t.boot = s.boot := congrArg Prod.fst h
/-- A change of the progress leaves the supply. -/
theorem State.stage_boot (s : State) (b : Boot) : State.stage { s with boot := b } = (b, s.stage.2) := rfl
/-- A state whose progress is in order for the supply of `s` keeps the order. -/
theorem State.startUpOrder_of_boot {s t : State} {b : Boot} (h : t.stage = (b, s.stage.2)) (hb : b.inOrder s.power.released s.power.low) :
    t.startUpOrder := by
  obtain ⟨rfl, hr, hl⟩ : t.boot = b ∧ t.power.released = s.power.released ∧ t.power.low = s.power.low := by simpa [State.stage] using h
  rwa [State.startUpOrder_iff, hr, hl]

/-! ## Resets (R113 to R116) -/

theorem assertReset_startUpOrder (s : State) (c : Nat) : (assertReset s c).startUpOrder := Boot.inOrder_reset _ _ _
theorem coincidentReset_boot (s : State) (c : Nat) (b : Bool) : (coincidentReset s c b).boot = { brownout := inReset s && s.boot.brownout } := by
  unfold coincidentReset
  dsimp only
  split <;> simp [assertReset]
theorem coincidentReset_inOrder (s : State) (c : Nat) (b r l : Bool) : (coincidentReset s c b).boot.inOrder r l := by
  rw [coincidentReset_boot]
  exact Boot.inOrder_reset _ _ _
theorem doRstgo_startUpOrder {s : State} (hs : s.startUpOrder) : (doRstgo s).startUpOrder :=
  iteInduction (fun _ => assertReset_startUpOrder s 4) fun _ => hs
theorem viaHost_startUpOrder {f : State → State} {s : State} (h : s.startUpOrder → (f s).startUpOrder) (hs : s.startUpOrder) :
    (viaHost s f).startUpOrder := iteInduction (fun _ => h hs) fun _ => hs

theorem execSupplyBelow_keeps (s : State) (b : Bool) : Keeps s (execSupplyBelow s b) := .next fun _ => coincidentReset_inOrder s 0 b _ _
theorem execPinReset_keeps (s : State) (b : Bool) : Keeps s (execPinReset s b) := .next fun _ => coincidentReset_inOrder s 2 b _ _
theorem execClockFailReset_keeps (s : State) : Keeps s (execClockFailReset s) :=
  .ite (fun _ => .next fun _ => assertReset_startUpOrder s 5) fun _ => .next id
theorem execWatchdogReset_keeps (late : BitVec 8) (s : State) : Keeps s (execWatchdogReset late s) :=
  .ite (fun _ => .next fun _ => assertReset_startUpOrder _ 3) fun _ => .next id
theorem execRstgo_keeps (s : State) : Keeps s (execRstgo s) := .next (viaHost_startUpOrder doRstgo_startUpOrder)

/-! ## The steps of Table 4-6 -/

theorem execSupplyAbove_keeps (s : State) : Keeps s (execSupplyAbove s) :=
  .ite (fun low => .next fun hs => Boot.inOrder.power hs (.inr low) _ _ _) fun _ => .next id
theorem execPowerOnRelease_keeps (bat kept : Bool) (s : State) (xtal : Bool) : Keeps s (execPowerOnRelease bat kept s xtal) := by
  unfold execPowerOnRelease
  split
  · exact .next id
  · next guard =>
    have held : s.power.released = false := by simp_all
    extract_lets h supply brown h' power boot u recent
    have hu (hs : s.startUpOrder) : u.startUpOrder := Boot.inOrder.power hs (.inl held) _ _ _
    exact .next fun hs => State.startUpOrder_of_stage (by simp) (hu hs)
theorem execResetRelease_keeps (tm : Bool) (aux : BitVec 8) (s : State) : Keeps s (execResetRelease tm aux s) := by
  unfold execResetRelease
  split
  · exact .next id
  · next guard =>
    simp only [Bool.or_eq_true, not_or, Bool.not_eq_true, Bool.not_eq_false'] at guard
    obtain ⟨⟨low, released⟩, started⟩ := guard
    extract_lets power boot u
    have hu (hs : s.startUpOrder) : u.startUpOrder := Boot.inOrder.start hs released low started tm
    exact .next fun hs => iteInduction (motive := State.startUpOrder) (fun _ => hu hs) fun _ => hu hs
theorem latchStraps_stage (s : State) : (latchStraps s).stage = ({ s.boot with strapped := true }, s.stage.2) := rfl
theorem execStrapSlotEnd_keeps (conv : Conversions) (aux : BitVec 8) (s : State) : Keeps s (execStrapSlotEnd conv aux s) := by
  unfold execStrapSlotEnd
  extract_lets mv st mvs latch again u
  split
  · exact .next id
  · next guard =>
    simp only [Bool.or_eq_true, not_or, Bool.not_eq_true, Bool.not_eq_false'] at guard
    obtain ⟨⟨started, -⟩, factory⟩ := guard
    have latched {t : State} (h : t.stage = s.stage) (c : Bool) : Keeps s (.next (if c then latchStraps t else t)) := by
      refine .next fun hs => iteInduction (motive := State.startUpOrder) (fun _ => ?_) fun _ => State.startUpOrder_of_stage h hs
      refine State.startUpOrder_of_boot (s := s) ?_ (Boot.inOrder.strap hs started factory)
      rw [latchStraps_stage, h, State.boot_of_stage h]
    refine .ite (fun _ => .ite (fun _ => .next (State.startUpOrder_of_stage (s := s) rfl)) fun _ => latched (t := u) rfl _) fun _ => ?_
    split
    · exact .next id
    · extract_lets u
      exact latched (t := u) rfl _
theorem execRootStartRetry_keeps (s : State) : Keeps s (execRootStartRetry s) := by
  unfold execRootStartRetry
  split
  · extract_lets boot u
    have hu (hs : s.startUpOrder) : u.startUpOrder := Boot.inOrder.retry hs _
    exact .next fun hs => State.startUpOrder_of_stage (by simp) (hu hs)
  · exact .next id
@[simp] theorem bringUp_stage (fit : Option MemFit) (s : State) : (bringUp fit s).stage = s.stage := by
  unfold bringUp
  cases fit <;> simp
theorem execPllLocked_keeps (fit : Option MemFit) (s : State) : Keeps s (execPllLocked fit s) := by
  unfold execPllLocked
  refine .ite (fun _ => .next (State.startUpOrder_of_stage (by simp))) fun _ => ?_
  split
  · exact .next id
  · next guard =>
    have strapped : s.boot.strapped = true := by simp_all
    extract_lets u boot v
    have hu : u.stage = s.stage := by simp [u]
    refine .next fun hs => State.startUpOrder_of_boot (s := s) ((bringUp_stage fit v).trans ?_) (Boot.inOrder.hostUp hs strapped)
    rw [State.stage_boot, hu, show boot = s.boot from State.boot_of_stage hu]
theorem execJournalBootScan_keeps (a b : BitVec 256) (s : State) : Keeps s (execJournalBootScan a b s) := by
  unfold execJournalBootScan
  split
  · exact .next id
  · next guard =>
    have memUp : s.boot.memUp = true := by simp_all
    extract_lets u boot v1 v2 v3 v4 v5
    have hu : u.stage = s.stage := scanJournal_stage s
    have h1 : v1.stage = ({ s.boot with scanned := true }, s.stage.2) := by
      simp only [v1, startSeqs_stage, loseStaged_stage]
      rw [State.stage_boot, hu, show boot = s.boot from State.boot_of_stage hu]
    refine .next fun hs => State.startUpOrder_of_boot (s := s) ?_ (Boot.inOrder.scan hs memUp)
    simp [v5, v4, v3, v2, h1]
theorem execImageLoad_keeps (s : State) : Keeps s (execImageLoad s) := by
  unfold execImageLoad
  split
  · exact .next id
  · next guard =>
    have scanned : s.boot.scanned = true := by simp_all
    extract_lets boot u
    have hu (hs : s.startUpOrder) : u.startUpOrder := Boot.inOrder.image hs scanned
    refine .ite (fun _ => .next hu) fun _ => ?_
    split <;> (next h => exact .next fun hs => State.startUpOrder_of_stage (by simp [stage_of_snd h, ↓State.stage_update]) (hu hs))
theorem execSelfAudit_keeps (straps : List (Conversions × Conversions)) (mem : List (Fin 151552 × EccRead)) (loops : List (List (Byte × Fin 4)))
    (s : State) : Keeps s (execSelfAudit straps mem loops s) := by
  unfold execSelfAudit
  split
  · exact .next id
  · next guard =>
    have scanned : s.boot.scanned = true := by simp_all
    extract_lets bad u boot
    have hu : u.stage = s.stage := by simp [u]
    refine .next fun hs => State.startUpOrder_of_boot (s := s) ?_ (Boot.inOrder.audit hs scanned)
    rw [State.stage_boot, hu, show boot = s.boot from State.boot_of_stage hu]
theorem execMantleApply_keeps (s : State) : Keeps s (execMantleApply s) := by
  unfold execMantleApply
  split
  · exact .next id
  · next guard =>
    simp only [Bool.not_eq_true', Bool.not_eq_false, Bool.and_eq_true, Bool.or_eq_true] at guard
    obtain ⟨⟨⟨imaged, -⟩, verdict⟩, -⟩ := guard
    extract_lets u held prof boot strap v commit w w1 w2
    have hu : u.stage = s.stage := by simp [u]
    have hv : w.stage = ({ s.boot with mantled := true }, s.stage.2) := by
      rw [← hu, ← State.boot_of_stage hu]
      rfl
    refine .next fun hs => State.startUpOrder_of_boot (s := s) ?_ (Boot.inOrder.mantle hs imaged ?_)
    · simp [w2, w1, hv]
    · exact fun h => verdict.resolve_left (by simp [h])
theorem execPortsLive_keeps (s : State) : Keeps s (execPortsLive s) := by
  unfold execPortsLive
  split
  · exact .next id
  · next guard =>
    have mantled : s.boot.mantled = true := by simp_all
    extract_lets hold boot commit sup u u1 u2 u3 u4
    have hu (hs : s.startUpOrder) : u.startUpOrder := Boot.inOrder.goLive hs mantled
    refine .next fun hs => State.startUpOrder_of_stage ?_ (hu hs)
    simp [u4, u3, u2, u1]

/-! ## Register writes, which may reset -/

theorem strobeClk_startUpOrder {s : State} (hs : s.startUpOrder) (w : Word) : (strobeClk s w).startUpOrder :=
  iteInduction (fun _ => doRstgo_startUpOrder hs) fun _ => State.startUpOrder_of_stage (by simp) hs
theorem strobeLow_startUpOrder {s : State} (hs : s.startUpOrder) (a : Nat) (w mask : Word) : (strobeLow s a w mask).startUpOrder := by
  have kept {t : State} (h : t.stage = s.stage) : t.startUpOrder := State.startUpOrder_of_stage h hs
  unfold strobeLow
  split
  case h_5 => exact strobeClk_startUpOrder hs w
  all_goals exact kept (by simp)
theorem strobes_startUpOrder {s : State} (hs : s.startUpOrder) (a : Nat) (w mask : Word) : (strobes s a w mask).startUpOrder := by
  unfold strobes
  refine iteInduction (fun _ => hs) fun _ => iteInduction (fun _ => strobeLow_startUpOrder hs a w mask) fun _ => ?_
  exact State.startUpOrder_of_stage (by simp) hs
theorem writeWord_startUpOrder {s : State} (hs : s.startUpOrder) (a : Nat) (w mask : Word) : (writeWord s a w mask).startUpOrder :=
  strobes_startUpOrder (State.startUpOrder_of_stage (writeRW_stage s a w mask) hs) a w mask
theorem writeWords_startUpOrder {s : State} (hs : s.startUpOrder) (l : List (Nat × Word)) : (writeWords s l).startUpOrder := by
  induction l generalizing s with
  | nil => exact hs
  | cons e t ih =>
    have hw := writeWord_startUpOrder hs e.1 e.2 0xFFFFFFFF#32
    exact iteInduction (motive := State.startUpOrder) (fun _ => ih hw) fun _ => hw
theorem rmwWord_startUpOrder {s : State} (hs : s.startUpOrder) (a : Nat) (mask v : Word) : (rmwWord s a mask v).2.startUpOrder :=
  writeWord_startUpOrder (State.startUpOrder_of_stage (normalRead_stage s a) hs) _ _ _
theorem doMbxCapture_startUpOrder {s : State} (hs : s.startUpOrder) : (doMbxCapture s).startUpOrder :=
  State.startUpOrder_of_stage (doMbxCapture_stage s) hs

theorem execRegisterWrite_keeps (a : BitVec 16) (w : Word) (s : State) : Keeps s (execRegisterWrite a w s) :=
  .next (viaHost_startUpOrder fun hs => writeWord_startUpOrder hs _ _ _)
theorem execIramWindowWrite_keeps (i : Fin 16384) (w : Word) (s : State) : Keeps s (execIramWindowWrite i w s) :=
  .next (viaHost_startUpOrder fun hs => writeWord_startUpOrder hs _ _ _)
theorem execHostWr_keeps (f : HostFrame) (s : State) : Keeps s (execHostWr f s) := hostCmd_keeps (fun _ ht => writeWords_startUpOrder ht _) _ _ _
theorem execHostRmw_keeps (f : HostFrame) (s : State) : Keeps s (execHostRmw f s) := hostCmd_keeps (fun _ ht => rmwWord_startUpOrder ht _ _ _) _ _ _
theorem execHostMbxRead_keeps (f : HostFrame) (s : State) : Keeps s (execHostMbxRead f s) :=
  .ite (fun _ => .next id) fun _ => hostCmd_keeps (fun _ ht => doMbxCapture_startUpOrder (writeWord_startUpOrder ht _ _ _)) _ _ _
theorem execHostMbxWrite_keeps (f : HostFrame) (s : State) : Keeps s (execHostMbxWrite f s) := by
  refine .ite (fun _ => .next id) fun _ => hostCmd_keeps (fun t ht => writeWord_startUpOrder ?_ _ _ _) _ _ _
  exact List.foldlRecOn (motive := State.startUpOrder) _ _ (doMbxCapture_startUpOrder (writeWord_startUpOrder ht _ _ _))
    fun u hu i _ => writeWord_startUpOrder hu _ _ _
theorem execChainWr_keeps (s : State) : Keeps s (execChainWr s) := chainCmd_keeps (fun _ _ ht => writeWord_startUpOrder ht _ _ _) _ _
theorem execChainRmwSet_keeps (s : State) : Keeps s (execChainRmwSet s) := chainCmd_keeps (fun _ _ ht => rmwWord_startUpOrder ht _ _ _) _ _
theorem execChainRmwClr_keeps (s : State) : Keeps s (execChainRmwClr s) := chainCmd_keeps (fun _ _ ht => rmwWord_startUpOrder ht _ _ _) _ _

/-! ## Host and chain commands -/

theorem hostCmd_stage_keeps {body : State → Reply × State} (h : ∀ t, (body t).2.stage = t.stage) (op : Nat) (f : HostFrame) (s : State) :
    Keeps s (hostCmd op f s body) := hostCmd_keeps (fun t => State.startUpOrder_of_stage (h t)) op f s
theorem chainCmd_stage_keeps {body : BitVec 64 → State → Reply × State} (h : ∀ b t, (body b t).2.stage = t.stage) (p : BitVec 64 → Bool)
    (s : State) : Keeps s (chainCmd s p body) := chainCmd_keeps (fun b t => State.startUpOrder_of_stage (h b t)) p s
theorem execHostNop_keeps (f : HostFrame) (s : State) : Keeps s (execHostNop f s) := hostCmd_stage_keeps (fun _ => rfl) _ _ _
theorem execHostRd_keeps (f : HostFrame) (s : State) : Keeps s (execHostRd f s) := hostCmd_stage_keeps (by simp) _ _ _
theorem execHostPush_keeps (f : HostFrame) (s : State) (upset) : Keeps s (execHostPush f s upset) := hostCmd_stage_keeps (by simp) _ _ _
theorem execHostPull_keeps (f : HostFrame) (upset) (s : State) : Keeps s (execHostPull f upset s) := hostCmd_stage_keeps (by simp) _ _ _
theorem execHostSnapshot_keeps (f : HostFrame) (s : State) : Keeps s (execHostSnapshot f s) := by
  refine hostCmd_stage_keeps (fun t => ?_) _ _ _
  dsimp only
  split
  · rfl
  · split
    · next h => exact (stage_of_snd h).trans (by simp)
    · next h => exact (stage_of_snd h).trans (by simp)
theorem execHostAgain_keeps (f : HostFrame) (s : State) : Keeps s (execHostAgain f s) :=
  .ite (fun _ => .next (framed_keeps (fun _ => id) f)) fun _ => .next id
theorem execChainNop_keeps (s : State) : Keeps s (execChainNop s) := chainCmd_stage_keeps (fun _ _ => rfl) _ _
theorem execChainRd_keeps (s : State) : Keeps s (execChainRd s) := chainCmd_stage_keeps (by simp) _ _
theorem execChainSnap_keeps (s : State) : Keeps s (execChainSnap s) := by
  refine chainCmd_stage_keeps (fun b t => ?_) _ _
  dsimp only
  split
  · rfl
  · split
    · next h => exact (stage_of_snd h).trans (by simp)
    · next h => exact (stage_of_snd h).trans (by simp)
theorem execHostIllegal_keeps (f : HostFrame) (s : State) : Keeps s (execHostIllegal f s) :=
  .ite (fun _ => .ite (fun _ => .next (framed_keeps (fun t => State.startUpOrder_of_stage (by simp)) f)) fun _ => .next id)
    fun _ => chainCmd_stage_keeps (by simp) _ _

end Sys2Proof.Machine
end

section
/-! PROOF. Every command and every step keeps the order of start-up (O60). -/
namespace Sys2Proof.Machine

/-- Every command goes on, and keeps the order of start-up. -/
theorem exec_keeps (i : Instr) (s : State) : Keeps s (exec i s) := by
  cases i
  case supplyBelowBrownout => exact execSupplyBelow_keeps ..
  case powerOnRelease => exact execPowerOnRelease_keeps ..
  case pinReset => exact execPinReset_keeps ..
  case resetRelease => exact execResetRelease_keeps ..
  case strapSlotEnd => exact execStrapSlotEnd_keeps ..
  case rootStartRetry => exact execRootStartRetry_keeps ..
  case pllLocked => exact execPllLocked_keeps ..
  case journalBootScan => exact execJournalBootScan_keeps ..
  case imageLoad => exact execImageLoad_keeps ..
  case selfAudit => exact execSelfAudit_keeps ..
  case mantleApply => exact execMantleApply_keeps ..
  case portsLive => exact execPortsLive_keeps ..
  case clockFailReset => exact execClockFailReset_keeps ..
  case rstgo => exact execRstgo_keeps ..
  case registerWrite => exact execRegisterWrite_keeps ..
  case iramWindowWrite => exact execIramWindowWrite_keeps ..
  case hostNop => exact execHostNop_keeps ..
  case hostRd => exact execHostRd_keeps ..
  case hostWr => exact execHostWr_keeps ..
  case hostRmw => exact execHostRmw_keeps ..
  case hostMbxRead => exact execHostMbxRead_keeps ..
  case hostMbxWrite => exact execHostMbxWrite_keeps ..
  case hostPush => exact execHostPush_keeps ..
  case hostPull => exact execHostPull_keeps ..
  case hostSnapshot => exact execHostSnapshot_keeps ..
  case hostAgain => exact execHostAgain_keeps ..
  case hostIllegal => exact execHostIllegal_keeps ..
  case chainNop => exact execChainNop_keeps ..
  case chainRd => exact execChainRd_keeps ..
  case chainWr => exact execChainWr_keeps ..
  case chainRmwSet => exact execChainRmwSet_keeps ..
  case chainRmwClr => exact execChainRmwClr_keeps ..
  case chainSnap => exact execChainSnap_keeps ..
  case watchdogReset => exact execWatchdogReset_keeps ..
  case supplyAboveBrownout => exact execSupplyAbove_keeps ..
  all_goals dsimp only [exec]
  case journalClaimVerify | groupClockRelease | commitSlow | receiveTimeout | deLeadEnd | cellAllocate | creditTableTimer | ldp | ret |
      waitWake | prx | prxNb | curTake | curAlloc | curClose | curDisc | curInfo | curHdr | wr | copy | xipFillDone | reloadDone | memEntryDone |
      flashStatusPoll | flashBusyTimeout | flashRetry | memCollision | chainAgain | canFrameTransmitted | canArbitrationLost | canError |
      referenceMessageReceived | fabricSegmentReceive | trunkFrameJudge | dataReceive | packetRelay | probeReceive | tombReceive | helloReceive |
      timeReceive | claimTimer | packetLifeExpiry | cellHandover | timeStep | voltageMeasure | hostReplyComplete | canStartOfFrame |
      memoryEntryStart =>
    exact Stays.keeps (by simp)
  case reassemblyTimeout | fabricFrameRetry | claimCollisionRetry =>
    exact Stays.keeps (by simp [execReassemblyTimeout, execFabricFrameRetry, execClaimCollisionRetry, ↓State.stage_update])
  case creditReceive | probereplyReceive | routeReceive | claimReceive | helloSend | neighbourLost | autoClaimBackoff | reclaim | routeupd |
      fabClrcnt | routeUpdatePeriod | triggeredUpdate | holddownExpiry | routeAgeOut | reorderGapExpiry | reorderContextIdle =>
    exact Stays.keeps (by simp [execCreditReceive, execProbereplyReceive, execRouteReceive, execClaimReceive, execHelloSend, execNeighbourLost,
      execAutoClaimBackoff, execReclaim, execRouteupd, execFabClrcnt, execRouteUpdatePeriod, execTriggeredUpdate, execHolddownExpiry,
      execRouteAgeOut, execReorderGapExpiry, execReorderContextIdle])
  case ctsChange =>
    exact Stays.keeps (by simp [execCtsChange, ↓State.stage_update])
  case receiverArm | falseStart | characterReceive | breakEnd | transmitterStart | transmitCharacterDone | deLagEnd | sendbrk | breakSendEnd |
      close | portClrcnt | startBitValidated | startEdgeBeforeArming | receiverRearmAtMark =>
    exact Stays.keeps (by simp [execReceiverArm, execFalseStart, execCharacterReceive, execBreakEnd, execTransmitterStart,
      execTransmitCharacterDone, execDeLagEnd, execSendbrk, execBreakSendEnd, execClose, execPortClrcnt, execStartBitValidated,
      execStartEdgeBeforeArming, execReceiverRearmAtMark])
  case canFrameReceived =>
    exact Stays.keeps (by simp [execCanFrameReceived, ↓State.stage_update])
  case canIntegrated | canProtocolException | recovered | txreq | cancel | recover | canClrcnt =>
    exact Stays.keeps (by simp [execCanIntegrated, execCanProtocolException, execRecovered, execTxreq, execCancel, execRecover, execCanClrcnt])
  case holdCalibration =>
    exact Stays.keeps (by simp [execHoldCalibration, ↓State.stage_update])
  case referenceMessageDue | backupTimeout | tpiPulse | referenceLost | holdexp | tpoFall | timePacketSend | timClrcnt =>
    exact Stays.keeps (by simp [execReferenceMessageDue, execBackupTimeout, execTpiPulse, execReferenceLost, execHoldexp, execTpoFall,
      execTimePacketSend, execTimClrcnt])
  case portFreeze | groupQuietPoint | commitStrobe | commitApply | portCommitApply | circuitCommitApply | canCommitApply =>
    exact Stays.keeps (by simp [execPortFreeze, execGroupQuietPoint, execCommitStrobe, execCommitApply, execPortCommitApply,
      execCircuitCommitApply, execCanCommitApply])
  case add | sub_ | and_ | or_ | xor_ | shl | shr | sar | cmp | mul_ | addi | andi | ori | xori | cmpi | shiShl | shiShr | shiSar | shiRor |
      movi | movh | ext | ins | btst | br | jmp | call | jr | illegalEncoding | wait | evmSet | evmOr | evmClr | evmPeek | evmSetr | tmrStart |
      tmrSti | tmrStop | tmrRead | timerExpiry | timFrac | timSecl | timSech | crcCfg | crcInit | crcFeed | crcFeedw | crcRead | pmVal | pmMask |
      pmLen | pmFeed | pmClr | crdCredits | crdHeld | crdWaiting | crdState | crdInbox | nop | sysCnt0 | sysCnt1 | sysSignal =>
    exact Stays.keeps (by simp [execAdd, execSub, execAnd, execOr, execXor, execShl, execShr, execSar, execCmp, execMul, execAddi, execAndi,
      execOri, execXori, execCmpi, execShiShl, execShiShr, execShiSar, execShiRor, execMovi, execMovh, execExt, execIns, execBtst, execBr,
      execJmp, execCall, execJr, execIllegalEncoding, execWait, execEvmSet, execEvmOr, execEvmClr, execEvmPeek, execEvmSetr, execTmrStart,
      execTmrSti, execTmrStop, execTmrRead, execTimerExpiry, execTimFrac, execTimSecl, execTimSech, execCrcCfg, execCrcInit, execCrcFeed,
      execCrcFeedw, execCrcRead, execPmVal, execPmMask, execPmLen, execPmFeed, execPmClr, execCrdCredits, execCrdHeld, execCrdWaiting,
      execCrdState, execCrdInbox, execNop, execSysCnt0, execSysCnt1, execSysSignal])
  case prxTs | ptx | ptxL | ptxNb | pbrk | pst | curPass | curFree | curSeek | curFreei | rd =>
    exact Stays.keeps (by simp [execPrxTs, execPtx, execPtxL, execPtxNb, execPbrk, execPst, execCurPass, execCurFree, execCurSeek, execCurFreei,
      execRd])
  case utilisationUpdate =>
    exact Stays.keeps (by simp [execUtilisationUpdate, ↓State.stage_update])
  case xipinv | load | halt | resume | start | signal | systemContextRestart =>
    exact Stays.keeps (by simp [execXipinv, execLoad, execHalt, execResume, execStart, execSignal, execSystemContextRestart])
  case mailboxSelect | mailboxRecapture | mailboxCaptureDone | mailboxDataWrite | mailboxWrite =>
    exact Stays.keeps (by simp [execMailboxSelect, execMailboxRecapture, execMailboxCaptureDone, execMailboxDataWrite, execMailboxWrite])
  case journalBucketRefill =>
    exact Stays.keeps (by simp [execJournalBucketRefill, ↓State.stage_update])
  case format | jnlClrcnt =>
    exact Stays.keeps (by simp [execFormat, execJnlClrcnt])
  case parkExpiry | chainPeriodExpiry =>
    exact Stays.keeps (by simp [execParkExpiry, execChainPeriodExpiry, ↓State.stage_update])
  case go | chaingo | memClrcnt =>
    exact Stays.keeps (by simp [execGo, execChaingo, execMemClrcnt])
  case vddioOutage | holdSwitchover | holdHandover =>
    exact Stays.keeps (by simp [execVddioOutage, execHoldSwitchover, execHoldHandover, ↓State.stage_update])
  case rootValid | dormant | dcancel | rstarm =>
    exact Stays.keeps (by simp [execRootValid, execDormant, execDcancel, execRstarm])
  case rstarmExpiry | pfiFall | pfiRecover | pfiRise =>
    exact Stays.keeps (by simp [execRstarmExpiry, execPfiFall, execPfiRecover, execPfiRise, ↓State.stage_power])
  case measureDone =>
    exact Stays.keeps (by simp [execMeasureDone, ↓State.stage_update])
  case measure =>
    exact Stays.keeps (by simp [execMeasure])
  case twinNorouteExpiry =>
    exact Stays.keeps (by simp [execTwinNorouteExpiry, ↓State.stage_update])
  case handback | handbackTimerExpiry =>
    exact Stays.keeps (by simp [execHandback, execHandbackTimerExpiry])
  case scrubWord =>
    exact Stays.keeps (by simp [execScrubWord, ↓State.stage_update])
  case cellFree | creditProbeTimer | stallTimerExpiry | cut | restart | frestartExpiry | circuitClrcnt | full | integrityClrcnt =>
    exact Stays.keeps (by simp [execCellFree, execCreditProbeTimer, execStallTimerExpiry, execCut, execRestart, execFrestartExpiry,
      execCircuitClrcnt, execFull, execIntegrityClrcnt])
  case watchdogWarning | temperatureMeasure | lamptestEnd =>
    exact Stays.keeps (by simp [execWatchdogWarning, execTemperatureMeasure, execLamptestEnd, ↓State.stage_update])
  case supplyFaultClear | stormDrain | breakStorm | gloveEnd | gloveClean | supRelease | ack | audit | lamptest | supClrcnt | systemFaultClear |
      faultNCycleEnd =>
    exact Stays.keeps (by simp [execSupplyFaultClear, execStormDrain, execBreakStorm, execGloveEnd, execGloveClean, execSupRelease, execAck,
      execAudit, execLamptest, execSupClrcnt, execSystemFaultClear, execFaultNCycleEnd])
  case supplyWarning | supplyWarningRise =>
    exact Stays.keeps (by simp [execSupplyWarning, execSupplyWarningRise, ↓State.stage_power])
  case pllUnlock | wakeEvent | dormantTimerExpiry =>
    exact Stays.keeps (by simp [execPllUnlock, execWakeEvent, execDormantTimerExpiry])
  case rootLost | pllRelock | quietEnter | quietExit | dormantEnter | wakeComplete | slowWake =>
    exact Stays.keeps (by simp [execRootLost, execPllRelock, execQuietEnter, execQuietExit, execDormantEnter, execWakeComplete, execSlowWake,
      ↓State.stage_power])
  case readClear | hostClrcnt =>
    exact Stays.keeps (by simp [execReadClear, execHostClrcnt])
  case hostSelectFall | hostSelectRelease =>
    exact Stays.keeps (by simp [execHostSelectFall, execHostSelectRelease, ↓State.stage_update])
  case secondBoundary =>
    exact Stays.keeps (by simp [execSecondBoundary, ↓State.stage_update])

/-- A step runs the command at the front of the queue, or idles. -/
theorem step_keeps (s : State) : Keeps s (step s) := by
  unfold step
  split
  · exact Stays.keeps (by simp)
  · next c t _ =>
    obtain ⟨u, hu, kept⟩ := exec_keeps c { s with pending := t }
    exact ⟨u, hu, fun hs => kept (State.startUpOrder_of_stage (s := s) rfl hs)⟩

/-- Settles O60: every function of the model outside start-up leaves the stage; start-up, resets and register writes keep its order. -/
theorem startUpOrderKept : Obligations.StartUpOrderKept := by
  unfold Obligations.StartUpOrderKept
  intro s
  refine ⟨fun i => ?_, ?_, fun hs => ⟨fun t => ?_, fun i t => ?_⟩⟩
  · exact (exec_keeps i s).next_state
  · exact (step_keeps s).next_state
  · exact (step_keeps s).kept hs
  · exact (exec_keeps i s).kept hs

end Sys2Proof.Machine
end

section
/-! PROOF. The arbiter of the memory port (O28): which entry it chooses, and what a start leaves. -/
namespace Sys2Proof.Machine

/-- Some kind of entry waits. -/
def memWanted (s : State) : Bool :=
  wantSecond s || !s.mem.fills.isEmpty || wantFirst s || (s.mem.imageReq && !loadWaits s) || s.mem.chainReq || s.mem.hostReq ||
    (wantErase s).isSome

/-- The first waiting kind in the order of R369; an erase where none waits before it. -/
def firstWanted (s : State) : MemKind :=
  if wantSecond s then .second else match s.mem.fills with
    | la :: _ => .xip la
    | [] => if wantFirst s then .first else if s.mem.imageReq && !loadWaits s then .image else if s.mem.chainReq then .chain
            else if s.mem.hostReq then .host else .erase

/-- Sensing the selects leaves what waits and what may run. -/
theorem chooseEntry_other (s : State) (o : Bool) : chooseEntry { s with mem := { s.mem with other := o } } = chooseEntry s := rfl

/-- With the flash idle every entry may run (R371). -/
theorem mayRun_idle {s : State} (busy : s.mem.progBusy = false) (erasing : s.mem.erasing = none) (k : MemKind) : mayRun s k = true := by
  simp [mayRun, busy, erasing]

theorem passed_lt {l : List Nat} (h : ∀ n ∈ l, n < 64) (i : Nat) : (l[i]?).getD 0 < 64 := by
  cases e : l[i]? with
  | none => decide
  | some n => exact h n (List.mem_of_getElem? e)

/-- With the flash idle and no kind passed over too often, the first waiting kind is chosen. -/
theorem chooseEntry_idle {s : State} (again : s.mem.again = none) (busy : s.mem.progBusy = false) (erasing : s.mem.erasing = none)
    (passed : ∀ n ∈ s.mem.passed, n < 64) : chooseEntry s = (waitingKinds s).findSome? id := by
  have every : (fun o : Option MemKind => o.filter (mayRun s)) = id := by
    funext o
    cases o <;> simp [mayRun_idle busy erasing]
  have none_over (l : List MemKind) : l.find? (fun k => decide (64 ≤ (s.mem.passed[kindPos k]?).getD 0)) = none := by
    simp [passed_lt passed]
  simp only [chooseEntry, again, every, none_over, List.head?_filterMap]

theorem waitingKinds_first {s : State} (h : memWanted s = true) : (waitingKinds s).findSome? id = some (firstWanted s) := by
  unfold memWanted at h
  unfold waitingKinds firstWanted
  cases fills : s.mem.fills with
  | cons la t => split <;> rfl
  | nil =>
    simp only [List.head?_nil, Option.map_none, List.findSome?_cons, id_eq, List.findSome?_nil]
    grind

theorem chooseEntry_nothing {s : State} (again : s.mem.again = none) (h : memWanted s = false) : chooseEntry s = none := by
  unfold memWanted at h
  simp only [Bool.or_eq_false_iff] at h
  obtain ⟨⟨⟨⟨⟨⟨second, fills⟩, first⟩, image⟩, chain⟩, host⟩, erase⟩ := h
  simp_all [chooseEntry, waitingKinds]

/-- The port may start an entry once the selects have been sensed: none runs, no relock, not DORMANT, memory initialised. -/
def memReady (s : State) : Prop := s.mem.active = none ∧ s.power.relock = false ∧ s.power.st ≠ .dormant ∧ s.boot.memUp = true

theorem memReady_iff (s : State) :
    memReady s ↔ (s.mem.active.isSome || s.power.relock || s.power.st == .dormant || !s.boot.memUp) = false := by
  simp [memReady, and_assoc]

theorem memoryEntryStart_notReady {s : State} (h : ¬ memReady s) (o : Bool) (high : BitVec 8) :
    execMemoryEntryStart s o high = .next s := by
  rw [memReady_iff, Bool.not_eq_false] at h
  exact if_pos h

section
variable {s : State} (ready : memReady s) {high : BitVec 8}
include ready

theorem memoryEntryStart_waits {o : Bool} (h : (o || decide (high.toNat < startDelay s)) = true) :
    execMemoryEntryStart s o high = .next { s with mem := { s.mem with other := o } } := by
  have guard := (memReady_iff s).1 ready
  exact (if_neg (by simp [guard])).trans (if_pos h)

variable (delay : startDelay s ≤ high.toNat)
include delay

theorem memoryEntryStart_idles (h : chooseEntry s = none) :
    execMemoryEntryStart s false high = .next { s with mem := { s.mem with other := false } } := by
  have guard := (memReady_iff s).1 ready
  have late : ¬ (false || decide (high.toNat < startDelay s)) = true := by simpa using delay
  refine (if_neg (by simp [guard])).trans ((if_neg late).trans ?_)
  rw [chooseEntry_other, h]

theorem memoryEntryStart_starts {k : MemKind} (h : chooseEntry s = some k) :
    ∃ t, execMemoryEntryStart s false high = .next t ∧ t = { s with mem := t.mem } ∧ t.mem.parked = none ∧ t.mem.other = false ∧
      t.mem.active = some k := by
  have guard := (memReady_iff s).1 ready
  have late : ¬ (false || decide (high.toNat < startDelay s)) = true := by simpa using delay
  unfold execMemoryEntryStart
  rw [if_neg (by simp [guard])]
  extract_lets mem0 u
  have chosen : chooseEntry u = some k := (chooseEntry_other s false).trans h
  rw [if_neg (show ¬ (false || decide (high.toNat < startDelay u)) = true from late)]
  split
  · next none_chosen => simp [none_chosen] at chosen
  · next k' some_chosen =>
    obtain rfl : k' = k := Option.some.inj (some_chosen.symm.trans chosen)
    exact ⟨_, rfl, rfl, rfl, rfl, rfl⟩

end

/-- Settles O28: the guards in the order of the command, and the entry the arbiter chooses from the waiting kinds. -/
theorem memoryArbiter : Obligations.MemoryArbiter := by
  unfold Obligations.MemoryArbiter
  intro s high
  refine ⟨rfl, fun o h => memoryEntryStart_notReady h o high, fun ready => ⟨memoryEntryStart_waits ready rfl, fun early => ?_, ?_⟩⟩
  · exact memoryEntryStart_waits ready (by simpa using early)
  · intro delay again
    refine ⟨fun h => memoryEntryStart_idles ready delay (chooseEntry_nothing again h), fun busy erasing passed h => ?_⟩
    exact memoryEntryStart_starts ready delay ((chooseEntry_idle again busy erasing passed).trans (waitingKinds_first h))

end Sys2Proof.Machine
end

section
/-! PROOF. The supply monitor, the strobes of CLK_CTL and PFI_N (O32). -/
namespace Sys2Proof.Machine

theorem satInc_eq_min (wd v : Nat) : satInc wd v = min (v + 1) (2 ^ wd - 1) := by
  unfold satInc
  have := Nat.two_pow_pos wd
  split <;> omega

/-- A record leaves the bits of the words it does not touch. -/
theorem journal_bit (s : State) (t src : Nat) (p : List Byte) {b : Nat} (h : ¬ recordWords b) (i : Nat) :
    (journal s t src p).bit b i = s.bit b i := by
  simp only [State.bit, journal_reg s t src p h]

/-! ## The power-on release (R83, R84, R115) -/

theorem powerOnRelease_idle {s : State} (h : s.power.low = true ∨ s.power.released = true) (bat kept xtal : Bool) :
    execPowerOnRelease bat kept s xtal = .next s := if_pos (by simpa using h)

/-- HOLD at the release: as it was where it kept power. -/
def heldAt (s : State) (kept : Bool) : Hold := if kept then s.hold else {}

/-- A reset of the supply monitor with the run marker intact and no outage was a brownout. -/
def brownAt (s : State) (kept : Bool) : Bool :=
  decide (s.power.cause ≤ 1) && (heldAt s kept).runMarker && !(heldAt s kept).outage

/-- A fault of a burst of brownouts leaves the supply, the progress of start-up and HOLD. -/
theorem burstFault_leaves (burst : Bool) (u : State) (p : List Byte) :
    let t := if burst then journal (raiseFault u 2) 0x24 0 p else u
    t.power = u.power ∧ t.boot = u.boot ∧ t.hold = u.hold ∧ (burst = false → t = u) := by
  cases burst <;> simp

theorem powerOnRelease_lands {s : State} (low : s.power.low = false) (released : s.power.released = false) (bat kept xtal : Bool) :
    ∃ t, execPowerOnRelease bat kept s xtal = .next t ∧
      t.power = { s.power with
        released := true
        batOk := bat && xtal
        cause := if brownAt s kept then 1 else if decide (s.power.cause ≤ 1) then 0 else s.power.cause } ∧
      t.boot = { s.boot with brownout := brownAt s kept } ∧
      t.hold.brown = (if brownAt s kept then min ((heldAt s kept).brown + 1) 65535 else (heldAt s kept).brown) ∧
      t.hold.count = (heldAt s kept).count ∧ (brownAt s kept = false → t.regs = s.regs) := by
  unfold execPowerOnRelease
  rw [if_neg (by simp [low, released])]
  extract_lets h supply brown h' power0 boot0 u recent
  have hbrown : brown = brownAt s kept := rfl
  have cause : (if supply then b2n brown else s.power.cause) = if brown then 1 else if supply then 0 else s.power.cause := by
    cases hs : supply
    · simp [brown, hs]
    · cases brown <;> rfl
  have brownCount : h'.brown = if brown then min (h.brown + 1) 65535 else h.brown := by
    unfold h'
    split
    · exact satInc_eq_min 16 _
    · rfl
  have count : h'.count = h.count := by
    unfold h'
    split <;> rfl
  obtain ⟨power, boot, hold, quiet⟩ := burstFault_leaves (brown && decide (3 ≤ recent.length)) u (bytesBE 2 h'.brown)
  refine ⟨_, rfl, power.trans ?_, boot, (congrArg Hold.brown hold).trans brownCount, (congrArg Hold.count hold).trans count, fun none => ?_⟩
  · rw [← hbrown, ← cause]
  · rw [quiet (by simp [hbrown, none])]

/-! ## The strobes of CLK_CTL (R116, R120, R125) -/

theorem execDormant_reached {s : State} (h : hostReach s = true) : execDormant s = .next (s.setBit 0x200 4) :=
  congrArg Host.Outcome.next (viaHost_reached h _)
theorem execDcancel_reached {s : State} (h : hostReach s = true) : execDcancel s = .next (s.setBit 0x200 4 false) :=
  congrArg Host.Outcome.next (viaHost_reached h _)

/-- A bit of one word set, and nothing else. -/
theorem setBit_only (s : State) (a i : Nat) (v : Bool) (h : i < 32) : s.setBit a i v = { s with regs := (s.setBit a i v).regs } ∧
    (s.setBit a i v).bit a i = v ∧ ∀ r, r ≠ a → (s.setBit a i v).reg r = s.reg r :=
  ⟨rfl, State.bit_setBit_same _ _ _ _ h, fun _ hr => State.reg_setBit_other _ _ _ _ hr⟩

/-! ## PFI_N (R389) -/

theorem pfiFall_lands (s : State) : ∃ t, execPfiFall s = .next t ∧ t.power = { s.power with pfiLow := true, pfiWait := false } ∧
    t.bit 0x302 4 = true ∧ t.bit 0x3100 5 = true := by
  refine ⟨_, rfl, by simp, ?_, ?_⟩
  · rw [journal_bit _ _ _ _ (by simp [recordWords]), State.bit_setBit_word _ _ _ _ _ (by decide), State.bit_setBit_same _ _ _ _ (by decide)]
  · rw [journal_bit _ _ _ _ (by simp [recordWords]), State.bit_setBit_same _ _ _ _ (by decide)]

theorem pfiRise_lands {s : State} (h : s.power.pfiLow = true) (us : BitVec 32) : ∃ t, execPfiRise us s = .next t ∧
    t.power = { s.power with pfiLow := false, pfiWait := true } ∧ t.bit 0x3100 5 = false ∧ ∀ r, r ≠ 0x3100 → t.reg r = s.reg r :=
  ⟨_, if_pos h, rfl, State.bit_setBit_same _ _ _ _ (by decide), fun _ hr => State.reg_setBit_other _ _ _ _ hr⟩

/-- Settles O32: each command's function under its condition, by the lemmas above where it does more than change one field. -/
theorem supplyAndStrobes : Obligations.SupplyAndStrobes := by
  unfold Obligations.SupplyAndStrobes
  intro s v bat xtal kept us
  refine ⟨rfl, rfl, fun low => if_pos low, fun low => if_neg (by simp [low]), fun h => powerOnRelease_idle h bat kept xtal,
    fun low released => powerOnRelease_lands low released bat kept xtal, fun h => ⟨?_, ?_, ?_⟩, fun h => ⟨?_, ?_, ?_⟩, rfl,
    pfiFall_lands s, fun h => pfiRise_lands h us, fun h => if_neg (by simp [h]), rfl⟩
  · exact congrArg Host.Outcome.next (viaHost_reached h _)
  · exact ⟨_, execDormant_reached h, setBit_only s 0x200 4 true (by decide)⟩
  · exact ⟨_, execDcancel_reached h, setBit_only s 0x200 4 false (by decide)⟩
  all_goals exact congrArg Host.Outcome.next (viaHost_unreached h _)

end Sys2Proof.Machine
end

section
/-! PROOF. Resets (O31, O59): what an asserted reset leaves, field by field, and which cause it reports. -/
namespace Sys2Proof.Machine

/-- Settles O59: before the first step of start-up every clause's premise is false. -/
theorem startUpOrderAtReset : Obligations.StartUpOrderAtReset := Boot.inOrder_reset false false false

/-! ## What a reset leaves (R113, R114) -/

/-- The words that have one bit per port hold the present ports' bits only. -/
theorem gradeRegs_reg (grade r : Nat) : fget resetWord (gradeRegs grade) r =
    if r = 0x203 ∨ r = 0x309 then resetWord r &&& ~~~BitVec.ofNat 32 (65536 - 2 ^ grade) else resetWord r := by
  simp only [gradeRegs, List.foldl, fget_fset]
  by_cases h9 : r = 0x309
  · simp [h9]
  · by_cases h3 : r = 0x203
    · simp [h3]
    · simp [h3, h9, fget]

/-- The cause and the count of resets after a reset for `cause` (R114): the first cause stays, but of two of one SUPV cycle the lower one
is reported. -/
theorem coincidentReset_reports (s : State) (cause : Nat) (same : Bool) :
    (inReset s = false → (coincidentReset s cause same).power.cause = cause ∧
      (coincidentReset s cause same).hold.resets = min (s.hold.resets + 1) 65535) ∧
    (inReset s = true → (coincidentReset s cause same).power.cause = (if same then min s.power.cause cause else s.power.cause) ∧
      (coincidentReset s cause same).hold.resets = s.hold.resets) := by
  refine ⟨fun first => ?first, fun again => ?again⟩
  case first => simp [coincidentReset, assertReset, first, holdTakes, satInc_eq_min]
  case again => cases same <;> simp [coincidentReset, assertReset, again, holdTakes]

/-- What stands after a reset for `cause` that met `s`: every word at its reset value, no engine in use, and what survives. -/
def Cleared (s t : State) (cause : Nat) (same : Bool) : Prop :=
  (∀ r, t.reg r = if r = 0x203 ∨ r = 0x309 then resetWord r &&& ~~~BitVec.ofNat 32 (65536 - 2 ^ s.chip.grade) else resetWord r) ∧
  (∀ r, t.shad r = t.reg r) ∧ t.boot = { brownout := inReset s && s.boot.brownout } ∧ t.strap = {} ∧ t.commit = {} ∧ t.cells = [] ∧
  t.circs = [] ∧ t.ports = [] ∧ t.ctxs = [] ∧ t.outQ = [] ∧ t.credits = [] ∧ t.fab = {} ∧ t.canA = {} ∧ t.canB = {} ∧ t.tim = {} ∧
  t.pool = {} ∧ t.sup = {} ∧ t.jnl = {} ∧ t.mem = {} ∧ t.jwrite = {} ∧ t.mbx = {} ∧ t.seq = {} ∧ t.ext = s.ext ∧ t.chip = s.chip ∧
  t.pending = s.pending ∧ t.now = s.now ∧
  (inReset s = false → t.power.cause = cause ∧ t.hold.resets = min (s.hold.resets + 1) 65535) ∧
  (inReset s = true → t.power.cause = (if same then min s.power.cause cause else s.power.cause) ∧ t.hold.resets = s.hold.resets)

/-- A reset of one SUPV cycle changes the cause that an asserted reset reports, and nothing else of it. -/
theorem coincidentReset_eq (s : State) (cause : Nat) (same : Bool) :
    coincidentReset s cause same = { assertReset s cause with power := (coincidentReset s cause same).power } := by
  unfold coincidentReset
  dsimp only
  split <;> rfl

/-- HOLD keeps the time count through a reset. -/
theorem assertReset_now (s : State) (cause : Nat) : (assertReset s cause).now = s.now := by
  simp only [State.now, assertReset, holdTakes]
  split <;> rfl

theorem coincidentReset_cleared (s : State) (cause : Nat) (same : Bool) (p : Power)
    (hp : p.cause = (coincidentReset s cause same).power.cause) :
    Cleared s { coincidentReset s cause same with power := p } cause same := by
  have reports := coincidentReset_reports s cause same
  rw [← hp] at reports
  rw [coincidentReset_eq] at reports ⊢
  exact ⟨gradeRegs_reg s.chip.grade, fun _ => rfl, by simp [assertReset], rfl, rfl, rfl, rfl, rfl, rfl, rfl, rfl, rfl, rfl, rfl, rfl, rfl, rfl,
    rfl, rfl, rfl, rfl, rfl, rfl, rfl, rfl, assertReset_now s cause, reports⟩

theorem assertReset_cleared (s : State) (cause : Nat) : Cleared s (assertReset s cause) cause false :=
  coincidentReset_cleared s cause false _ rfl

/-! ## The causes of Table 4-5 -/

/-- The watchdog stores WDLAST and resets where it counts and a context is late (R548, R549). -/
theorem execWatchdogReset_eq (s : State) (late : BitVec 8) : execWatchdogReset late s =
    .next (if wdCounts s = true ∧ late ≠ 0#8 then assertReset { s with hold := { s.hold with wdlast := late.toNat } } 3 else s) := by
  unfold execWatchdogReset
  by_cases counts : wdCounts s = true <;> by_cases none : late = 0#8 <;> simp [counts, none]

theorem wdCounts_iff (s : State) : wdCounts s = true ↔ s.sup.wdRun = true ∧ s.power.relock = false ∧ s.power.st ≠ .dormant := by
  simp [wdCounts, and_assoc]

theorem execRstgo_armed {s : State} (reach : hostReach s = true) (armed : s.power.rstArmed = true) :
    execRstgo s = .next (assertReset s 4) := by
  simp [execRstgo, reach, doRstgo, armed]
/-- RSTGO unarmed, or out of the register interface's reach, does nothing (R113). -/
theorem execRstgo_idle {s : State} (h : hostReach s = false ∨ s.power.rstArmed = false) : execRstgo s = .next s := by
  rcases h with unreached | unarmed
  · simp [execRstgo, unreached]
  · simp [execRstgo, viaHost, doRstgo, unarmed]

/-- Settles O31: each cause is a reset of one SUPV cycle or an asserted one, which clears (`coincidentReset_cleared`). -/
theorem resetCauses : Obligations.ResetCauses := by
  unfold Obligations.ResetCauses
  intro s late same clean keeps
  refine ⟨⟨_, rfl, coincidentReset_cleared s 0 same _ rfl⟩, ⟨_, rfl, coincidentReset_cleared s 2 same _ rfl⟩,
    fun run lock awake some => ?late, fun h => ?watched, fun reach armed => ⟨_, execRstgo_armed reach armed, assertReset_cleared s 4⟩,
    execRstgo_idle, fun relock => ⟨_, if_pos relock, assertReset_cleared s 5⟩, fun locked => if_neg (by simp [locked])⟩
  case late =>
    exact ⟨_, (execWatchdogReset_eq s late).trans (congrArg _ (if_pos ⟨(wdCounts_iff s).2 ⟨run, lock, awake⟩, some⟩)),
      assertReset_cleared { s with hold := { s.hold with wdlast := late.toNat } } 3⟩
  case watched =>
    refine (execWatchdogReset_eq s late).trans (congrArg _ (if_neg ?_))
    rw [wdCounts_iff]
    rintro ⟨⟨run, lock, awake⟩, some⟩
    simp [run, lock, awake, some] at h

end Sys2Proof.Machine
end

section
/-! PROOF. The CAN channel's states (O46) fail for a state that names a circuit which the device does not have: the words of circuit 256
would lie where channel A's counters are, so that the end of its drain writes CANA_ERR1. -/
namespace Sys2Proof.Machine

/-- A RESTRICTED channel A carries trunk 0 of profile 12's pair. The route to the twin is about to move to its alternate, which stands the
twin by and frees the cell that waits in circuit 0; that cell is owned by circuit 256, which drains. -/
def strayOwner : State :=
  { strap := { mantleOn := true }
    regs := [(0x105, 12#32), (cAddr 0 1, 1#32), (0x4000, 2#32), (chAddr 0 0, 2#32)]
    jnl := { tokens := 0 }
    fab := { trunks := [{ up := true }], routes := [(0, { st := .valid, dst := 3, alt := some ⟨1, 3, 1⟩ })] }
    canA := { st := .active }
    circs := [(0, { queue := [0] }), (256, { st := .drain })]
    cells := [(0, { owner := .circ 256, st := .closed })] }

/-- DRAINED of circuit 256 is bit 1 of CANA_ERR1. -/
theorem drainedWord_256 : cAddr 256 0x0D = chAddr 0 0x0D := rfl

/-- A form error takes trunk 0 down: the error is counted once, and the end of the stray drain sets bit 1 of the same word. -/
theorem strayOwner_formError : ∃ t, exec (.canError 0 2 false false none none) strayOwner = .next t ∧ t.fld (chAddr 0 0x0D) 0 16 = 3 :=
  ⟨_, rfl, by decide +kernel⟩

/-- Refutes O46: in RESTRICTED mode the form error of `strayOwner` leaves 3 in CANA_ERR1.FORM where one count from 0 leaves 1. -/
theorem not_canStates : ¬ Obligations.CanStates := by
  unfold Obligations.CanStates
  intro h
  obtain ⟨-, -, -, -, -, restricted, -⟩ := h strayOwner 0 2 false false none none 0 noFrame
  obtain ⟨t, e, counted, -⟩ := restricted (by decide +kernel) (by decide +kernel)
  obtain ⟨u, e', stray⟩ := strayOwner_formError
  obtain rfl : t = u := Host.Outcome.next.inj (e.symm.trans e')
  have once : t.fld (chAddr 0 0x0D) 0 16 = 1 := counted.trans (by decide +kernel)
  omega

end Sys2Proof.Machine
end

section
/-! PROOF. A port group's clock switch (O7). -/
namespace Sys2Proof.Machine

/-! ## A group's clock -/

theorem getElem?_listSet_same {α : Type} (l : List α) {i : Nat} (h : i < l.length) (v : α) : (listSet l i v)[i]? = some v := by
  induction l generalizing i with
  | nil => simp at h
  | cons a t ih =>
    cases i with
    | zero => rfl
    | succ i => simpa [listSet] using ih (by simpa using h)

/-- A group set, with its two bits of CLK_STAT; it touches no other word. -/
theorem State.group_setGroup {s : State} {g : Nat} (h : g < s.power.groups.length) (x : Group) : (s.setGroup g x).group g = x := by
  simp [State.setGroup, State.group, getElem?_listSet_same _ h]
theorem State.setGroup_bits (s : State) {g : Nat} (h : g < 4) (x : Group) :
    (s.setGroup g x).bit 0x200 (8 + g) = (x.running && !x.stopped) ∧ (s.setGroup g x).bit 0x200 (12 + g) = x.switching := by
  unfold State.setGroup
  dsimp only
  exact ⟨by rw [State.bit_setBit_other _ _ _ _ _ (by omega), State.bit_setBit_same _ _ _ _ (by omega)], State.bit_setBit_same _ _ _ _ (by omega)⟩
theorem State.reg_setGroup_other (s : State) (g : Nat) (x : Group) {b : Nat} (h : b ≠ 0x200) : (s.setGroup g x).reg b = s.reg b := by
  simp only [State.setGroup, State.reg_setBit_other _ _ _ _ h]
  rfl
@[simp] theorem State.setGroup_ports (s : State) (g : Nat) (x : Group) : (s.setGroup g x).ports = s.ports := rfl
@[simp] theorem State.setGroup_commit (s : State) (g : Nat) (x : Group) : (s.setGroup g x).commit = s.commit := rfl

/-! ## A staged word that meets a field already written -/

/-- The bits of a word that takes the masked bits of `v`. -/
theorem getLsbD_merged (w m v : Word) (i : Nat) (h : i < 32) :
    ((w &&& ~~~m) ||| (v &&& m)).getLsbD i = if m.getLsbD i then v.getLsbD i else w.getLsbD i := by
  rw [BitVec.getLsbD_or, BitVec.getLsbD_and, BitVec.getLsbD_not, BitVec.getLsbD_and]
  cases m.getLsbD i <;> simp [h]

/-- Where the merge gives a field the value `t`, it still does once the field holds `t`. -/
theorem getF_merged_setF_same {w m v : Word} {lo wd t : Nat} (hw : lo + wd ≤ 32) (h : getF ((w &&& ~~~m) ||| (v &&& m)) lo wd = t) :
    getF ((setF w lo wd t &&& ~~~m) ||| (v &&& m)) lo wd = t := by
  rw [← h]
  refine Nat.eq_of_testBit_eq fun i => ?_
  simp only [testBit_getF]
  by_cases hi : i < wd
  · have hlt : lo + i < 32 := by omega
    simp only [getLsbD_merged _ _ _ _ hlt, getLsbD_setF, testBit_getF]
    rw [if_pos (show lo + i < 32 ∧ lo ≤ lo + i ∧ lo + i < lo + wd by omega), show lo + i - lo = i by omega,
      getLsbD_merged _ _ _ _ hlt]
    cases m.getLsbD (lo + i) <;> simp
  · simp [hi]

/-- A field that shares no bit with the one written is merged as before. -/
theorem getF_merged_setF_other {w m v : Word} {lo wd t lo' wd' : Nat} (hw : lo' + wd' ≤ 32) (h : lo + wd ≤ lo' ∨ lo' + wd' ≤ lo) :
    getF ((setF w lo wd t &&& ~~~m) ||| (v &&& m)) lo' wd' = getF ((w &&& ~~~m) ||| (v &&& m)) lo' wd' := by
  refine Nat.eq_of_testBit_eq fun i => ?_
  simp only [testBit_getF]
  by_cases hi : i < wd'
  · have hlt : lo' + i < 32 := by omega
    simp only [getLsbD_merged _ _ _ _ hlt, getLsbD_setF]
    rw [if_neg (show ¬ (lo' + i < 32 ∧ lo ≤ lo' + i ∧ lo' + i < lo + wd) by omega)]
  · simp [hi]

/-! ## The end of the last commit -/

/-- DONE touches GLB_EVT and the time of item 0x0002 only (R149). -/
theorem doneCheck_leaves (s : State) (w : Nat) : ∃ r d, doneCheck s w = { s with regs := r, commit := { s.commit with doneTime := d } } ∧
    ∀ b, b ≠ 0x0B → (doneCheck s w).reg b = s.reg b := by
  unfold doneCheck
  split
  · exact ⟨_, _, rfl, fun _ _ => rfl⟩
  · exact ⟨_, _, rfl, fun _ h => State.reg_setBit_other s _ _ _ h⟩
theorem doneChecks_leave (l : List Nat) (s : State) :
    ∃ r d, forList l doneCheck s = { s with regs := r, commit := { s.commit with doneTime := d } } ∧
    ∀ b, b ≠ 0x0B → (forList l doneCheck s).reg b = s.reg b := by
  unfold forList
  induction l generalizing s with
  | nil => exact ⟨_, _, rfl, fun _ _ => rfl⟩
  | cons w l ih =>
    obtain ⟨r, d, e, words⟩ := doneCheck_leaves s w
    obtain ⟨r', d', e', words'⟩ := ih (doneCheck s w)
    exact ⟨r', d', e'.trans (by rw [e]), fun b h => (words' b h).trans (words b h)⟩

/-- The entry at the front has applied, with no strobe queued and no other entry of its instance: it is dropped, HST_GEN counts, and its
writes are judged (R149, R421). -/
theorem finishEntry_front {s : State} {e : Staged} {l : List Staged} (staged : s.commit.staged = e :: l) (queued : s.commit.queued = [])
    (alone : ∀ o ∈ l, o.inst ≠ e.inst) : finishEntry s e =
      forList e.writes doneCheck ({ s with commit := { s.commit with staged := l } }.countWrap 0x409) := by
  have dropped : dropStaged e.inst s.commit.staged = l := by simp [staged, dropStaged]
  unfold finishEntry
  rw [dropped]
  dsimp only
  rw [if_neg (by simpa [isStaged, State.countWrap] using alone)]
  simp [State.countWrap, queued]

/-- With nothing staged nothing settles. -/
theorem settleAll_of_none {s : State} (h : s.commit.staged = []) : settleAll s = s := by
  simp [settleAll, settleCommits, h]

/-! ## The release of a group's clock (R107 to R111) -/

/-- Port `n` unfreezes and has to arm anew. -/
def unfreezePort (s : State) (n : Nat) : State := if present s n then modPort s n (fun p => { disarm p with frozen := false }) else s
/-- Every present port of group `g` unfreezes. -/
def unfreezeGroup (g : Nat) (s : State) : State := forEach 4 (fun s k => unfreezePort s (4 * g + k)) s

theorem unfreezePort_eq (s : State) (n : Nat) : ∃ p, unfreezePort s n = { s with ports := p } := by
  unfold unfreezePort
  split
  · exact ⟨_, rfl⟩
  · exact ⟨s.ports, rfl⟩
theorem unfreezeGroup_eq (g : Nat) (s : State) : ∃ p, unfreezeGroup g s = { s with ports := p } := by
  unfold unfreezeGroup forEach
  generalize List.range 4 = l
  induction l generalizing s with
  | nil => exact ⟨s.ports, rfl⟩
  | cons k l ih =>
    obtain ⟨p, e⟩ := unfreezePort_eq s (4 * g + k)
    obtain ⟨p', e'⟩ := ih (unfreezePort s (4 * g + k))
    exact ⟨p', e'.trans (by rw [e])⟩
theorem port_unfreezePort (s : State) (n j : Nat) : (unfreezePort s n).port j =
    if j = n ∧ present s n = true then { disarm (s.port n) with frozen := false } else s.port j := by
  unfold unfreezePort
  by_cases h : present s n = true
  · simp [h, modPort, State.port_setPort]
  · simp [h]
@[simp] theorem present_unfreezePort (s : State) (n j : Nat) : present (unfreezePort s n) j = present s j := by
  obtain ⟨p, e⟩ := unfreezePort_eq s n
  rw [e]
  rfl
theorem unfreezeGroup_port {g n : Nat} {s : State} (hn : 4 * g ≤ n ∧ n < 4 * g + 4) (h : present s n = true) :
    ((unfreezeGroup g s).port n).frozen = false ∧ ((unfreezeGroup g s).port n).armed = false := by
  have steps : unfreezeGroup g s = unfreezePort (unfreezePort (unfreezePort (unfreezePort s (4 * g)) (4 * g + 1)) (4 * g + 2)) (4 * g + 3) := rfl
  rw [steps]
  obtain rfl | rfl | rfl | rfl : n = 4 * g ∨ n = 4 * g + 1 ∨ n = 4 * g + 2 ∨ n = 4 * g + 3 := by omega
  all_goals simp [port_unfreezePort, h, disarm]

/-- Steps that keep a property, and there agree, lead to the same state. -/
theorem forEach_congr {P : State → Prop} {f h : State → Nat → State} (keeps : ∀ t k, P t → P (h t k)) (agree : ∀ t k, P t → f t k = h t k)
    (n : Nat) {s : State} (hs : P s) : forEach n f s = forEach n h s := by
  unfold forEach
  generalize List.range n = l
  induction l generalizing s with
  | nil => rfl
  | cons k l ih =>
    rw [List.foldl, List.foldl, agree s k hs]
    exact ih (keeps s k hs)

/-- What the release does to port `n`: fields committed with the code apply (R110), and it unfreezes. -/
def releasePort (c : Option Staged) (s : State) (n : Nat) : State :=
  unfreezePort (match c, stagedOf s (.port n) with
    | some c, some e => if sameWrite c e then applyPort s n e else s
    | _, _ => s) n
/-- The clock of group `g` runs with the new code, and PGDONE is set. -/
def State.clockRuns (s : State) (g : Nat) : State :=
  let x := s.group g
  ((s.setGroup g { x with running := true, switching := false, stopped := false, code := x.target }).setFld 0x201 (4 * g) 3 x.target).setBit 0x205 g
/-- Every code that the commit of CLK asks for is in force. -/
def codesInForce (s : State) (c : Staged) : Bool := (List.range 4).all (fun h => getF (newWord s c 0x201) (4 * h) 3 == s.fld 0x201 (4 * h) 3)
/-- The commit of CLK ends with the last of its switches. -/
def endSwitch (c : Option Staged) (s : State) : State :=
  match c with | some c => if codesInForce s c then finishEntry s c else s | none => s

theorem execGroupClockRelease_stopped {s : State} {g : Fin 4} (switching : (s.group g).switching = true)
    (stopped : (s.group g).stopped = true) (locked : s.power.relock = false) : execGroupClockRelease g s =
      .next (settleAll (endSwitch (stagedOf s .clk) (forEach 4 (fun t k => releasePort (stagedOf s .clk) t (4 * g + k)) (s.clockRuns g)))) :=
  if_neg (by simp [switching, stopped, locked])

/-- With only a commit of CLK staged, the release unfreezes the ports and does nothing else to them. -/
theorem releasePorts_eq {s : State} {e : Staged} (staged : s.commit.staged = [e]) (clk : e.inst = .clk) (c : Option Staged) (g : Nat) :
    forEach 4 (fun t k => releasePort c t (4 * g + k)) s = unfreezeGroup g s := by
  refine forEach_congr (P := fun t => t.commit.staged = [e]) (fun t k ht => ?_) (fun t k ht => ?_) 4 staged
  · obtain ⟨p, eq⟩ := unfreezePort_eq t (4 * g + k)
    rw [eq]
    exact ht
  · have none : stagedOf t (.port (4 * g + k)) = none := by simp [stagedOf, ht, clk]
    unfold releasePort
    rw [none]
    cases c <;> rfl

/-- The code asked for is in force once the clock runs with it. -/
theorem codesInForce_of_last {s : State} {g x : Nat} {e : Staged} {m v w : Word} (words : e.words = [(0x201, m, v)]) (small : x < 8) (hg : g < 4)
    (code : s.reg 0x201 = setF w (4 * g) 3 x)
    (asked : ∀ h, h < 4 → getF ((w &&& ~~~m) ||| (v &&& m)) (4 * h) 3 = if h = g then x else getF w (4 * h) 3) : codesInForce s e = true := by
  have word : newWord s e 0x201 = (s.reg 0x201 &&& ~~~m) ||| (v &&& m) := by simp [newWord, words]
  simp only [codesInForce, word, List.all_eq_true, List.mem_range, beq_iff_eq, State.fld, code]
  intro h hh
  have want := asked h hh
  by_cases same : h = g
  · subst same
    rw [if_pos rfl] at want
    rw [getF_merged_setF_same (by omega) want, getF_setF_same _ _ _ _ (by omega)]
    omega
  · rw [if_neg same] at want
    rw [getF_merged_setF_other (by omega) (by omega), want, getF_setF_other _ _ _ _ _ _ (by omega)]

/-- The words and the group once the clock runs. -/
theorem State.clockRuns_lands {s : State} {g : Nat} (hg : g < 4) (groups : s.power.groups.length = 4) :
    (s.clockRuns g).reg 0x201 = setF (s.reg 0x201) (4 * g) 3 (s.group g).target ∧ (s.clockRuns g).bit 0x205 g = true ∧
    (s.clockRuns g).group g = { s.group g with running := true, switching := false, stopped := false, code := (s.group g).target } ∧
    (s.clockRuns g).commit = s.commit ∧ (s.clockRuns g).chip = s.chip := by
  refine ⟨?_, State.bit_setBit_same _ _ _ _ (by omega), State.group_setGroup (by omega) _, rfl, rfl⟩
  simp [State.clockRuns, State.reg_setBit_other, State.reg_setFld, State.reg_setGroup_other]

theorem groupClockRelease_lands {s : State} {g : Fin 4} {e : Staged} {m v : Word} (switching : (s.group g).switching = true)
    (stopped : (s.group g).stopped = true) (locked : s.power.relock = false) (groups : s.power.groups.length = 4)
    (small : (s.group g).target < 8) (staged : s.commit.staged = [e]) (queued : s.commit.queued = []) (clk : e.inst = .clk)
    (words : e.words = [(0x201, m, v)])
    (asked : ∀ h, h < 4 → getF ((s.reg 0x201 &&& ~~~m) ||| (v &&& m)) (4 * h) 3 = if h = g then (s.group g).target else s.fld 0x201 (4 * h) 3) :
    ∃ t, exec (.groupClockRelease g) s = .next t ∧ t.fld 0x201 (4 * g) 3 = (s.group g).target ∧ t.bit 0x205 g = true ∧
      t.group g = { s.group g with running := true, switching := false, stopped := false, code := (s.group g).target } ∧ t.commit.staged = [] ∧
      ∀ k, k < 4 → present s (4 * g + k) = true → (t.port (4 * g + k)).frozen = false ∧ (t.port (4 * g + k)).armed = false := by
  obtain ⟨code, done, group, commit, chip⟩ := State.clockRuns_lands (s := s) g.isLt groups
  have release := execGroupClockRelease_stopped switching stopped locked
  rw [releasePorts_eq (e := e) (by rw [commit, staged]) clk] at release
  generalize s.clockRuns g = u at code done group commit chip release
  obtain ⟨p, thawed⟩ := unfreezeGroup_eq g u
  have port (n : Nat) (hn : 4 * g.val ≤ n ∧ n < 4 * g + 4) (h : present s n = true) :=
    unfreezeGroup_port (s := u) hn (by rwa [present, chip])
  rw [thawed] at release port
  have last := codesInForce_of_last (s := { u with ports := p }) words small g.isLt code asked
  have front := finishEntry_front (s := { u with ports := p }) (commit ▸ staged) (commit ▸ queued) (by simp)
  obtain ⟨r, d, judged, others⟩ := doneChecks_leave e.writes ({ u with ports := p, commit := { u.commit with staged := [] } }.countWrap 0x409)
  have clkStaged : stagedOf s .clk = some e := by simp [stagedOf, staged, clk]
  have ended : endSwitch (some e) { u with ports := p } = finishEntry { u with ports := p } e := if_pos last
  rw [clkStaged, ended, front, judged, settleAll_of_none rfl] at release
  rw [judged] at others
  have reg (b : Nat) (h : b ≠ 0x0B) (h' : b ≠ 0x409) := (others b h).trans ((State.reg_setReg _ _ _ _).trans (if_neg h'))
  refine ⟨_, release, ?_, ?_, group, rfl, fun k hk h => port _ (by omega) h⟩
  · refine (congrArg (fun w => getF w (4 * g) 3) ((reg 0x201 (by decide) (by decide)).trans code)).trans ?_
    rw [getF_setF_same _ _ _ _ (by omega)]
    omega
  · exact (congrArg (fun w => getF w g 1 == 1) (reg 0x205 (by decide) (by decide))).trans done

/-! ## The three commands of a switch -/

theorem portFreeze_eq {s : State} {n : PortId} (here : present s n = true) (switching : pSwitching s n = true)
    (running : (s.group (n.val / 4)).stopped = false) (boundary : freezable s n = true) :
    exec (.portFreeze n) s = .next (s.setPort n { s.port n with frozen := true }) :=
  if_pos (by simp [here, switching, boundary, pGroup, running])

theorem groupQuietPoint_eq {s : State} {g : Fin 4} (switching : (s.group g).switching = true) (running : (s.group g).stopped = false)
    (locked : s.power.relock = false) (frozen : ∀ k, k < 4 → present s (4 * g + k) = true → (s.port (4 * g + k)).frozen = true) :
    exec (.groupQuietPoint g) s = .next (s.setGroup g { s.group g with stopped := true }) := by
  refine if_pos ?_
  simp only [switching, running, locked, Bool.not_false, Bool.true_and, List.all_eq_true, List.mem_range]
  intro k hk
  have := frozen k hk
  cases h : present s (4 * g + k) <;> simp_all

/-- Settles O7: a port freezes and a group's clock stops where the command's condition holds; the release is `groupClockRelease_lands`. -/
theorem groupClockSwitch : Obligations.GroupClockSwitch := by
  unfold Obligations.GroupClockSwitch
  intro s n g e m v x
  refine ⟨portFreeze_eq, fun switching running locked groups frozen => ?quiet,
    fun switching stopped locked groups small _ _ staged queued clk words _ asked =>
      groupClockRelease_lands switching stopped locked groups small staged queued clk words asked⟩
  case quiet =>
    obtain ⟨run, switch⟩ := State.setGroup_bits s g.isLt { x with stopped := true }
    exact ⟨_, groupQuietPoint_eq switching running locked frozen, State.group_setGroup (by omega) _, run.trans (Bool.and_false _),
      switch.trans switching, fun _ h => State.reg_setGroup_other s g _ h, rfl⟩

end Sys2Proof.Machine
end

section
/-! PROOF. The commit strobe (O5): which blocks a strobe stages, that those of groups 4 to 7 wait for their boundaries, and that those of group 0
apply at once. -/
namespace Sys2Proof.Machine

/-! ## The blocks of a strobe -/

theorem instGroup_of_mem {s : State} {k : Nat} {i : Inst} (hk : k < 8) (h : i ∈ groupInsts s k) : instGroup i = k := by
  obtain rfl | rfl | rfl | rfl | rfl | rfl | rfl | rfl : k = 0 ∨ k = 1 ∨ k = 2 ∨ k = 3 ∨ k = 4 ∨ k = 5 ∨ k = 6 ∨ k = 7 := by omega
  all_goals
    simp only [groupInsts, List.mem_cons, List.mem_append, List.mem_map, List.not_mem_nil, or_false] at h
    rcases h with h | h <;> grind [instGroup]
theorem groupInsts_nodup (s : State) {k : Nat} (hk : k < 8) : (groupInsts s k).Nodup := by
  have map {α : Type} {f : α → Inst} {l : List α} (hf : Function.Injective f) (hl : l.Nodup) : (l.map f).Nodup := hl.map hf
  obtain rfl | rfl | rfl | rfl | rfl | rfl | rfl | rfl : k = 0 ∨ k = 1 ∨ k = 2 ∨ k = 3 ∨ k = 4 ∨ k = 5 ∨ k = 6 ∨ k = 7 := by omega
  case inr.inr.inl => exact (List.nodup_range.filter _).map fun _ _ h => Inst.port.inj h
  case inr.inr.inr.inl => exact List.nodup_cons.2 ⟨by simp, List.nodup_range.map fun _ _ h => Inst.circ.inj h⟩
  case inr.inr.inr.inr.inl => exact (List.nodup_range.map fun _ _ h => Inst.ctx.inj h).append (by simp) (by simp)
  all_goals simp [groupInsts]
theorem mem_strobedInsts {s : State} {g : Nat} {i : Inst} (h : i ∈ strobedInsts s g) : g.testBit (instGroup i) = true := by
  simp only [strobedInsts, List.mem_flatMap, List.mem_filter, List.mem_range] at h
  obtain ⟨k, ⟨hk, bit⟩, mem⟩ := h
  rwa [instGroup_of_mem hk mem]
theorem strobedInsts_nodup (s : State) (g : Nat) : (strobedInsts s g).Nodup := by
  refine List.nodup_flatMap.2 ⟨fun k hk => groupInsts_nodup s (by simp at hk; exact hk.1), ?_⟩
  refine (List.nodup_range.filter _).imp_of_mem fun {j k} hj hk ne i hi hi' => ne ?_
  simp only [List.mem_filter, List.mem_range] at hj hk
  rw [← instGroup_of_mem hj.1 hi, instGroup_of_mem hk.1 hi']
theorem mem_byPosition {l : List Inst} {i : Inst} : i ∈ byPosition l ↔ i ∈ l := by
  have pos : instPos i < 15 := by cases i <;> simp [instPos]
  simp only [byPosition, List.mem_flatMap, List.mem_range, List.mem_filter, beq_iff_eq]
  exact ⟨fun ⟨_, _, h, _⟩ => h, fun h => ⟨_, pos, h, rfl⟩⟩
theorem byPosition_nodup {l : List Inst} (h : l.Nodup) : (byPosition l).Nodup := by
  refine List.nodup_flatMap.2 ⟨fun _ _ => h.filter _, List.nodup_range.imp fun {j k} ne i hi hi' => ne ?_⟩
  simp only [List.mem_filter, beq_iff_eq] at hi hi'
  exact hi.2.symm.trans hi'.2

/-! ## Staging -/

/-- The entry that a strobe of write `w` stages for block `i`. -/
def freshEntry (s : State) (w : Nat) (i : Inst) : Staged := { inst := i, writes := [w], words := stageWords s i }

/-- The state with other commits staged. -/
def State.withStaged (s : State) (l : List Staged) : State := { s with commit := { s.commit with staged := l } }
@[simp] theorem State.withStaged_staged (s : State) (l : List Staged) : (s.withStaged l).commit.staged = l := rfl
@[simp] theorem State.withStaged_queued (s : State) (l : List Staged) : (s.withStaged l).commit.queued = s.commit.queued := rfl

/-- A block that differs is staged where nothing of it is staged or queued; one that does not differ is left. -/
theorem strobeInst_fresh {w : Nat} {s : State} {k : List Staged} {i : Inst} (queued : s.commit.queued = []) (fresh : ∀ e ∈ k, e.inst ≠ i) :
    strobeInst [w] (s.withStaged k) i = s.withStaged (k ++ ([i].filter (instDiffers s)).map (freshEntry s w)) := by
  have unqueued : isQueued (s.withStaged k) i = false := by simp [isQueued, queued]
  have unstaged : isStaged (s.withStaged k) i = false := by simpa [isStaged] using fresh
  have same : instDiffers (s.withStaged k) i = instDiffers s i := rfl
  rw [strobeInst, if_neg (by simp [unqueued]), if_neg (by simp [unstaged]), same]
  cases h : instDiffers s i
  · simp [h]
  · simp [h]
    rfl

/-- With no strobe queued, blocks that hold no staged commit are staged where they differ, in their order, and nothing else changes. -/
theorem strobeInsts_fresh {w : Nat} {l : List Inst} {s : State} (nodup : l.Nodup) (queued : s.commit.queued = []) (k : List Staged)
    (fresh : ∀ i ∈ l, ∀ e ∈ k, e.inst ≠ i) :
    forList l (strobeInst [w]) (s.withStaged k) = s.withStaged (k ++ (l.filter (instDiffers s)).map (freshEntry s w)) := by
  unfold forList
  induction l generalizing k with
  | nil => simp
  | cons i l ih =>
    obtain ⟨notin, nodup⟩ := List.nodup_cons.1 nodup
    rw [List.foldl, strobeInst_fresh queued (fresh i (by simp)), ih nodup]
    · rw [← List.singleton_append (l := l), List.filter_append, List.map_append, List.append_assoc]
    · intro j hj e he
      rcases List.mem_append.1 he with he | he
      · exact fresh j (by simp [hj]) e he
      · obtain ⟨m, hm, rfl⟩ := List.mem_map.1 he
        obtain rfl := List.mem_singleton.1 (List.mem_of_mem_filter hm)
        rintro rfl
        exact notin hj

/-- The state whose next GLB_COMMIT write has the next number. -/
def State.nextWritten (s : State) : State := { s with commit := { s.commit with nextWrite := s.commit.nextWrite + 1 } }

/-- What a strobe leaves to settle where nothing is staged or queued. -/
theorem strobed_fresh {s : State} (staged : s.commit.staged = []) (queued : s.commit.queued = []) (g : Nat) : s.strobed g =
    doneCheck (s.nextWritten.withStaged (((byPosition (strobedInsts s g)).filter (instDiffers s)).map (freshEntry s s.commit.nextWrite)))
      s.commit.nextWrite := by
  have none : s.nextWritten = s.nextWritten.withStaged [] := by simp [State.nextWritten, State.withStaged, staged]
  show doneCheck (forList (byPosition (strobedInsts s g)) (strobeInst [s.commit.nextWrite]) s.nextWritten) _ = _
  have strobes := strobeInsts_fresh (w := s.commit.nextWrite) (s := s.nextWritten) (byPosition_nodup (strobedInsts_nodup s g)) queued [] (by simp)
  rw [← none] at strobes
  exact congrArg (doneCheck · s.commit.nextWrite) strobes

/-- A write with nothing left is done (R149). -/
theorem doneCheck_nothing {s : State} (staged : s.commit.staged = []) (queued : s.commit.queued = []) (w : Nat) :
    (doneCheck s w).bit 0x0B 3 = true := by
  have pending : writePending s w = false := by simp [writePending, staged, queued]
  have set : (s.setBit 0x0B 3).bit 0x0B 3 = true := State.bit_setBit_same s 0x0B 3 true (by decide)
  rw [doneCheck, if_neg (by simp [pending])]
  exact set

/-! ## Groups 4 to 7 wait (Table 5-2) -/

/-- A strobe of group 4 or above applies at no block's moment. -/
theorem atOnce_of_group {s : State} {e : Staged} (h : 4 ≤ instGroup e.inst) : atOnce s e = false := by
  unfold atOnce
  cases hi : e.inst <;> simp [hi, instGroup] at h ⊢

theorem settleAll_of_waiting {s : State} (h : ∀ e ∈ s.commit.staged, atOnce s e = false) : settleAll s = s := by
  have none : s.commit.staged.find? (fun e => atOnce s e && inTurn s e) = none := by
    simp only [List.find?_eq_none]
    intro e he
    simp [h e he]
  simp [settleAll, settleCommits, none]

/-- A strobe without groups 0 to 3 names none of them. -/
theorem lowGroups {g : BitVec 8} (late : g &&& 0x0F#8 = 0#8) {k : Nat} (hk : k < 4) : g.toNat.testBit k = false := by
  have bit : (g &&& 0x0F#8).getLsbD k = false := by simp [late]
  rw [BitVec.getLsbD_and] at bit
  obtain rfl | rfl | rfl | rfl : k = 0 ∨ k = 1 ∨ k = 2 ∨ k = 3 := by omega
  all_goals exact (Bool.and_true _).symm.trans bit

theorem strobe_late_groups {s : State} {g : BitVec 8} (some : g ≠ 0#8) (late : g &&& 0x0F#8 = 0#8) (mantled : s.boot.mantled = true)
    (staged : s.commit.staged = []) (queued : s.commit.queued = []) :
    (∀ b, b ≠ 0x0B → (doCommit s g.toNat).reg b = s.reg b) ∧
    (∀ i, i ∈ strobedInsts s g.toNat → instDiffers s i = true →
      ∃ e ∈ (doCommit s g.toNat).commit.staged, e.inst = i ∧ e.words = stageWords s i) ∧
    ((∀ i ∈ strobedInsts s g.toNat, instDiffers s i = false) →
      (doCommit s g.toNat).commit.staged = [] ∧ (doCommit s g.toNat).bit 0x0B 3 = true) := by
  have group {i : Inst} (h : i ∈ strobedInsts s g.toNat) : 4 ≤ instGroup i := by
    by_contra low
    exact absurd (mem_strobedInsts h) (by simp [lowGroups late (Nat.lt_of_not_le low)])
  have strobed := strobed_fresh staged queued g.toNat
  generalize hl : (byPosition (strobedInsts s g.toNat)).filter (instDiffers s) = l at strobed
  have mem (i : Inst) : i ∈ l ↔ i ∈ strobedInsts s g.toNat ∧ instDiffers s i = true := by rw [← hl, List.mem_filter, mem_byPosition]
  obtain ⟨r, d, done, words⟩ := doneCheck_leaves (s.nextWritten.withStaged (l.map (freshEntry s s.commit.nextWrite))) s.commit.nextWrite
  have stays : (s.strobed g.toNat).commit.staged = l.map (freshEntry s s.commit.nextWrite) := by
    rw [strobed, done]
    rfl
  have lands : doCommit s g.toNat = s.strobed g.toNat := by
    rw [doCommit_strobed (by simpa using fun h => some (BitVec.eq_of_toNat_eq h)) mantled]
    refine settleAll_of_waiting fun e he => atOnce_of_group ?_
    rw [stays] at he
    obtain ⟨i, hi, rfl⟩ := List.mem_map.1 he
    exact group ((mem i).1 hi).1
  rw [lands, stays]
  refine ⟨fun b hb => ?_, fun i hi differs => ⟨freshEntry s _ i, List.mem_map.2 ⟨i, (mem i).2 ⟨hi, differs⟩, rfl⟩, rfl, rfl⟩, fun same => ?_⟩
  · rw [strobed, words b hb]
    rfl
  · obtain rfl : l = [] := List.eq_nil_iff_forall_not_mem.2 fun i hi => by
      obtain ⟨hi, differs⟩ := (mem i).1 hi
      simp [same i hi] at differs
    refine ⟨rfl, ?_⟩
    rw [strobed, List.map_nil]
    exact doneCheck_nothing (s := s.nextWritten.withStaged []) rfl queued _

end Sys2Proof.Machine
end

section
/-! PROOF. A strobe of group 0 applies at once (O5). -/
namespace Sys2Proof.Machine

/-! ## The words of an entry -/

theorem putWords_cons (s : State) (t : Nat × Word × Word) (l : List (Nat × Word × Word)) :
    putWords s (t :: l) = putWords (s.setReg t.1 ((s.reg t.1 &&& ~~~t.2.1) ||| (t.2.2 &&& t.2.1))) l := rfl
theorem putWords_eq (s : State) (l : List (Nat × Word × Word)) : ∃ r, putWords s l = { s with regs := r } := by
  induction l generalizing s with
  | nil => exact ⟨s.regs, rfl⟩
  | cons t l ih =>
    obtain ⟨r, e⟩ := ih (s.setReg t.1 ((s.reg t.1 &&& ~~~t.2.1) ||| (t.2.2 &&& t.2.1)))
    exact ⟨r, (putWords_cons s t l).trans e⟩
theorem putWords_reg_other {s : State} {l : List (Nat × Word × Word)} {a : Nat} (h : ∀ t ∈ l, t.1 ≠ a) : (putWords s l).reg a = s.reg a := by
  induction l generalizing s with
  | nil => rfl
  | cons t l ih => rw [putWords_cons, ih fun u hu => h u (by simp [hu]), State.reg_setReg, if_neg (h t (by simp)).symm]
/-- A word put once holds its staged bits. -/
theorem putWords_reg_of_mem {s : State} {l : List (Nat × Word × Word)} (once : (l.map (·.1)).Nodup) {a : Nat} {m v : Word} (h : (a, m, v) ∈ l) :
    (putWords s l).reg a &&& m = v &&& m := by
  induction l generalizing s with
  | nil => simp at h
  | cons t l ih =>
    obtain ⟨first, once⟩ := List.nodup_cons.1 once
    rw [putWords_cons]
    rcases List.mem_cons.1 h with rfl | h
    · rw [putWords_reg_other (fun t ht e => first (List.mem_map.2 ⟨t, ht, e⟩)), State.reg_setReg, if_pos rfl]
      ext i
      simp
      cases m[i] <;> simp
    · exact ih once h

/-! ## The blocks of group 0 -/

/-- The blocks that group 0 names (Table 5-1). -/
def firstBlocks : List Inst := [.glb, .str, .sup, .hst]

theorem strobedInsts_first (s : State) : byPosition (strobedInsts s 1) = firstBlocks := rfl
theorem firstBlocks_words : ∀ i ∈ firstBlocks, (instAddrs i).Nodup ∧ ∀ a ∈ instAddrs i, a ≠ 0x0B ∧ a ≠ 0x409 := by decide
theorem firstBlocks_apart : ∀ i ∈ firstBlocks, ∀ j ∈ firstBlocks, ∀ a ∈ instAddrs i, a ∈ instAddrs j → i = j := by decide


/-- An entry of group 0 puts its words and ends; the hand-back timer may start with it (R71). -/
theorem applyPlain_first {e : Staged} (h : e.inst ∈ firstBlocks) (s : State) :
    ∃ r st, applyPlain s e = finishEntry { s with regs := r, strap := st } e ∧ r = (putWords s e.words).regs := by
  obtain ⟨r, eq⟩ := putWords_eq s e.words
  obtain inst | inst | inst | inst : e.inst = .glb ∨ e.inst = .str ∨ e.inst = .sup ∨ e.inst = .hst := by simpa [firstBlocks] using h
  case inr.inl =>
    refine ⟨r, (afterStr { s with regs := r }).strap, ?_, by rw [eq]⟩
    rw [applyPlain, inst, eq]
    rfl
  all_goals
    refine ⟨r, s.strap, ?_, by rw [eq]⟩
    rw [applyPlain, inst, eq]

/-- The first blocks' commits of write `w` under way: staged entries in the order of Table 5-3 with the words that `s` gives them, every other
block's words landed, and DONE set once none is left. -/
structure FirstSettling (s : State) (w : Nat) (v : State) : Prop where
  runs : commitsRun v = true
  idle : v.host.selected = false
  queued : v.commit.queued = []
  sorted : v.commit.staged.Pairwise (fun e o => instPos e.inst < instPos o.inst)
  entries : ∀ e ∈ v.commit.staged, e.inst ∈ firstBlocks ∧ e = freshEntry s w e.inst
  landed : ∀ i ∈ firstBlocks, isStaged v i = false → ∀ a ∈ instAddrs i, v.reg a &&& accMask .rb a = s.shad a &&& accMask .rb a
  done : v.commit.staged = [] → v.bit 0x0B 3 = true

/-- The entry at the front applies: its words land, and the others are as they were. -/
theorem FirstSettling.step {s v : State} {w : Nat} {e : Staged} {l : List Staged} (h : FirstSettling s w v) (staged : v.commit.staged = e :: l) :
    FirstSettling s w (applyPlain v e) ∧ (applyPlain v e).commit.staged = l := by
  obtain ⟨runs, idle, queued, sorted, entries, landed, -⟩ := h
  rw [staged] at sorted entries
  obtain ⟨before, sorted⟩ := List.pairwise_cons.1 sorted
  obtain ⟨first, entry⟩ := entries e (by simp)
  have words : e.words = stageWords s e.inst := congrArg Staged.words entry
  have writes : e.writes = [w] := congrArg Staged.writes entry
  obtain ⟨once, apart⟩ := firstBlocks_words _ first
  obtain ⟨r, st, apply, hr⟩ := applyPlain_first first v
  have front := finishEntry_front (s := { v with regs := r, strap := st }) staged queued fun o ho same => by
    have := before o ho
    rw [same] at this
    omega
  rw [writes] at front
  obtain ⟨r', d, eq, others⟩ := doneCheck_leaves (({ v with regs := r, strap := st }.withStaged l).countWrap 0x409) w
  have lands : applyPlain v e = doneCheck (({ v with regs := r, strap := st }.withStaged l).countWrap 0x409) w := apply.trans front
  have put {a : Nat} (h1 : a ≠ 0x0B) (h2 : a ≠ 0x409) : (applyPlain v e).reg a = (putWords v e.words).reg a := by
    rw [lands, others a h1]
    refine (State.reg_setReg _ _ _ _).trans ((if_neg h2).trans ?_)
    show fget resetWord r a = _
    rw [hr]
    rfl
  have left : (applyPlain v e).commit.staged = l := by
    rw [lands, eq]
    rfl
  refine ⟨⟨?_, ?_, ?_, ?_, ?_, ?_, ?_⟩, left⟩
  · rw [lands, eq]
    exact runs
  · rw [lands, eq]
    exact idle
  · rw [lands, eq]
    exact queued
  · rwa [left]
  · rw [left]
    exact fun o ho => entries o (by simp [ho])
  · intro i hi unstaged a ha
    obtain ⟨-, free⟩ := firstBlocks_words i hi
    rw [put (free a ha).1 (free a ha).2]
    by_cases same : i = e.inst
    · subst same
      refine putWords_reg_of_mem ?_ (words ▸ List.mem_map.2 ⟨a, ha, rfl⟩)
      simpa [words, stageWords, Function.comp_def] using once
    · rw [putWords_reg_other]
      · refine landed i hi ?_ a ha
        rw [isStaged, left] at unstaged
        simpa [isStaged, staged, Ne.symm same] using unstaged
      · intro t ht here
        rw [words] at ht
        obtain ⟨b, hb, rfl⟩ := List.mem_map.1 ht
        exact same (firstBlocks_apart i hi _ first a ha (here ▸ hb))
  · intro none
    rw [left] at none
    subst none
    rw [lands]
    exact doneCheck_nothing (s := ({ v with regs := r, strap := st }.withStaged []).countWrap 0x409) rfl queued w

/-- The entry at the front applies at once. -/
theorem FirstSettling.front {s v : State} {w : Nat} {e : Staged} {l : List Staged} (h : FirstSettling s w v) (staged : v.commit.staged = e :: l) :
    v.commit.staged.find? (fun e => atOnce v e && inTurn v e) = some e ∧ ∀ c, e.inst ≠ .circ c := by
  obtain ⟨-, idle, queued, sorted, entries, -, -⟩ := h
  rw [staged] at sorted
  obtain ⟨before, -⟩ := List.pairwise_cons.1 sorted
  obtain ⟨first, -⟩ := entries e (by simp [staged])
  have turn : inTurn v e = true := by
    simp only [inTurn, staged, queued, List.any_nil, Bool.not_false, Bool.and_true, Bool.not_eq_true', List.any_eq_false]
    intro o ho
    have late : instPos e.inst ≤ instPos o.inst := by
      rcases List.mem_cons.1 ho with rfl | ho
      · exact Nat.le_refl _
      · exact Nat.le_of_lt (before o ho)
    simp [Nat.not_lt.2 late]
  have once : atOnce v e = true ∧ ∀ c, e.inst ≠ .circ c := by
    obtain inst | inst | inst | inst : e.inst = .glb ∨ e.inst = .str ∨ e.inst = .sup ∨ e.inst = .hst := by simpa [firstBlocks] using first
    all_goals simp [atOnce, inst, idle]
  exact ⟨by simp [staged, turn, once.1], once.2⟩

/-- In that order every entry applies, in as many rounds as there are. -/
theorem FirstSettling.settles {s : State} {w : Nat} (f : Nat) {v : State} (h : FirstSettling s w v) (room : v.commit.staged.length ≤ f) :
    FirstSettling s w (settleCommits f v) ∧ (settleCommits f v).commit.staged = [] := by
  induction f generalizing v with
  | zero => exact ⟨h, List.length_eq_zero_iff.1 (Nat.le_zero.1 room)⟩
  | succ f ih =>
    cases staged : v.commit.staged with
    | nil => simpa [settleCommits, h.runs, staged] using h
    | cons e l =>
      obtain ⟨step, rest⟩ := h.step staged
      obtain ⟨found, plain⟩ := h.front staged
      have next : settleCommits (f + 1) v = settleCommits f (applyPlain v e) := by
        simp only [settleCommits, h.runs, found, Bool.not_true, Bool.false_eq_true, if_false]
      rw [next]
      exact ih step (by rw [rest]; simpa [staged] using room)

/-- A strobe of group 0 with no commit outstanding stages the blocks that differ, in their order. -/
theorem FirstSettling.start {s : State} (runs : commitsRun s = true) (idle : s.host.selected = false) (staged : s.commit.staged = [])
    (queued : s.commit.queued = []) : FirstSettling s s.commit.nextWrite (s.strobed 1) ∧ (s.strobed 1).commit.staged.length ≤ 160 := by
  have strobed := strobed_fresh staged queued 1
  rw [strobedInsts_first] at strobed
  obtain ⟨r, d, done, words⟩ :=
    doneCheck_leaves (s.nextWritten.withStaged ((firstBlocks.filter (instDiffers s)).map (freshEntry s s.commit.nextWrite))) s.commit.nextWrite
  have stays : (s.strobed 1).commit.staged = (firstBlocks.filter (instDiffers s)).map (freshEntry s s.commit.nextWrite) := by
    rw [strobed, done]
    rfl
  refine ⟨⟨?_, ?_, ?_, ?_, ?_, ?_, ?_⟩, ?_⟩
  · rw [strobed, done]
    exact runs
  · rw [strobed, done]
    exact idle
  · rw [strobed, done]
    exact queued
  · rw [stays, List.pairwise_map]
    have sorted : firstBlocks.Pairwise (fun i j => instPos i < instPos j) := by decide
    exact sorted.filter _
  · rw [stays]
    intro e he
    obtain ⟨i, hi, rfl⟩ := List.mem_map.1 he
    exact ⟨(List.mem_filter.1 hi).1, rfl⟩
  · intro i hi unstaged a ha
    have same : instDiffers s i = false := by
      by_contra differs
      rw [isStaged, stays] at unstaged
      have := List.any_eq_false.1 unstaged (freshEntry s s.commit.nextWrite i)
        (List.mem_map.2 ⟨i, List.mem_filter.2 ⟨hi, by simpa using differs⟩, rfl⟩)
      simp [freshEntry] at this
    rw [strobed, words a (firstBlocks_words i hi |>.2 a ha).1]
    have := List.any_eq_false.1 same a ha
    exact (by simpa using this : s.shad a &&& accMask .rb a = s.reg a &&& accMask .rb a).symm
  · intro none
    rw [stays] at none
    rw [strobed, none]
    exact doneCheck_nothing (s := s.nextWritten.withStaged []) rfl queued _
  · rw [stays, List.length_map]
    exact (List.length_filter_le _ _).trans (by decide)

/-- GLB, STR, SUP and HST apply at the strobe (Table 5-2). -/
theorem strobe_first_group {s : State} (mantled : s.boot.mantled = true) (runs : commitsRun s = true) (idle : s.host.selected = false)
    (staged : s.commit.staged = []) (queued : s.commit.queued = []) :
    (doCommit s 1).commit.staged = [] ∧ (doCommit s 1).bit 0x0B 3 = true ∧
      ∀ i ∈ firstBlocks, ∀ a ∈ instAddrs i, (doCommit s 1).reg a &&& accMask .rb a = s.shad a &&& accMask .rb a := by
  obtain ⟨start, room⟩ := FirstSettling.start runs idle staged queued
  obtain ⟨ended, none⟩ := start.settles 160 room
  rw [doCommit_strobed (by decide) mantled]
  exact ⟨none, ended.done none, fun i hi a ha => ended.landed i hi (by simp [isStaged, none]) a ha⟩

/-! ## COMMIT_STROBE -/

theorem exec_commitStrobe (g : BitVec 8) (s : State) : exec (.commitStrobe g) s = .next (viaHost s fun s => doCommit s g.toNat) := rfl

/-- Settles O5: the strobe of a late group waits with its words frozen, the strobe of group 0 applies entry by entry. -/
theorem commitStrobes : Obligations.CommitStrobes := by
  unfold Obligations.CommitStrobes
  intro s g
  refine ⟨fun out => ?_, ?_, fun reach => ⟨fun some early => ?_, fun mantled locked awake staged queued => ⟨fun some late => ?_, fun idle => ?_⟩⟩⟩
  · rw [exec_commitStrobe, viaHost_unreached out]
  · cases reach : hostReach s <;> simp [exec_commitStrobe, reach, doCommit]
  · have nonzero : g.toNat ≠ 0 := by simpa using fun h => some (BitVec.eq_of_toNat_eq h)
    rw [exec_commitStrobe, viaHost_reached reach]
    refine ⟨_, rfl, ?_⟩
    rw [doCommit, if_neg nonzero, if_pos (by simp [early])]
    exact ⟨rfl, rfl, _, rfl, rfl⟩
  · rw [exec_commitStrobe, viaHost_reached reach]
    exact ⟨_, rfl, strobe_late_groups some late mantled staged queued⟩
  · have runs : commitsRun s = true := by simp [commitsRun, mantled, locked, awake]
    obtain ⟨none, done, landed⟩ := strobe_first_group mantled runs idle staged queued
    rw [exec_commitStrobe, viaHost_reached reach]
    refine ⟨_, rfl, none, done, ?_⟩
    have words : ∀ a ∈ [0x0A, 0x110, 0x304, 0x307, 0x308, 0x309, 0x401], ∃ i ∈ firstBlocks, a ∈ instAddrs i := by decide
    intro a ha
    obtain ⟨i, hi, ha⟩ := words a ha
    exact landed i hi a ha

end Sys2Proof.Machine
end

section
/-! PROOF. A port's receiver, its break request, its counters and its CTS input (O36). -/
namespace Sys2Proof.Machine

/-! ## A change of registers and one port -/

/-- A step at port `n` changes that port and the words of `l` only. -/
def PortStep (s : State) (n : Nat) (q : Port) (l : List Nat) (t : State) : Prop :=
  t = { s with regs := t.regs, ports := t.ports } ∧ t.port n = q ∧ (∀ j, j ≠ n → t.port j = s.port j) ∧ ∀ a, a ∉ l → t.reg a = s.reg a

theorem PortStep.refl (s : State) (n : Nat) : PortStep s n (s.port n) [] s := ⟨rfl, rfl, fun _ _ => rfl, fun _ _ => rfl⟩
theorem PortStep.setPort {s t : State} {n : Nat} {q : Port} {l : List Nat} (h : PortStep s n q l t) (p : Port) :
    PortStep s n p l (t.setPort n p) := by
  obtain ⟨eq, -, others, words⟩ := h
  refine ⟨?_, by rw [State.port_setPort, if_pos rfl], fun j hj => by rw [State.port_setPort, if_neg hj, others j hj], words⟩
  rw [eq]
  rfl
theorem PortStep.setFld {s t : State} {n : Nat} {q : Port} {l : List Nat} (h : PortStep s n q l t) (a lo wd v : Nat) :
    PortStep s n q (a :: l) (t.setFld a lo wd v) := by
  obtain ⟨eq, port, others, words⟩ := h
  refine ⟨?_, port, others, fun b hb => ?_⟩
  · rw [eq]
    rfl
  · obtain ⟨other, rest⟩ := not_or.1 (List.mem_cons.not.1 hb)
    rw [State.reg_setFld_other _ _ _ _ _ other, words b rest]
theorem PortStep.setBit {s t : State} {n : Nat} {q : Port} {l : List Nat} (h : PortStep s n q l t) (a i : Nat) (v : Bool := true) :
    PortStep s n q (a :: l) (t.setBit a i v) := h.setFld a i 1 _
theorem PortStep.count {s t : State} {n : Nat} {q : Port} {l : List Nat} (h : PortStep s n q l t) (a lo wd : Nat) :
    PortStep s n q (a :: l) (t.count a lo wd) := h.setFld a lo wd _
theorem PortStep.mono {s t : State} {n : Nat} {q : Port} {l l' : List Nat} (h : PortStep s n q l t) (sub : ∀ a ∈ l, a ∈ l') :
    PortStep s n q l' t := by
  obtain ⟨eq, port, others, words⟩ := h
  exact ⟨eq, port, others, fun a ha => words a fun h => ha (sub a h)⟩

/-! ## The receiver (R109, R173–R176, R182) -/

/-- A false start counts and loses its mark of an early edge (R173). -/
theorem falseStart_lands (s : State) (n : Nat) : PortStep s n { s.port n with early := false } [pAddr n 0x1D] (falseStart s n) ∧
    (falseStart s n).fld (pAddr n 0x1D) 0 16 = min (s.fld (pAddr n 0x1D) 0 16 + 1) 65535 ∧
    (falseStart s n).fld (pAddr n 0x1D) 16 16 = s.fld (pAddr n 0x1D) 16 16 := by
  refine ⟨(((PortStep.refl s n).setPort _).count _ 0 16).mono (fun _ h => h), ?_, ?_⟩
  · exact (State.fld_count_same _ _ 0 16 (by decide)).trans (satInc_eq_min _ _)
  · exact State.fld_setFld_disjoint _ _ 0 16 _ 16 16 (.inl (by decide))

/-- A lost character changes its port's two words, and on a port that woke the device CLK_WAKESRC.LOST (R128). -/
theorem loseChar_lands (s : State) (n : Nat) : PortStep s n (s.port n) [pAddr n 0x1D, pAddr n 0x13, 0x206] (loseChar s n) ∧
    (loseChar s n).fld (pAddr n 0x1D) 16 16 = min (s.fld (pAddr n 0x1D) 16 16 + 1) 65535 ∧ (loseChar s n).bit (pAddr n 0x13) 11 = true := by
  have apart : pAddr n 0x1D ≠ pAddr n 0x13 ∧ pAddr n 0x1D ≠ 0x206 ∧ pAddr n 0x13 ≠ 0x206 := by
    simp only [pAddr]
    omega
  obtain ⟨errEvt, errWake, evtWake⟩ := apart
  have lost := ((PortStep.refl s n).count (pAddr n 0x1D) 16 16).setBit (pAddr n 0x13) 11
  have counted : ((s.count (pAddr n 0x1D) 16 16).setBit (pAddr n 0x13) 11).fld (pAddr n 0x1D) 16 16 =
      min (s.fld (pAddr n 0x1D) 16 16 + 1) 65535 := by
    rw [State.fld_setBit_other _ _ _ errEvt, State.fld_count_same _ _ _ _ (by decide)]
    exact satInc_eq_min _ _
  have noted : ((s.count (pAddr n 0x1D) 16 16).setBit (pAddr n 0x13) 11).bit (pAddr n 0x13) 11 = true :=
    State.bit_setBit_same _ _ _ _ (by decide)
  unfold loseChar
  dsimp only
  split
  · refine ⟨(lost.count 0x206 24 8).mono (by simp), ?_, ?_⟩
    · exact (State.fld_setFld_other _ _ _ _ _ _ _ errWake).trans counted
    · rw [State.bit, State.reg_count_other _ _ _ _ evtWake]
      exact noted
  · exact ⟨lost.mono (by simp), counted, noted⟩

/-- The port as a received break leaves it (R182, R196, R222). -/
def afterBreak (s : State) (n : Nat) : Port :=
  { s.port n with lineBrk := false, armed := true, rearm := false, timeout := true, frameStart := (s.port n).frameStart || pAddrMode s n == 1 }
/-- The state as a received break of `len` bit times leaves it. -/
def endBreak (s : State) (n len : Nat) : State :=
  ((s.setBit (pAddr n 0x13) 1).setFld (pAddr n 0x15) 0 16 (min 65535 len)).setPort n (afterBreak s n)

theorem endBreak_lands (s : State) (n len : Nat) : PortStep s n (afterBreak s n) [pAddr n 0x13, pAddr n 0x15] (endBreak s n len) ∧
    (endBreak s n len).fld (pAddr n 0x15) 0 16 = min 65535 len ∧ (endBreak s n len).bit (pAddr n 0x13) 1 = true := by
  have apart : pAddr n 0x13 ≠ pAddr n 0x15 := by
    simp only [pAddr]
    omega
  refine ⟨((((PortStep.refl s n).setBit _ 1).setFld _ 0 16 _).setPort _).mono (by simp), ?_, ?_⟩
  · show ((s.setBit (pAddr n 0x13) 1).setFld (pAddr n 0x15) 0 16 (min 65535 len)).fld (pAddr n 0x15) 0 16 = _
    rw [State.fld_setFld_same _ _ _ _ _ (by decide)]
    exact Nat.mod_eq_of_lt (by omega)
  · show ((s.setBit (pAddr n 0x13) 1).setFld (pAddr n 0x15) 0 16 (min 65535 len)).bit (pAddr n 0x13) 1 = true
    rw [State.bit, State.reg_setFld_other _ _ _ _ _ apart]
    exact State.bit_setBit_same s _ 1 true (by decide)

/-- A live port whose receiver may change its state (R107, R181, R219). -/
def rxReady (s : State) (n : Nat) : Bool := pLive s n && !(s.port n).frozen && !(s.port n).gloved && !s.power.relock && !rxMuted s n
/-- The receiver arms by R176. -/
def armedPort (p : Port) : Port :=
  { p with armed := true, rearm := false, lineBrk := false, early := false, wakeArm := false, frameStart := true,
           frame := 8, frameCirc := none, frameDrop := false }

theorem execReceiverArm_eq (n : PortId) (s : State) :
    execReceiverArm n s = if rxReady s n && !(s.port n).armed then .next (s.setPort n (armedPort (s.port n))) else .next s := by
  have guard : (pLive s n && !(s.port n).armed && !(s.port n).frozen && !(s.port n).gloved && !s.power.relock && !rxMuted s n) =
      (rxReady s n && !(s.port n).armed) := by
    unfold rxReady
    ac_rfl
  rw [← guard]
  rfl
theorem execReceiverRearmAtMark_eq (n : PortId) (s : State) : execReceiverRearmAtMark n s =
    if rxReady s n && (s.port n).rearm && !(s.port n).lineBrk then .next (s.setPort n { s.port n with armed := true, rearm := false })
    else .next s := by
  have guard : (pLive s n && (s.port n).rearm && !(s.port n).lineBrk && !(s.port n).frozen && !(s.port n).gloved && !s.power.relock &&
      !rxMuted s n) = (rxReady s n && (s.port n).rearm && !(s.port n).lineBrk) := by
    unfold rxReady
    ac_rfl
  rw [← guard]
  rfl
/-- The first mark sample after a break ends it where the port is in one. -/
theorem execBreakEnd_eq (n : PortId) (len : BitVec 32) (s : State) :
    execBreakEnd n len s = if rxReady s n && (s.port n).lineBrk then .next (endBreak s n len.toNat) else .next s := by
  have guard : ((s.port n).lineBrk && !(s.port n).gloved && !(s.port n).frozen && pLive s n && !s.power.relock && !rxMuted s n) =
      (rxReady s n && (s.port n).lineBrk) := by
    unfold rxReady
    ac_rfl
  have mode : pAddrMode ((s.setBit (pAddr n 0x13) 1).setFld (pAddr n 0x15) 0 16 (min 65535 len.toNat)) n = pAddrMode s n := by
    have apart : pAddr n 8 ≠ pAddr n 0x15 ∧ pAddr n 8 ≠ pAddr n 0x13 := by
      simp only [pAddr]
      omega
    exact (State.fld_setFld_other _ _ _ _ _ _ _ apart.1).trans (State.fld_setBit_other _ _ _ apart.2)
  unfold execBreakEnd
  dsimp only
  rw [mode, guard]
  rfl

/-- A character is lost at a start edge: the receiver of a port in use, or one that a wake enables, is frozen, switching or not armed
(R109, R128, R176). -/
def edgeLost (s : State) (n : Nat) : Bool :=
  (pLive s n || (s.power.waking && present s n && pEn s n)) && !(s.port n).gloved && !rxMuted s n &&
    ((s.port n).frozen || pSwitching s n || !((s.port n).armed || (s.port n).rearm || (s.port n).lineBrk))
theorem execStartEdgeBeforeArming_eq (n : PortId) (s : State) :
    execStartEdgeBeforeArming n s = if edgeLost s n then .next (loseChar s n) else .next s := rfl

/-! ## The counters (Table 6-9) -/

/-- Words set to 0 one after another are 0, the others stay. -/
theorem reg_zeroWords (a k : Nat) (s : State) : ∃ r, forEach k (fun s i => s.setReg (a + i) 0#32) s = { s with regs := r } ∧
    ∀ b, (forEach k (fun s i => s.setReg (a + i) 0#32) s).reg b = if a ≤ b ∧ b < a + k then 0#32 else s.reg b := by
  induction k with
  | zero => exact ⟨s.regs, rfl, fun b => (if_neg (by omega)).symm⟩
  | succ k ih =>
    obtain ⟨r, eq, words⟩ := ih
    have last : forEach (k + 1) (fun s i => s.setReg (a + i) 0#32) s = (forEach k (fun s i => s.setReg (a + i) 0#32) s).setReg (a + k) 0#32 := by
      simp [forEach, List.range_succ]
    rw [last]
    refine ⟨_, by rw [eq]; rfl, fun b => ?_⟩
    rw [State.reg_setReg, words b]
    by_cases here : b = a + k
    · simp [here]
    · have range : (a ≤ b ∧ b < a + (k + 1)) ↔ (a ≤ b ∧ b < a + k) := by omega
      simp [here, range]

theorem portClrcnt_lands {s : State} {n : Nat} (here : present s n = true) : doPortClrcnt s n = { s with regs := (doPortClrcnt s n).regs } ∧
    ∀ a, (doPortClrcnt s n).reg a = if pAddr n 0x18 ≤ a ∧ a < pAddr n 0x20 then 0#32 else s.reg a := by
  obtain ⟨r, eq, words⟩ := reg_zeroWords (pAddr n 0x18) 8 s
  have zeroes : doPortClrcnt s n = forEach 8 (fun s i => s.setReg (pAddr n 0x18 + i) 0#32) s := by
    rw [doPortClrcnt, if_pos here]
    rfl
  rw [zeroes]
  exact ⟨by rw [eq], words⟩

/-! ## CTS (R208) -/

/-- The levels of AUX once AUXm is at `level`. -/
def auxAfter (s : State) (m : Nat) (level : Bool) : BitVec 8 :=
  if level then s.strap.auxPins ||| BitVec.ofNat 8 (2 ^ m) else s.strap.auxPins &&& ~~~BitVec.ofNat 8 (2 ^ m)
/-- AUX takes its levels. -/
def withPins (s : State) (pins : BitVec 8) : State := { s with strap := { s.strap with auxPins := pins } }
/-- Port `n` takes its CTS over with the event CTSCHG. -/
def takeCts (s : State) (n : Nat) (on : Bool) : State := (modPort s n (fun p => { p with cts := on })).setBit (pAddr n 0x13) 9

/-- A feed circuit's event changes its context only. -/
theorem feedEvent_eq (s : State) (n bit : Nat) : ∃ k, feedEvent s n bit = { s with ctxs := k } := by
  unfold feedEvent
  split
  · exact ⟨s.ctxs, rfl⟩
  · split
    · exact ⟨_, rfl⟩
    · exact ⟨s.ctxs, rfl⟩
theorem feedEvent_signals {s : State} {n : Nat} (trunk : portTrunk s n = none) {c : Nat} (feed : pFeed s n = some c) :
    ((feedEvent s n 14).ctx c).ep.getLsbD 14 = true := by
  have signalled : (feedEvent s n 14).ctx c = { s.ctx c with ep := (s.ctx c).ep ||| BitVec.ofNat 16 (2 ^ 14) } := by
    rw [feedEvent, trunk, feed]
    exact (State.ctx_setCtx _ _ _ _).trans (if_pos rfl)
  rw [signalled, BitVec.getLsbD_or, Bool.or_eq_true]
  exact .inr (by decide)

/-- The test that a CTS change is taken over: after step 8, on a present port with a CTS input, and of another level (R44, R208). -/
def takesCts (s : State) (m : Nat) (on : Bool) : Bool := s.boot.mantled && present s m && hasCts s m && (s.port m).cts != on

theorem takesCts_not (s : State) (m : Nat) (on : Bool) :
    (!s.boot.mantled || !present s m || !hasCts s m || (s.port m).cts == on) = !takesCts s m on := by
  simp [takesCts, bne, Bool.not_and]

theorem execCtsChange_ignored {s : State} {m : Fin 8} {level : Bool} (h : takesCts s m (level == s.bit (pAddr m 0) 5) = false) :
    execCtsChange m level s =
      .next (withPins s (auxAfter s m level)) := by
  refine if_pos (show (!s.boot.mantled || !present s m || !hasCts s m || (s.port m).cts == (level == s.bit (pAddr m 0) 5)) = true from ?_)
  rw [takesCts_not, h, Bool.not_false]

/-- A port's event word is none that says where its characters come from and go. -/
theorem takeCts_keeps (s : State) (n : Nat) (hn : n < 8) (on : Bool) : pFlow (takeCts s n on) n = pFlow s n ∧
    portTrunk (takeCts s n on) n = portTrunk s n ∧ pFeed (takeCts s n on) n = pFeed s n := by
  have word {a : Nat} (h : a ≠ pAddr n 0x13) : (takeCts s n on).reg a = s.reg a := State.reg_setBit_other _ _ 9 true h
  have flow : pAddr n 4 ≠ pAddr n 0x13 ∧ pAddr n 3 ≠ pAddr n 0x13 := by
    simp only [pAddr]
    omega
  have trunk (k : Nat) : utAddr k ≠ pAddr n 0x13 := by
    simp only [pAddr, utAddr]
    omega
  refine ⟨?_, ?_, ?_⟩
  · rw [pFlow, pFlow, State.fld, word flow.1]
    rfl
  · simp only [portTrunk, utPort, State.fld, State.bit, word (trunk _)]
  · have feeds : (takeCts s n on).bit (pAddr n 3) 15 = s.bit (pAddr n 3) 15 := by rw [State.bit, State.bit, word flow.2]
    have circuit : (takeCts s n on).fld (pAddr n 3) 8 6 = s.fld (pAddr n 3) 8 6 := by rw [State.fld, State.fld, word flow.2]
    rw [pFeed, pFeed, feeds, circuit]

/-- The state as a CTS change leaves it where it is taken over. -/
def afterCts (s : State) (m : Nat) (on : Bool) : State := if pFlow (takeCts s m on) m = 1 then feedEvent (takeCts s m on) m 14 else takeCts s m on

theorem execCtsChange_taken {s : State} {m : Fin 8} {level : Bool} (h : takesCts s m (level == s.bit (pAddr m 0) 5) = true) :
    execCtsChange m level s =
      .next (afterCts (withPins s (auxAfter s m level))
        m (level == s.bit (pAddr m 0) 5)) := by
  refine if_neg (show ¬ (!s.boot.mantled || !present s m || !hasCts s m || (s.port m).cts == (level == s.bit (pAddr m 0) 5)) = true from ?_)
  simp [takesCts_not, h]

theorem afterCts_lands (s : State) (m : Nat) (hm : m < 8) (on : Bool) : (afterCts s m on).port m = { s.port m with cts := on } ∧
    (afterCts s m on).bit (pAddr m 0x13) 9 = true ∧ (∀ a, a ≠ pAddr m 0x13 → (afterCts s m on).reg a = s.reg a) ∧
    (afterCts s m on).strap = s.strap ∧
    (pFlow s m = 1 → portTrunk s m = none → ∀ c, pFeed s m = some c → ((afterCts s m on).ctx c).ep.getLsbD 14 = true) := by
  obtain ⟨flow, trunk, feed⟩ := takeCts_keeps s m hm on
  have same : ∃ k, afterCts s m on = { takeCts s m on with ctxs := k } := by
    unfold afterCts
    split
    · exact feedEvent_eq _ _ _
    · exact ⟨(takeCts s m on).ctxs, rfl⟩
  obtain ⟨k, eq⟩ := same
  refine ⟨?_, ?_, fun a ha => ?_, ?_, fun hardware free c fed => ?_⟩
  · rw [eq]
    exact (State.port_setPort s m m _).trans (if_pos rfl)
  · rw [eq]
    exact State.bit_setBit_same (modPort s m _) (pAddr m 0x13) 9 true (by decide)
  · rw [eq]
    exact State.reg_setBit_other (modPort s m _) (pAddr m 0x13) 9 true ha
  · rw [eq]
    rfl
  · rw [afterCts, if_pos (flow.trans hardware)]
    exact feedEvent_signals (trunk.trans free) (feed.trans fed)

/-! ## The receiver's rules -/

/-- Settles O36: every command is its guard, and the change of registers and one port that its lemma above gives. -/
theorem portReceiver : Obligations.PortReceiver := by
  unfold Obligations.PortReceiver
  intro s n len m level x
  refine ⟨fun (ready : rxReady s n = true) idle => ?_, fun (out : rxReady s n = false ∨ _) => ?_,
    fun (ready : rxReady s n = true) rearm off => ?_, fun (out : rxReady s n = false ∨ _) => ?_,
    fun on idle => ⟨fun space => ?_, fun mark => ?_⟩, fun out => ⟨?_, ?_⟩,
    fun (lost : edgeLost s n = true) => ?_, fun (kept : edgeLost s n = false) => ?_,
    fun (ready : rxReady s n = true) brk => ?_, fun (out : rxReady s n = false ∨ _) => ?_,
    fun reach here => ⟨fun free => ?_, fun sending => ?_, ?_⟩, fun out => ⟨?_, ?_⟩, fun taken => ?_, fun ignored => ?_⟩
  · exact (execReceiverArm_eq n s).trans (if_pos (by simp [ready, idle]))
  · exact (execReceiverArm_eq n s).trans (if_neg (by rcases out with out | out <;> simp [out]))
  · exact (execReceiverRearmAtMark_eq n s).trans (if_pos (by simp [ready, rearm, off]))
  · exact (execReceiverRearmAtMark_eq n s).trans (if_neg (by rcases out with out | out | out <;> simp [out]))
  · exact if_pos (by simp [on, idle, space])
  · exact ⟨_, if_pos (by simp [on, idle, mark]), falseStart_lands s n⟩
  · exact if_neg (by rcases out with out | out <;> simp [out])
  · exact if_neg (by rcases out with out | out <;> simp [out])
  · exact ⟨_, (execStartEdgeBeforeArming_eq n s).trans (if_pos lost), loseChar_lands s n⟩
  · exact (execStartEdgeBeforeArming_eq n s).trans (if_neg (by simp [kept]))
  · exact ⟨_, (execBreakEnd_eq n len s).trans (if_pos (by simp [ready, brk])), endBreak_lands s n len.toNat⟩
  · exact (execBreakEnd_eq n len s).trans (if_neg (by rcases out with out | out <;> simp [out]))
  · refine congrArg Host.Outcome.next ((viaHost_reached reach _).trans (if_pos ?_))
    simp [here, free]
  · refine congrArg Host.Outcome.next ((viaHost_reached reach _).trans (if_neg ?_))
    simp [sending]
  · exact ⟨_, congrArg Host.Outcome.next (viaHost_reached reach _), portClrcnt_lands here⟩
  · refine congrArg Host.Outcome.next ?_
    rcases out with out | out
    · exact viaHost_unreached out _
    · cases reach : hostReach s <;> simp [viaHost, reach, doSendbrk, out]
  · refine congrArg Host.Outcome.next ?_
    rcases out with out | out
    · exact viaHost_unreached out _
    · cases reach : hostReach s <;> simp [viaHost, reach, doPortClrcnt, out]
  · exact ⟨_, execCtsChange_taken taken, afterCts_lands (withPins s _) m m.isLt _⟩
  · exact execCtsChange_ignored ignored

end Sys2Proof.Machine
end

section
/-! PROOF. A frame for loss of lock, relock and waking (O34): which operations leave the power state, the commits, the memory port and the
words CLK_STAT, CLK_EVT and CLK_CNT as they were. -/
namespace Sys2Proof.Machine

/-- What the commands of the power states speak of, beside what they change themselves: the power state, the commits, the memory port, and
CLK_STAT, CLK_EVT and CLK_CNT. -/
structure Clocks where
  power : Power
  commit : Commit
  mem : MemPort
  stat : Word
  evt : Word
  cnt : Word

/-- The clocks of a state. -/
def State.clocks (s : State) : Clocks := ⟨s.power, s.commit, s.mem, s.reg 0x200, s.reg 0x205, s.reg 0x208⟩

/-- A change of other fields leaves the clocks. -/
theorem State.clocks_update (s : State) (pending chip fresh hold ext boot strap shadow cells circs ports ctxs outQ credits ctlWait fab canA canB
    tim pool sup jnl jwrite host mbx seq) :
    State.clocks ⟨pending, chip, fresh, hold, ext, s.power, boot, strap, s.regs, shadow, s.commit, cells, circs, ports, ctxs, outQ, credits,
      ctlWait, fab, canA, canB, tim, pool, sup, jnl, s.mem, jwrite, host, mbx, seq⟩ = s.clocks := rfl

@[simp] theorem State.clocks_ite (c : Prop) [Decidable c] (s t : State) :
    (if c then s else t).clocks = if c then s.clocks else t.clocks := apply_ite _ _ _ _
@[simp] theorem clocks_forList {α : Type} {f : State → α → State} (h : ∀ t a, (f t a).clocks = t.clocks) (l : List α) (s : State) :
    (forList l f s).clocks = s.clocks := forList_kept h l s
@[simp] theorem clocks_forEach {f : State → Nat → State} (h : ∀ t a, (f t a).clocks = t.clocks) (n : Nat) (s : State) :
    (forEach n f s).clocks = s.clocks := clocks_forList h _ s
@[simp] theorem clocks_foldl {α : Type} {f : State → α → State} (h : ∀ t a, (f t a).clocks = t.clocks) (l : List α) (s : State) :
    (l.foldl f s).clocks = s.clocks := clocks_forList h _ s
/-- What a pair holds as its state. -/
theorem clocks_of_snd {α : Type} {p : α × State} {a : α} {t : State} (h : p = (a, t)) : t.clocks = p.2.clocks := h ▸ rfl

/-! ## Words -/

/-! The words of ports, circuits, contexts, CAN channels and UART trunks lie above those of chapter 4. -/
@[simp] theorem pAddr_ne_low (n w : Nat) {b : Nat} (h : b < 0x800) : pAddr n w ≠ b := by unfold pAddr; omega
@[simp] theorem cAddr_ne_low (c w : Nat) {b : Nat} (h : b < 0x800) : cAddr c w ≠ b := by unfold cAddr; omega
@[simp] theorem xAddr_ne_low (x w : Nat) {b : Nat} (h : b < 0x800) : xAddr x w ≠ b := by unfold xAddr; omega
@[simp] theorem chAddr_ne_low (ch w : Nat) {b : Nat} (h : b < 0x800) : chAddr ch w ≠ b := by unfold chAddr; omega
@[simp] theorem oAddr_ne_low (ch i w : Nat) {b : Nat} (h : b < 0x800) : oAddr ch i w ≠ b := by unfold oAddr; omega
@[simp] theorem utAddr_ne_low (k : Nat) {b : Nat} (h : b < 0x800) : utAddr k ≠ b := by unfold utAddr; omega

@[simp] theorem setReg_clocks {a : Nat} (h0 : a ≠ 0x200) (h5 : a ≠ 0x205) (h8 : a ≠ 0x208) (s : State) (w : Word) :
    (s.setReg a w).clocks = s.clocks := by
  simp [State.clocks, State.reg_setReg, h0.symm, h5.symm, h8.symm]
@[simp] theorem setFld_clocks {a : Nat} (h0 : a ≠ 0x200) (h5 : a ≠ 0x205) (h8 : a ≠ 0x208) (s : State) (lo wd v : Nat) :
    (s.setFld a lo wd v).clocks = s.clocks :=
  setReg_clocks h0 h5 h8 s _
@[simp] theorem setBit_clocks {a : Nat} (h0 : a ≠ 0x200) (h5 : a ≠ 0x205) (h8 : a ≠ 0x208) (s : State) (i : Nat) (b : Bool) :
    (s.setBit a i b).clocks = s.clocks :=
  setReg_clocks h0 h5 h8 s _
@[simp] theorem count_clocks {a : Nat} (h0 : a ≠ 0x200) (h5 : a ≠ 0x205) (h8 : a ≠ 0x208) (s : State) (lo wd : Nat) :
    (s.count a lo wd).clocks = s.clocks :=
  setReg_clocks h0 h5 h8 s _
@[simp] theorem countBy_clocks {a : Nat} (h0 : a ≠ 0x200) (h5 : a ≠ 0x205) (h8 : a ≠ 0x208) (s : State) (lo wd n : Nat) :
    (s.countBy a lo wd n).clocks = s.clocks :=
  setReg_clocks h0 h5 h8 s _
@[simp] theorem countWrap_clocks {a : Nat} (h0 : a ≠ 0x200) (h5 : a ≠ 0x205) (h8 : a ≠ 0x208) (s : State) :
    (s.countWrap a).clocks = s.clocks :=
  setReg_clocks h0 h5 h8 s _

/-! ## The state's parts, records and faults -/

@[simp] theorem setCell_clocks (s : State) (i : Nat) (c : Cell) : (s.setCell i c).clocks = s.clocks := by
  simp [State.setCell, ↓State.clocks_update]
@[simp] theorem setCirc_clocks (s : State) (c : Nat) (x : Circ) : (s.setCirc c x).clocks = s.clocks := by
  simp [State.setCirc, ↓State.clocks_update]
@[simp] theorem setPort_clocks (s : State) (n : Nat) (p : Port) : (s.setPort n p).clocks = s.clocks := by
  simp [State.setPort, ↓State.clocks_update]
@[simp] theorem setCtx_clocks (s : State) (x : Nat) (c : Ctx) : (s.setCtx x c).clocks = s.clocks := by
  simp [State.setCtx, ↓State.clocks_update]
@[simp] theorem allocSys_clocks (s : State) (u : SysUse) : (allocSys s u).2.clocks = s.clocks := by
  unfold allocSys
  split <;> simp [↓State.clocks_update]
@[simp] theorem loseRecord_clocks (s : State) : (loseRecord s).clocks = s.clocks := by simp [loseRecord]
@[simp] theorem stageRecord_clocks (s : State) (r : JRec) : (stageRecord s r).clocks = s.clocks := by
  unfold stageRecord
  split
  · simp
  · split <;> (next h => simp [↓State.clocks_update, clocks_of_snd h])
@[simp] theorem journal_clocks (s : State) (typ source : Nat) (payload : List Byte) : (journal s typ source payload).clocks = s.clocks := by
  unfold journal
  split
  · simp
  · split
    · simp
    · simp [↓State.clocks_update]
@[simp] theorem showFault_clocks (s : State) : (showFault s).clocks = s.clocks := by simp [showFault]
@[simp] theorem raiseFault_clocks (s : State) (code : Nat) : (raiseFault s code).clocks = s.clocks := by simp [raiseFault]
@[simp] theorem setQuality_clocks (s : State) (q : Quality) : (setQuality s q).clocks = s.clocks := by simp [setQuality, ↓State.clocks_update]
@[simp] theorem setCan_clocks (s : State) (ch : Nat) (x : Can) : (s.setCan ch x).clocks = s.clocks := by
  simp [State.setCan, ↓State.clocks_update]
@[simp] theorem modCan_clocks (s : State) (ch : Nat) (f : Can → Can) : (modCan s ch f).clocks = s.clocks := by simp [modCan]
@[simp] theorem setObj_clocks (s : State) (ch i : Nat) (o : CanObj) : (s.setObj ch i o).clocks = s.clocks := by simp [State.setObj]

/-! ## Cells, circuits and contexts -/

@[simp] theorem watchPool_clocks (s : State) : (watchPool s).clocks = s.clocks := by simp [watchPool, ↓State.clocks_update]
@[simp] theorem ctxEvent_clocks (s : State) (x bit : Nat) : (ctxEvent s x bit).clocks = s.clocks := by simp [ctxEvent]
@[simp] theorem stallWatch_clocks (s : State) (c : Nat) : (stallWatch s c).clocks = s.clocks := by simp [stallWatch]
@[simp] theorem flowOff_clocks (s : State) (n : Nat) : (flowOff s n).clocks = s.clocks := by simp [flowOff]
@[simp] theorem flowOn_clocks (s : State) (n : Nat) : (flowOn s n).clocks = s.clocks := by simp [flowOn]
@[simp] theorem flowWatch_clocks (s : State) (c : Nat) (alloc : Bool) : (flowWatch s c alloc).clocks = s.clocks := by simp [flowWatch]
theorem queueCtl_clocks {s t : State} {p : Pkt} {k : Option Nat} (h : queueCtl s p k = some t) : t.clocks = s.clocks := by
  unfold queueCtl at h
  split at h
  · next e => cases h; simp [↓State.clocks_update, clocks_of_snd e]
  · cases h
@[simp] theorem sendPkt_clocks (s : State) (p : Pkt) (k : Option Nat) : (sendPkt s p k).clocks = s.clocks := by
  unfold sendPkt
  split
  · next h => exact queueCtl_clocks h
  · simp [↓State.clocks_update]
@[simp] theorem sendCtl_clocks (s : State) (typ dst dcirc scirc : Nat) (body : List Byte) :
    (sendCtl s typ dst dcirc scirc body).clocks = s.clocks := by
  simp [sendCtl, ↓State.clocks_update]
@[simp] theorem addCredits_clocks (s : State) (c n : Nat) : (addCredits s c n).clocks = s.clocks := by simp [addCredits]
@[simp] theorem sendCredit_clocks (s : State) (e : CreditEntry) (grant refused : Nat) : (sendCredit s e grant refused).clocks = s.clocks := by
  simp [sendCredit]
@[simp] theorem creditLocal_clocks (s : State) (c seq : Nat) : (creditLocal s c seq).clocks = s.clocks := by simp [creditLocal]
@[simp] theorem oweCredit_clocks (s : State) (owner origin seq : Nat) : (oweCredit s owner origin seq).clocks = s.clocks := by
  unfold oweCredit
  split
  · dsimp only
    split
    · simp
    · split
      · simp [↓State.clocks_update]
      · simp
  · dsimp only
    split
    · simp
    · split <;> simp [↓State.clocks_update]
@[simp] theorem serveSysWait_clocks (s : State) : (serveSysWait s).clocks = s.clocks := by
  unfold serveSysWait
  split
  · next p k t _ =>
    cases h : queueCtl { s with ctlWait := t } p k with
    | none => rfl
    | some u => simpa [↓State.clocks_update] using queueCtl_clocks h
  · dsimp only
    split <;> simp [↓State.clocks_update]
@[simp] theorem noteRetired_clocks (s : State) : (noteRetired s).clocks = s.clocks := by simp [noteRetired, ↓State.clocks_update]
@[simp] theorem dropHeldChar_clocks (s : State) (x : Nat) : (dropHeldChar s x).clocks = s.clocks :=
  clocks_forEach (fun t n => by split <;> simp) _ s
@[simp] theorem dropRefs_clocks (s : State) (c i : Nat) : (dropRefs s c i).clocks = s.clocks := by simp [dropRefs, ↓State.clocks_update]
@[simp] theorem allocEvents_clocks (s : State) : (allocEvents s).clocks = s.clocks := by simp [allocEvents]
@[simp] theorem stopCtx_clocks (s : State) (x : Nat) : (stopCtx s x).clocks = s.clocks := by simp [stopCtx]
@[simp] theorem stopAtBoundary_clocks (s : State) (x : Nat) : (stopAtBoundary s x).clocks = s.clocks := by simp [stopAtBoundary]
@[simp] theorem drainEnd_clocks (s : State) (c : Nat) : (drainEnd s c).clocks = s.clocks := by simp [drainEnd]
@[simp] theorem drainCheck_clocks (s : State) (c : Nat) : (drainCheck s c).clocks = s.clocks := by simp [drainCheck]
@[simp] theorem releaseCell_clocks (s : State) (i : Nat) : (releaseCell s i).clocks = s.clocks := by
  unfold releaseCell
  dsimp only
  split <;> simp
@[simp] theorem freeOpen_clocks (s : State) (c : Nat) : (freeOpen s c).2.clocks = s.clocks := by simp [freeOpen]
@[simp] theorem faultCirc_clocks (s : State) (c : Nat) : (faultCirc s c).clocks = s.clocks := by
  unfold faultCirc
  split <;> simp
@[simp] theorem ctxFaultC_clocks (s : State) (x code : Nat) : (ctxFaultC s x code).clocks = s.clocks := by simp [ctxFaultC]
@[simp] theorem sysFault_clocks (s : State) (k code pc : Nat) : (sysFault s k code pc).clocks = s.clocks := by
  unfold sysFault
  extract_lets s1 s2 l sup s3
  have h : s3.clocks = s.clocks := (show s3.clocks = s2.clocks from rfl).trans (by simp [s2, s1])
  clear_value s3
  split <;> simp [h]
@[simp] theorem ctxFault_clocks (s : State) (x code : Nat) : (ctxFault s x code).clocks = s.clocks := by
  unfold ctxFault
  extract_lets k pc s1 s2 s3 ev g lost s4
  have h : s4.clocks = s.clocks := by simp [s4, s3, s2, s1]
  clear_value s4
  split
  · simp
  · rw [sysFault_clocks, State.clocks_update, h]
@[simp] theorem noteEcc_clocks (s : State) (m a : Nat) (un : Bool) : (noteEcc s m a un).clocks = s.clocks := by
  unfold noteEcc
  extract_lets s1 s2 s3
  have count : 0x2015 + m ≠ 0x200 ∧ 0x2015 + m ≠ 0x205 ∧ 0x2015 + m ≠ 0x208 := by omega
  have h : s3.clocks = s.clocks := by simp [s3, s2, s1, count]
  clear_value s3
  split
  · rw [journal_clocks, State.clocks_update, h]
  · exact h
@[simp] theorem readEcc_clocks (s : State) (i w : Nat) : (readEcc s i w).clocks = s.clocks := by simp [readEcc]
@[simp] theorem sleeveFail_clocks (s : State) (p c i : Nat) (b : Bool) (v w : Word) : (sleeveFail s p c i b v w).clocks = s.clocks := by
  unfold sleeveFail
  extract_lets s1 s2 s3 recent pool1 s4 pool2 s5 s6
  have h1 : s1.clocks = s.clocks := by simp only [s1]; split <;> simp
  have h3 : s3.clocks = s.clocks := by simp [s3, s2, h1]
  clear_value s3
  have h4 : s4.clocks = s.clocks := (State.clocks_update s3 ..).trans h3
  clear_value s4
  have h5 : s5.clocks = s.clocks := (State.clocks_update s4 ..).trans h4
  clear_value s5
  have h6 : s6.clocks = s.clocks := by simp only [s6]; split <;> simp [h4, h5]
  split <;> simp [h6]
@[simp] theorem markRetire_clocks (s : State) (i : Nat) : (markRetire s i).clocks = s.clocks := by simp [markRetire]
@[simp] theorem completeCell_clocks (s : State) (i : Nat) : (completeCell s i).clocks = s.clocks := by
  unfold completeCell
  split <;> simp
@[simp] theorem setNbr_clocks (s : State) (j : Nat) (n : Nbr) : (s.setNbr j n).clocks = s.clocks := by
  simp [State.setNbr, ↓State.clocks_update]

/-! ## Time references -/

@[simp] theorem modTim_clocks (s : State) (f : Tim → Tim) : (modTim s f).clocks = s.clocks := by simp [modTim, ↓State.clocks_update]
@[simp] theorem putStratum_clocks (s : State) : (putStratum s).clocks = s.clocks := by simp [putStratum, ↓State.clocks_update]
@[simp] theorem putFreq_clocks (s : State) : (putFreq s).clocks = s.clocks := by simp [putFreq]
@[simp] theorem refGone_clocks (s : State) : (refGone s).clocks = s.clocks := by simp [refGone, ↓State.clocks_update]
@[simp] theorem capLocked_clocks (s : State) : (capLocked s).clocks = s.clocks := by simp [capLocked]
@[simp] theorem reselect_clocks (s : State) : (reselect s).clocks = s.clocks := by
  unfold reselect
  extract_lets s1 k s2 hold s3
  have h2 : s2.clocks = s.clocks := by simp [s2, s1]
  have h3 : s3.clocks = s.clocks := by
    simp only [s3]
    split
    · simp [s1]
    · split
      · simp [h2]
      · exact (State.clocks_update s2 ..).trans h2
  simp [h3]

/-! ## The fabric -/

@[simp] theorem setTrunk_clocks (s : State) (k : Nat) (t : Trunk) : (s.setTrunk k t).clocks = s.clocks := by
  simp [State.setTrunk, ↓State.clocks_update]
@[simp] theorem setRoute_clocks (s : State) (i : Nat) (r : Route) : (s.setRoute i r).clocks = s.clocks := by
  simp [State.setRoute, ↓State.clocks_update]
@[simp] theorem noteChanged_clocks (s : State) (dst : Nat) : (noteChanged s dst).clocks = s.clocks := by
  simp [noteChanged, ↓State.clocks_update]
@[simp] theorem twinStandby_clocks (s : State) : (twinStandby s).clocks = s.clocks := by
  unfold twinStandby
  rw [clocks_forEach fun t c => by simp]
  exact State.clocks_update _ ..
@[simp] theorem twinWatch_clocks (s : State) : (twinWatch s).clocks = s.clocks := by
  unfold twinWatch
  split
  · simp
  · split
    · split
      · simp [↓State.clocks_update]
      · simp [↓State.clocks_update]
      · simp
    · simp
@[simp] theorem putRoute_clocks (s : State) (i : Nat) (r : Route) : (putRoute s i r).clocks = s.clocks := by
  unfold putRoute
  dsimp only
  rw [twinWatch_clocks, State.clocks_ite, noteChanged_clocks, ite_self]
  split
  · rw [State.clocks_update]
    simp
  · simp
@[simp] theorem failBest_clocks (s : State) (i : Nat) : (failBest s i).clocks = s.clocks := by
  unfold failBest
  dsimp only
  split
  · simp
  · split <;> simp
@[simp] theorem failPaths_clocks (s : State) (gone : RPath → Bool) : (failPaths s gone).clocks = s.clocks := by simp [failPaths]
@[simp] theorem loseNbr_clocks (s : State) (j : Nat) : (loseNbr s j).clocks = s.clocks := by simp [loseNbr]
@[simp] theorem sendHop_clocks (s : State) (k typ fl src : Nat) (body : List Byte) : (sendHop s k typ fl src body).clocks = s.clocks := by
  simp [sendHop]
@[simp] theorem sendHello_clocks (s : State) (k : Nat) : (sendHello s k).clocks = s.clocks := by simp [sendHello]
@[simp] theorem trunkDown_clocks (s : State) (k : Nat) (c : DownCause) : (trunkDown s k c).clocks = s.clocks := by
  simp [trunkDown, ↓State.clocks_update]
@[simp] theorem trunkUp_clocks (s : State) (k : Nat) : (trunkUp s k).clocks = s.clocks := by simp [trunkUp]
@[simp] theorem trunkWatch_clocks (s : State) (c : DownCause) : (trunkWatch s c).clocks = s.clocks := by simp [trunkWatch]
@[simp] theorem pktSent_clocks (s : State) (cell : Nat) : (pktSent s cell).clocks = s.clocks := by simp [pktSent, ↓State.clocks_update]
@[simp] theorem modOut_clocks (s : State) (cell : Nat) (f : OutPkt → OutPkt) : (modOut s cell f).clocks = s.clocks := by
  simp [modOut, ↓State.clocks_update]
@[simp] theorem stepCtr_clocks (s : State) (k : Nat) : (stepCtr s k).clocks = s.clocks := by simp [stepCtr, ↓State.clocks_update]
@[simp] theorem dropBad_clocks (s : State) (o : OutPkt) : (dropBad s o).clocks = s.clocks := by
  unfold dropBad
  dsimp only
  split <;> simp [↓State.clocks_update]
@[simp] theorem takePkt_clocks (k : Nat) (ok : OutPkt → Bool) (n : Nat) (s : State) : (takePkt k ok n s).2.clocks = s.clocks := by
  induction n generalizing s with
  | zero => rfl
  | succ n ih =>
    unfold takePkt
    split
    · rfl
    · split <;> simp [ih]
@[simp] theorem passOver_clocks (s : State) (k c : Nat) : (passOver s k c).clocks = s.clocks := by simp [passOver, ↓State.clocks_update]
@[simp] theorem loadBurst_clocks (s : State) (k : Nat) (b : Bool) : (loadBurst s k b).clocks = s.clocks := by
  unfold loadBurst
  split <;> (next h => simp [clocks_of_snd h])
@[simp] theorem endBad_clocks (s : State) (k : Nat) : (endBad s k).clocks = s.clocks := by
  unfold endBad
  split <;> simp
@[simp] theorem trunkByte_clocks (s : State) (k : Nat) : (trunkByte s k).2.clocks = s.clocks := by
  unfold trunkByte
  dsimp only
  split
  · simp
  · split
    · split
      · split
        · split <;> simp [↓State.clocks_update]
        · simp [↓State.clocks_update]
      · split
        · split <;> simp [↓State.clocks_update]
        · simp [↓State.clocks_update]
    · split
      · split
        · split <;> simp [↓State.clocks_update]
        · simp [↓State.clocks_update]
      · split
        · split <;> simp [↓State.clocks_update]
        · simp [↓State.clocks_update]

/-! ## Ports -/

@[simp] theorem modPort_clocks (s : State) (n : Nat) (f : Port → Port) : (modPort s n f).clocks = s.clocks := by simp [modPort]
@[simp] theorem feedEvent_clocks (s : State) (n b : Nat) : (feedEvent s n b).clocks = s.clocks := by
  unfold feedEvent
  split
  · rfl
  · split <;> simp
@[simp] theorem loseChar_clocks (s : State) (n : Nat) : (loseChar s n).clocks = s.clocks := by simp [loseChar]
@[simp] theorem takeHead_clocks (s : State) (c i : Nat) (h : Holder) : (takeHead s c i h).clocks = s.clocks := by simp [takeHead]
@[simp] theorem selectTx_clocks (n f : Nat) (s : State) : (selectTx n f s).clocks = s.clocks := by
  induction f generalizing s with
  | zero => rfl
  | succ f ih =>
    unfold selectTx
    split <;> simp [ih]
@[simp] theorem prepareTx_clocks (s : State) (n : Nat) : (prepareTx s n).clocks = s.clocks := by simp [prepareTx]
@[simp] theorem endTxCell_clocks (s : State) (n : Nat) (done : Bool) : (endTxCell s n done).clocks = s.clocks := by
  unfold endTxCell
  split <;> simp
@[simp] theorem dropAbandoned_clocks (s : State) (n : Nat) : (dropAbandoned s n).clocks = s.clocks := by
  unfold dropAbandoned
  split <;> simp
@[simp] theorem cellByte_clocks (s : State) (n : Nat) : (cellByte s n).2.clocks = s.clocks := by
  unfold cellByte
  split
  · simp
  · dsimp only
    split <;> simp
@[simp] theorem sendChar_clocks (s : State) (n : Nat) (b : Byte) (mark : Bool) : (sendChar s n b mark).clocks = s.clocks := by simp [sendChar]
@[simp] theorem failHeld_clocks (s : State) (n : Nat) (h : TxChar) : (failHeld s n h).clocks = s.clocks := by
  unfold failHeld
  dsimp only
  split <;> simp
@[simp] theorem txBegin_clocks (s : State) (n : Nat) (it : TxItem) : (txBegin s n it).2.clocks = s.clocks := by
  unfold txBegin
  split
  · simp
  · simp
  · split
    · split <;> (next h => simp [clocks_of_snd h])
    · split
      · split <;> (next h => simp [clocks_of_snd h])
      · split
        · split <;> simp
        · rfl
@[simp] theorem deAssert_clocks (s : State) (n : Nat) : (deAssert s n).clocks = s.clocks := by simp [deAssert]
@[simp] theorem deRelease_clocks (s : State) (n : Nat) : (deRelease s n).clocks = s.clocks := by simp [deRelease]
@[simp] theorem txIdle_clocks (s : State) (n : Nat) : (txIdle s n).clocks = s.clocks := by simp [txIdle]
@[simp] theorem txDecide_clocks (n f : Nat) (s : State) : (txDecide n f s).clocks = s.clocks := by
  induction f generalizing s with
  | zero => simp [txDecide]
  | succ f ih =>
    unfold txDecide
    dsimp only
    split
    · simp
    · split
      · simp
      · split
        · split
          · split <;> (next h => simp [ih, clocks_of_snd h])
          · simp
        · split <;> (next h => simp [ih, clocks_of_snd h])

/-! ## CAN channels -/

@[simp] theorem canEvt_clocks (s : State) (ch bit : Nat) : (canEvt s ch bit).clocks = s.clocks := by simp [canEvt]
@[simp] theorem setRole_clocks (s : State) (ch : Nat) (r : CanRole) : (setRole s ch r).clocks = s.clocks := by simp [setRole]
@[simp] theorem setCanSt_clocks (s : State) (ch : Nat) (st : CanSt) (c : DownCause) : (setCanSt s ch st c).clocks = s.clocks := by
  unfold setCanSt
  dsimp only
  split <;> simp
@[simp] theorem integrate_clocks (s : State) (ch : Nat) (clear : Bool) (c : DownCause) : (integrate s ch clear c).clocks = s.clocks := by
  simp [integrate]
@[simp] theorem objRelease_clocks (s : State) (ch i : Nat) (done : Bool) : (objRelease s ch i done).clocks = s.clocks := by
  unfold objRelease
  dsimp only
  split <;> simp
@[simp] theorem objWithdraw_clocks (s : State) (ch i : Nat) : (objWithdraw s ch i).clocks = s.clocks := by
  unfold objWithdraw
  dsimp only
  split
  · simp
  · split
    · simp
    · split <;> simp
@[simp] theorem objFail_clocks (s : State) (ch i : Nat) : (objFail s ch i).clocks = s.clocks := by simp [objFail]
@[simp] theorem endFrame_clocks (s : State) (ch : Nat) (lost : Bool) : (endFrame s ch lost).clocks = s.clocks := by
  unfold endFrame
  split
  · simp
  · split <;> simp
@[simp] theorem canRelock_clocks (s : State) (ch : Nat) : (canRelock s ch).clocks = s.clocks := by simp [canRelock]
@[simp] theorem rejoin_clocks (s : State) (ch : Nat) : (rejoin s ch).clocks = s.clocks := by simp [rejoin]

end Sys2Proof.Machine
end

section
/-! PROOF. Loss of lock, relock, QUIET, DORMANT and waking (O34). -/
namespace Sys2Proof.Machine

theorem State.of_clocks {s t : State} (h : t.clocks = s.clocks) : t.power = s.power ∧ t.commit = s.commit ∧ t.mem = s.mem ∧
    t.reg 0x200 = s.reg 0x200 ∧ t.reg 0x205 = s.reg 0x205 ∧ t.reg 0x208 = s.reg 0x208 := by simpa [State.clocks] using h
theorem State.bit_of_reg {s t : State} {a : Nat} (h : t.reg a = s.reg a) (i : Nat) : t.bit a i = s.bit a i := by rw [State.bit, State.bit, h]
theorem State.fld_of_reg {s t : State} {a : Nat} (h : t.reg a = s.reg a) (lo wd : Nat) : t.fld a lo wd = s.fld a lo wd := by
  rw [State.fld, State.fld, h]

/-! ## Loss of lock (R102, R131) -/

/-- A character lost where `c` says so changes words only. -/
theorem loseCharIf_eq (c : Bool) (s : State) (n : Nat) : ∃ r p, (if c then loseChar s n else s) = { s with regs := r, ports := p } := by
  cases c
  · exact ⟨s.regs, s.ports, rfl⟩
  · obtain ⟨⟨eq, -⟩, -⟩ := loseChar_lands s n
    exact ⟨_, _, eq⟩

/-- A port that is cut changes its words and its state only. -/
theorem cutPort_eq (s : State) (n : Nat) : ∃ r p, cutPort s n = { s with regs := r, ports := p } := by
  unfold cutPort
  split
  · exact ⟨s.regs, s.ports, rfl⟩
  · obtain ⟨r, p, sent⟩ := loseCharIf_eq ((s.port n).tx == .char) s n
    rw [sent]
    dsimp only
    obtain ⟨r', p', received⟩ := loseCharIf_eq (State.port { s with regs := r, ports := p } n).rxBusy { s with regs := r, ports := p } n
    rw [received]
    exact ⟨r', _, rfl⟩
theorem cutPorts_eq (k : Nat) (s : State) : ∃ r p, forEach k cutPort s = { s with regs := r, ports := p } := by
  induction k with
  | zero => exact ⟨s.regs, s.ports, rfl⟩
  | succ k ih =>
    obtain ⟨r, p, eq⟩ := ih
    obtain ⟨r', p', last⟩ := cutPort_eq { s with regs := r, ports := p } k
    refine ⟨r', p', ?_⟩
    rw [forEach, List.range_succ, List.foldl_concat]
    exact (congrArg (cutPort · k) eq).trans last
@[simp] theorem cutPort_clocks (s : State) (n : Nat) : (cutPort s n).clocks = s.clocks := by simp [cutPort]

/-- CLK_STAT.LOCKED falls and CLK_EVT.UNLOCK is set. -/
def unlockWords (s : State) : State := (s.setBit 0x200 1 false).setBit 0x205 4
/-- What a loss of lock leaves (R102): a memory entry that runs is to be begun again. -/
theorem unlock_lands (s : State) : (unlock s).power = { s.power with relock := true } ∧ (unlock s).mem.active = none ∧
    (∀ k, s.mem.active = some k → (unlock s).mem.again = some k) ∧ (unlock s).reg 0x200 = (unlockWords s).reg 0x200 ∧
    (unlock s).reg 0x205 = (unlockWords s).reg 0x205 := by
  unfold unlock
  extract_lets s1 s2 power s3 mem s4
  obtain ⟨samePower, -, sameMem, sameStat, sameEvt, -⟩ :=
    State.of_clocks (t := trunkWatch (canRelock (canRelock s4 0) 1) .relock) (s := s4) (by simp)
  rw [samePower, sameMem, sameStat, sameEvt]
  clear samePower sameMem sameStat sameEvt
  obtain ⟨cutPower, -, cutMem, cutStat, cutEvt, -⟩ := State.of_clocks (t := s2) (s := s1) (by simp [s2])
  clear_value s2
  have here : s3.power = { s.power with relock := true } ∧ s3.mem = s.mem ∧ s3.reg 0x200 = s1.reg 0x200 ∧ s3.reg 0x205 = s1.reg 0x205 :=
    ⟨congrArg (fun p : Power => { p with relock := true }) cutPower, cutMem, cutStat, cutEvt⟩
  clear_value s3
  obtain ⟨power3, mem3, stat3, evt3⟩ := here
  cases active : s3.mem.active with
  | none =>
    have same : s4 = s3 := by simp only [s4, active]
    rw [same]
    exact ⟨power3, active, fun k ran => by simp [← mem3, active] at ran, stat3, evt3⟩
  | some k =>
    have retried : s4 = { s3 with mem := { s3.mem with active := none, again := some k } } := by
      simp only [s4, active]
      rfl
    rw [retried]
    refine ⟨power3, rfl, fun j ran => ?_, stat3, evt3⟩
    rw [← ran, ← mem3, active]

theorem unlockWords_lands (s : State) : (unlockWords s).bit 0x200 1 = false ∧ (unlockWords s).bit 0x205 4 = true ∧
    (unlockWords s).bit 0x200 0 = s.bit 0x200 0 := by
  refine ⟨?_, State.bit_setBit_same _ _ _ _ (by decide), ?_⟩
  · exact (State.bit_setBit_word _ _ _ _ _ (by decide)).trans (State.bit_setBit_same s 0x200 1 false (by decide))
  · exact (State.bit_setBit_word _ _ _ _ _ (by decide)).trans (State.bit_setBit_other s 0x200 1 0 false (by decide))

/-- PLL_UNLOCK. -/
theorem execPllUnlock_locked {s : State} (locked : lockedNow s = true) : ∃ t, execPllUnlock s = .next t ∧ t.power.relock = true ∧
    t.power.rootLost = s.power.rootLost ∧ t.bit 0x200 1 = false ∧ t.bit 0x205 4 = true ∧ t.mem.active = none ∧
    ∀ k, s.mem.active = some k → t.mem.again = some k := by
  obtain ⟨power, idle, again, stat, evt⟩ := unlock_lands s
  obtain ⟨lock, event, -⟩ := unlockWords_lands s
  exact ⟨unlock s, if_pos locked, by rw [power], by rw [power], (State.bit_of_reg stat 1).trans lock, (State.bit_of_reg evt 4).trans event,
    idle, again⟩

/-- A lost ROOT begins the relock where the PLL is locked. -/
theorem execRootLost_locked {s : State} (locked : lockedNow s = true) : ∃ t, execRootLost s = .next t ∧ t.power.relock = true ∧
    t.power.rootLost = true ∧ t.bit 0x200 0 = false ∧ t.bit 0x200 1 = false := by
  have awake : (s.power.st == .dormant) = false := by
    simp only [lockedNow, Bool.and_eq_true, bne] at locked
    simpa using locked.2
  obtain ⟨power, -, -, stat, -⟩ := unlock_lands (s.setBit 0x200 0 false)
  obtain ⟨lock, -, root⟩ := unlockWords_lands (s.setBit 0x200 0 false)
  have lost : (s.setBit 0x200 0 false).bit 0x200 0 = false := State.bit_setBit_same s 0x200 0 false (by decide)
  let t := unlock (s.setBit 0x200 0 false)
  refine ⟨{ t with power := { t.power with rootLost := true } }, ?_, ?_, rfl, (State.bit_of_reg stat 0).trans (root.trans lost),
    (State.bit_of_reg stat 1).trans lock⟩
  · rw [execRootLost, awake]
    exact if_pos locked
  · exact (congrArg Power.relock power).trans rfl
/-- A lost ROOT elsewhere clears ROOTOK and is noted for a relock that runs. -/
theorem execRootLost_unlocked {s : State} (unlocked : lockedNow s = false) (awake : s.power.st ≠ .dormant) : execRootLost s =
    .next { s.setBit 0x200 0 false with power := { s.power with rootLost := s.power.rootLost || s.power.relock } } := by
  rw [execRootLost, if_neg (by simpa using awake)]
  exact if_neg (by simp [unlocked])

/-! ## Relock (R102) -/

/-- CLK_STAT.ROOTOK and LOCKED are set again. -/
def lockWords (s : State) : State := (s.setBit 0x200 0).setBit 0x200 1
theorem lockWords_lands (s : State) : (lockWords s).bit 0x200 0 = true ∧ (lockWords s).bit 0x200 1 = true :=
  ⟨(State.bit_setBit_other _ _ _ _ _ (by decide)).trans (State.bit_setBit_same s 0x200 0 true (by decide)),
    State.bit_setBit_same _ 0x200 1 true (by decide)⟩

/-- The relock counts with CLK_EVT.RELOCK. -/
def countRelock (s : State) : State := ((lockWords s).setBit 0x205 5).count 0x208 0 16
theorem countRelock_lands (s : State) : (countRelock s).reg 0x200 = (lockWords s).reg 0x200 ∧ (countRelock s).bit 0x205 5 = true ∧
    (countRelock s).fld 0x208 0 16 = min (s.fld 0x208 0 16 + 1) 65535 := by
  refine ⟨?_, ?_, ?_⟩
  · exact (State.reg_count_other _ _ _ _ (by decide)).trans (State.reg_setBit_other _ _ _ _ (by decide))
  · exact (State.bit_of_reg (State.reg_count_other _ _ _ _ (by decide)) 5).trans (State.bit_setBit_same _ _ _ _ (by decide))
  · have count : ((lockWords s).setBit 0x205 5).fld 0x208 0 16 = s.fld 0x208 0 16 := by
      rw [State.fld_setBit_other _ _ _ (by decide), lockWords, State.fld_setBit_other _ _ _ (by decide),
        State.fld_setBit_other _ _ _ (by decide)]
    refine (State.fld_count_same _ _ _ _ (by decide)).trans ?_
    rw [count]
    exact satInc_eq_min _ _

/-- CLK_EVT.ROOTLOST is set where ROOT was lost. -/
def noteRootLost (lost : Bool) (s : State) : State := if lost then s.setBit 0x205 6 else s
theorem noteRootLost_lands (lost : Bool) (s : State) : (noteRootLost lost s).power = s.power ∧ (noteRootLost lost s).commit = s.commit ∧
    (∀ a, a ≠ 0x205 → (noteRootLost lost s).reg a = s.reg a) ∧ (noteRootLost lost s).bit 0x205 5 = s.bit 0x205 5 ∧
    (lost = true → (noteRootLost lost s).bit 0x205 6 = true) := by
  cases lost
  · exact ⟨rfl, rfl, fun _ _ => rfl, rfl, fun no => absurd no (by decide)⟩
  · exact ⟨rfl, rfl, fun a h => State.reg_setBit_other s 0x205 6 true h, State.bit_setBit_other s 0x205 6 5 true (by decide),
      fun _ => State.bit_setBit_same s 0x205 6 true (by decide)⟩

/-- The state as the end of a relock leaves it before the ports and the trunks go on. -/
def relocked (s : State) : State :=
  let t := noteRootLost s.power.rootLost (countRelock s)
  { t with power := { t.power with relock := false, rootLost := false } }
theorem relocked_lands (s : State) : (relocked s).power = { s.power with relock := false, rootLost := false } ∧
    (relocked s).commit = s.commit ∧ (relocked s).bit 0x200 0 = true ∧ (relocked s).bit 0x200 1 = true ∧ (relocked s).bit 0x205 5 = true ∧
    (s.power.rootLost = true → (relocked s).bit 0x205 6 = true) ∧ (relocked s).fld 0x208 0 16 = min (s.fld 0x208 0 16 + 1) 65535 := by
  obtain ⟨root, lock⟩ := lockWords_lands s
  obtain ⟨stat, event, count⟩ := countRelock_lands s
  obtain ⟨power, commit, words, relockEvent, lostEvent⟩ := noteRootLost_lands s.power.rootLost (countRelock s)
  have stat : (relocked s).reg 0x200 = (lockWords s).reg 0x200 := (words 0x200 (by decide)).trans stat
  refine ⟨?_, commit, (State.bit_of_reg stat 0).trans root, (State.bit_of_reg stat 1).trans lock, relockEvent.trans event, lostEvent,
    (State.fld_of_reg (words 0x208 (by decide)) 0 16).trans count⟩
  exact congrArg (fun p : Power => { p with relock := false, rootLost := false }) power

/-- PLL_RELOCK with no commit outstanding: what the ports and the trunks do then leaves the clocks. -/
theorem execPllRelock_lands {s : State} (relock : s.power.relock = true) (staged : s.commit.staged = []) :
    ∃ t, execPllRelock s = .next t ∧ t.clocks = (relocked s).clocks := by
  let v := forEach 16 (fun t n => if pLive t n && (t.port n).tx != .idle then txDecide n 4 t else t) (relocked s)
  have same : (trunkWatch v .relock).clocks = (relocked s).clocks := by
    rw [trunkWatch_clocks]
    exact clocks_forEach (fun t n => by simp) 16 _
  refine ⟨settleAll (trunkWatch v .relock), ?_, ?_⟩
  · rw [execPllRelock, if_neg (by simp [relock])]
    rfl
  · obtain ⟨-, commit, -⟩ := State.of_clocks same
    obtain ⟨-, kept, -⟩ := relocked_lands s
    rw [settleAll_of_none (by rw [commit, kept, staged])]
    exact same

/-! ## QUIET and DORMANT (R122–R125) -/

theorem allWait_iff (s : State) : allWait s = true ↔ ∀ x, x < 72 → (s.ctx x).st ≠ .run := by
  simp [allWait, List.all_eq_true]

/-- What QUIET_ENTER asks (R122). -/
def quietTest (s : State) : Bool :=
  s.power.st == .run && s.boot.live && !s.power.relock && s.bit 0x202 0 && allWait s &&
    (List.range 16).all (fun n => (s.port n).tx == .idle && !(s.port n).rxBusy)
theorem quietTest_iff (s : State) : quietTest s = true ↔ s.power.st = .run ∧ s.boot.live = true ∧ s.power.relock = false ∧
    s.bit 0x202 0 = true ∧ (∀ x, x < 72 → (s.ctx x).st ≠ .run) ∧ ∀ n, n < 16 → (s.port n).tx = .idle ∧ (s.port n).rxBusy = false := by
  simp [quietTest, allWait_iff, List.all_eq_true, and_assoc]

/-- What DORMANT_ENTER asks (R124, R125). -/
def dormantTest (s : State) : Bool := s.bit 0x200 4 && s.boot.live && !s.power.relock && s.power.st != .dormant && mayRest s
theorem dormantTest_iff (s : State) : dormantTest s = true ↔
    s.bit 0x200 4 = true ∧ s.boot.live = true ∧ s.power.relock = false ∧ s.power.st ≠ .dormant ∧ mayRest s = true := by
  simp [dormantTest, and_assoc]

/-- CLK_STAT.DREQ, ROOTOK and LOCKED fall. -/
def restWords (s : State) : State := ((s.setBit 0x200 4 false).setBit 0x200 0 false).setBit 0x200 1 false
theorem restWords_lands (s : State) : (restWords s).bit 0x200 4 = false ∧ (restWords s).bit 0x200 0 = false ∧ (restWords s).bit 0x200 1 = false := by
  refine ⟨?_, ?_, State.bit_setBit_same _ 0x200 1 false (by decide)⟩
  · rw [restWords, State.bit_setBit_other _ _ _ _ _ (by decide), State.bit_setBit_other _ _ _ _ _ (by decide)]
    exact State.bit_setBit_same s 0x200 4 false (by decide)
  · rw [restWords, State.bit_setBit_other _ _ _ _ _ (by decide)]
    exact State.bit_setBit_same _ 0x200 0 false (by decide)

theorem execDormantEnter_rests {s : State} (h : dormantTest s = true) : ∃ t, execDormantEnter s = .next t ∧
    t.power = { s.power with st := .dormant, waking := false, slowWake := false } ∧ t.bit 0x200 4 = false ∧ t.bit 0x200 0 = false ∧
    t.bit 0x200 1 = false ∧ t.hold.inTime = false ∧ t.tim.tpo = false ∧ t.cells = s.cells ∧ t.ctxs = s.ctxs := by
  obtain ⟨r, p, cut⟩ := cutPorts_eq 16 s
  obtain ⟨request, root, lock⟩ := restWords_lands { s with regs := r, ports := p }
  refine ⟨_, if_pos h, ?_⟩
  rw [cut]
  exact ⟨rfl, request, root, lock, rfl, rfl, rfl, rfl⟩

/-! ## Waking (R126–R128) -/

/-- A wake by source `b` has begun. -/
def Woken (b : Nat) (t : State) : Prop := t.power.waking = true ∧ t.power.st = .dormant ∧ t.bit 0x206 b = true

/-- The first step of a loop that brings `Q` about from `P` leaves it brought about. -/
theorem forEach_reaches {P Q : State → Prop} {f : State → Nat → State} {i : Nat} (keepsP : ∀ t k, P t → P (f t k))
    (reaches : ∀ t, P t → Q (f t i)) (keepsQ : ∀ t k, Q t → Q (f t k)) {n : Nat} (hi : i < n) {s : State} (h : P s) : Q (forEach n f s) := by
  have before (k : Nat) : P (forEach k f s) := by
    induction k with
    | zero => exact h
    | succ k ih => simpa [forEach, List.range_succ] using keepsP _ k ih
  induction n with
  | zero => omega
  | succ n ih =>
    have last : forEach (n + 1) f s = f (forEach n f s) n := by simp [forEach, List.range_succ]
    rw [last]
    by_cases here : i = n
    · subst here
      exact reaches _ (before i)
    · exact keepsQ _ n (ih (by omega))

/-- Every port in use is to report what it loses (R128). -/
def armWakes (s : State) : State := forEach 16 (fun s n => if present s n && pEn s n then modPort s n (fun p => { p with wakeArm := true }) else s) s
theorem armWakes_eq (s : State) : (armWakes s).power = s.power := by
  refine forList_kept (g := State.power) (fun t n => ?_) _ s
  split <;> rfl

/-- The first source begins the wake and clears what the last one recorded (R126). -/
def beginWake (s : State) : State :=
  if s.power.waking then s else armWakes { s.setReg 0x206 0#32 with power := { s.power with waking := true } }
theorem beginWake_power (s : State) : (beginWake s).power.waking = true ∧ (beginWake s).power.st = s.power.st := by
  unfold beginWake
  split
  · next waking => exact ⟨waking, rfl⟩
  · rw [armWakes_eq]
    exact ⟨rfl, rfl⟩

theorem noteWake_dormant {s : State} (h : s.power.st = .dormant) (b : Nat) : noteWake s b = (beginWake s).setBit 0x206 b := by
  rw [noteWake, if_neg (by simp [h])]
  rfl
theorem noteWake_rests {s : State} (h : s.power.st = .dormant) (b : Nat) :
    (noteWake s b).power.waking = true ∧ (noteWake s b).power.st = .dormant := by
  obtain ⟨waking, st⟩ := beginWake_power s
  rw [noteWake_dormant h]
  exact ⟨waking, st.trans h⟩
theorem noteWake_begins {s : State} (h : s.power.st = .dormant) {b : Nat} (hb : b < 32) : Woken b (noteWake s b) := by
  obtain ⟨waking, st⟩ := noteWake_rests h b
  refine ⟨waking, st, ?_⟩
  rw [noteWake_dormant h]
  exact State.bit_setBit_same _ _ _ _ hb
/-- A wake goes on from source to source. -/
theorem Woken.noteWake {b : Nat} (hb : b < 32) {s : State} (h : Woken b s) (b' : Nat) : Woken b (noteWake s b') := by
  obtain ⟨waking, rests, noted⟩ := h
  by_cases same : b' = b
  · subst same
    exact noteWake_begins rests hb
  · rw [noteWake_dormant rests, beginWake, if_pos waking]
    exact ⟨waking, rests, (State.bit_setBit_other s 0x206 b' b true (Ne.symm same)).trans noted⟩

/-- A lost character counts above the sources of CLK_WAKESRC. -/
theorem loseChar_sources (s : State) (n : Nat) {b : Nat} (hb : b < 24) : (loseChar s n).bit 0x206 b = s.bit 0x206 b := by
  have apart : (0x206 : Nat) ≠ pAddr n 0x13 ∧ (0x206 : Nat) ≠ pAddr n 0x1D := by
    simp only [pAddr]
    omega
  have same : ((s.count (pAddr n 0x1D) 16 16).setBit (pAddr n 0x13) 11).reg 0x206 = s.reg 0x206 := by
    rw [State.reg_setBit_other _ _ _ _ apart.1, State.reg_count_other _ _ _ _ apart.2]
  unfold loseChar
  dsimp only
  split
  · refine Eq.trans ?_ (State.bit_of_reg same b)
    unfold State.bit
    rw [show State.reg (State.count _ 0x206 24 8) 0x206 = _ from (State.reg_setFld _ _ _ _ _ _).trans (if_pos rfl),
      getF_setF_other _ _ _ _ _ _ (.inr (by omega))]
  · exact State.bit_of_reg same b
theorem loseChar_power (s : State) (n : Nat) : (loseChar s n).power = s.power := by
  obtain ⟨power, -⟩ := State.of_clocks (loseChar_clocks s n)
  exact power
theorem Woken.loseChar {b : Nat} {s : State} (h : Woken b s) (hb : b < 24) (n : Nat) : Woken b (loseChar s n) := by
  obtain ⟨waking, rests, noted⟩ := h
  exact ⟨by rw [loseChar_power, waking], by rw [loseChar_power, rests], by rw [loseChar_sources s n hb, noted]⟩

/-- The sources that WAKE_EVENT names, on a device that has them (R126). -/
def edgeOf (s : State) (src : BitVec 20) (n : Nat) : Bool := src.getLsbD n && present s n && pEn s n
def hselOf (s : State) (src : BitVec 20) : Bool := src.getLsbD 16 && s.fld 0x105 9 2 != 2
def wakesOn (s : State) (src : BitVec 20) : Bool :=
  (List.range 16).any (fun n => edgeOf s src n && s.bit 0x203 n) || (hselOf s src && s.bit 0x203 16) ||
    (src.getLsbD 17 && s.bit 0x203 17) || src.getLsbD 19

/-- A start edge is noted and costs its port a character. -/
def wakeEdge (s : State) (src : BitVec 20) (t : State) (n : Nat) : State := if edgeOf s src n then loseChar (noteWake t n) n else t
def wakeEdges (s : State) (src : BitVec 20) : State := forEach 16 (wakeEdge s src) s
/-- The fall of HSEL_N is noted, and the frame in progress discarded (R75). -/
def wakeHsel (s : State) (src : BitVec 20) (t : State) : State :=
  if hselOf s src then { noteWake t 16 with host := { (noteWake t 16).host with selected := true, discard := true } } else t
/-- Another source. -/
def wakeIf (c : Bool) (b : Nat) (t : State) : State := if c then noteWake t b else t

theorem doWake_wakes {s : State} {src : BitVec 20} (h : s.power.st = .dormant) (wakes : wakesOn s src = true) :
    doWake s src = wakeIf (src.getLsbD 19) 19 (wakeIf (src.getLsbD 17) 17 (wakeHsel s src (wakeEdges s src))) := by
  rw [doWake, if_neg (by simp [h])]
  exact if_neg (show ¬ (!(s.power.waking || wakesOn s src)) = true by simp [wakes])

/-! Each source in turn leaves the device in DORMANT, and records itself beside those before it. -/

theorem wakeIf_dormant {t : State} (h : t.power.st = .dormant) (c : Bool) (b : Nat) : (wakeIf c b t).power.st = .dormant := by
  cases c
  · exact h
  · exact (noteWake_rests h b).2
theorem Woken.wakeIf {b : Nat} (hb : b < 32) {t : State} (h : Woken b t) (c : Bool) (b' : Nat) : Woken b (wakeIf c b' t) := by
  cases c
  · exact h
  · exact h.noteWake hb b'
theorem wakeHsel_dormant (s : State) (src : BitVec 20) {t : State} (h : t.power.st = .dormant) : (wakeHsel s src t).power.st = .dormant := by
  unfold wakeHsel
  split
  · exact (noteWake_rests h 16).2
  · exact h
theorem Woken.wakeHsel {b : Nat} (hb : b < 32) {t : State} (h : Woken b t) (s : State) (src : BitVec 20) : Woken b (wakeHsel s src t) := by
  unfold Machine.wakeHsel
  split
  · exact h.noteWake hb 16
  · exact h
theorem wakeEdge_dormant (s : State) (src : BitVec 20) {t : State} (h : t.power.st = .dormant) (n : Nat) :
    (wakeEdge s src t n).power.st = .dormant := by
  unfold wakeEdge
  split
  · rw [loseChar_power]
    exact (noteWake_rests h n).2
  · exact h
theorem Woken.wakeEdge {b : Nat} (hb : b < 24) {t : State} (h : Woken b t) (s : State) (src : BitVec 20) (n : Nat) :
    Woken b (wakeEdge s src t n) := by
  unfold Machine.wakeEdge
  split
  · exact (h.noteWake (by omega) n).loseChar hb n
  · exact h
theorem wakeEdges_dormant {s : State} (h : s.power.st = .dormant) (src : BitVec 20) : (wakeEdges s src).power.st = .dormant :=
  List.foldlRecOn (motive := fun t : State => t.power.st = PowerState.dormant) (List.range 16) (wakeEdge s src) h fun _ rests n _ =>
    wakeEdge_dormant s src rests n
theorem wakeEdges_woken {s : State} (h : s.power.st = .dormant) {src : BitVec 20} {n : Nat} (hn : n < 16) (edge : edgeOf s src n = true) :
    Woken n (wakeEdges s src) := by
  refine forEach_reaches (P := fun t => t.power.st = .dormant) (i := n) (fun t k rests => wakeEdge_dormant s src rests k) (fun t rests => ?_)
    (fun t k woken => woken.wakeEdge (by omega) s src k) hn h
  rw [wakeEdge, if_pos edge]
  exact (noteWake_begins rests (by omega)).loseChar (by omega) n

/-- The rules of WAKE_EVENT (R126): an enabled source begins the wake and is recorded. -/
theorem doWake_edge {s : State} (h : s.power.st = .dormant) {src : BitVec 20} {n : Nat} (hn : n < 16) (edge : edgeOf s src n = true)
    (enabled : s.bit 0x203 n = true) : Woken n (doWake s src) := by
  have wakes : wakesOn s src = true := by
    have some : (List.range 16).any (fun n => edgeOf s src n && s.bit 0x203 n) = true :=
      List.any_eq_true.2 ⟨n, List.mem_range.2 hn, by simp [edge, enabled]⟩
    simp [wakesOn, some]
  rw [doWake_wakes h wakes]
  exact (((wakeEdges_woken h hn edge).wakeHsel (by omega) s src).wakeIf (by omega) _ 17).wakeIf (by omega) _ 19
theorem doWake_hsel {s : State} (h : s.power.st = .dormant) {src : BitVec 20} (falls : hselOf s src = true) (enabled : s.bit 0x203 16 = true) :
    Woken 16 (doWake s src) := by
  rw [doWake_wakes h (by simp [wakesOn, falls, enabled])]
  have woken : Woken 16 (wakeHsel s src (wakeEdges s src)) := by
    rw [wakeHsel, if_pos falls]
    exact noteWake_begins (wakeEdges_dormant h src) (by decide)
  exact (woken.wakeIf (by decide) _ 17).wakeIf (by decide) _ 19
theorem doWake_pin {s : State} (h : s.power.st = .dormant) {src : BitVec 20} (pin : src.getLsbD 17 = true) (enabled : s.bit 0x203 17 = true) :
    Woken 17 (doWake s src) := by
  rw [doWake_wakes h (by simp [wakesOn, pin, enabled]), pin]
  have woken : Woken 17 (wakeIf true 17 (wakeHsel s src (wakeEdges s src))) :=
    noteWake_begins (wakeHsel_dormant s src (wakeEdges_dormant h src)) (by decide)
  exact woken.wakeIf (by decide) _ 19
theorem doWake_alarm {s : State} (h : s.power.st = .dormant) {src : BitVec 20} (alarm : src.getLsbD 19 = true) : Woken 19 (doWake s src) := by
  rw [doWake_wakes h (by simp [wakesOn, alarm]), alarm]
  exact noteWake_begins (wakeIf_dormant (wakeHsel_dormant s src (wakeEdges_dormant h src)) _ 17) (by decide)
theorem doWake_none {s : State} (asleep : s.power.waking = false) : doWake s 0#20 = s := by
  have none : wakesOn s 0#20 = false := by simp [wakesOn, edgeOf, hselOf]
  unfold doWake
  split
  · rfl
  · exact if_pos (show (!(s.power.waking || wakesOn s 0#20)) = true by simp [asleep, none])
theorem doWake_awake {s : State} (h : s.power.st ≠ .dormant) (src : BitVec 20) : doWake s src = s := if_pos (by simpa using h)

/-! ## The end of a wake (R127, Table 4-7) -/

/-- SLOW_WAKE is noted with CLK_EVT.SLOWWAKE and counts. -/
def noteSlowWake (s : State) : State := ({ s with power := { s.power with slowWake := true } }.setBit 0x205 8).count 0x208 16 16
theorem noteSlowWake_lands (s : State) : (noteSlowWake s).power = { s.power with slowWake := true } ∧ (noteSlowWake s).bit 0x205 8 = true ∧
    (noteSlowWake s).fld 0x208 16 16 = min (s.fld 0x208 16 16 + 1) 65535 := by
  refine ⟨rfl, ?_, ?_⟩
  · exact (State.bit_of_reg (State.reg_count_other _ _ _ _ (by decide)) 8).trans (State.bit_setBit_same _ _ _ _ (by decide))
  · refine (State.fld_count_same _ _ _ _ (by decide)).trans ?_
    rw [State.fld_setBit_other _ _ _ (by decide)]
    exact satInc_eq_min _ _

/-- CLK_STAT shows ROOT and the lock, CLK_EVT.WOKE is set, and the device runs (Table 4-7). -/
def awoken (s : State) : State :=
  (lockWords { s with power := { s.power with st := .run, waking := false, slowWake := false },
                      commit := { s.commit with liveTime := s.now } }).setBit 0x205 7
theorem awoken_lands (s : State) : (awoken s).power = { s.power with st := .run, waking := false, slowWake := false } ∧
    (awoken s).commit = { s.commit with liveTime := s.now } ∧ (awoken s).bit 0x200 0 = true ∧ (awoken s).bit 0x200 1 = true ∧
    (awoken s).bit 0x205 7 = true := by
  obtain ⟨root, lock⟩ := lockWords_lands { s with power := { s.power with st := .run, waking := false, slowWake := false },
                                                   commit := { s.commit with liveTime := s.now } }
  exact ⟨rfl, rfl, (State.bit_setBit_word _ _ _ _ _ (by decide)).trans root, (State.bit_setBit_word _ _ _ _ _ (by decide)).trans lock,
    State.bit_setBit_same _ _ _ _ (by decide)⟩

/-- WAKE_COMPLETE with no commit outstanding: what the CAN channels and the trunks do then leaves the clocks. -/
theorem execWakeComplete_lands {s : State} (waking : s.power.waking = true) (staged : s.commit.staged = []) :
    ∃ t, execWakeComplete s = .next t ∧ t.clocks = (awoken s).clocks := by
  have same : (trunkWatch (rejoin (rejoin (awoken s) 0) 1) .restart).clocks = (awoken s).clocks := by simp
  refine ⟨settleAll (trunkWatch (rejoin (rejoin (awoken s) 0) 1) .restart), ?_, ?_⟩
  · rw [execWakeComplete, if_neg (by simp [waking])]
    rfl
  · obtain ⟨-, commit, -⟩ := State.of_clocks same
    obtain ⟨-, kept, -⟩ := awoken_lands s
    rw [settleAll_of_none (by rw [commit, kept, staged])]
    exact same

/-! ## The rules of the power states -/

/-- Settles O34: each command is its guard, and the lemma above that says what it leaves. -/
theorem lockAndPowerStates : Obligations.LockAndPowerStates := by
  unfold Obligations.LockAndPowerStates
  intro s src
  refine ⟨fun locked => ⟨execPllUnlock_locked locked, execRootLost_locked locked⟩, fun unlocked => if_neg (by simp [unlocked]),
    fun rests => if_pos (by simp [rests]), fun unlocked awake => ?_, fun relock staged => ?_, fun none => if_pos (by simp [none]),
    fun rests => if_pos ((quietTest_iff s).2 rests), fun busy => if_neg fun test => busy ((quietTest_iff s).1 test),
    fun quiet => if_pos (by simp [quiet]), fun loud => if_neg (by simpa using loud),
    fun sleeps => execDormantEnter_rests ((dormantTest_iff s).2 sleeps), fun busy => if_neg fun test => busy ((dormantTest_iff s).1 test),
    fun rests asleep => ⟨fun n seen here used enabled => ?_, fun seen here enabled => ?_, fun seen enabled => ?_, fun seen => ?_, ?_⟩,
    fun rests timer => ?_, fun awake => ?_, fun idle => if_neg ?_, fun waking fast => ?_, fun idle => if_neg ?_, fun waking staged => ?_,
    fun asleep => if_pos (by simp [asleep])⟩
  case refine_1 =>
    refine ⟨_, execRootLost_unlocked unlocked awake, State.bit_setBit_same s 0x200 0 false (by decide), rfl, fun r other => ?_⟩
    exact State.reg_setBit_other s 0x200 0 false other
  case refine_2 =>
    obtain ⟨t, eq, same⟩ := execPllRelock_lands relock staged
    obtain ⟨power, -, -, stat, evt, cnt⟩ := State.of_clocks same
    obtain ⟨power', -, root, lock, event, lost, count⟩ := relocked_lands s
    refine ⟨t, eq, by rw [power, power'], by rw [power, power'], (State.bit_of_reg stat 0).trans root, (State.bit_of_reg stat 1).trans lock,
      (State.bit_of_reg evt 5).trans event, fun gone => (State.bit_of_reg evt 6).trans (lost gone), (State.fld_of_reg cnt 0 16).trans count⟩
  case refine_3 => exact ⟨_, rfl, doWake_edge rests n.isLt (by simp [edgeOf, seen, here, used]) enabled⟩
  case refine_4 => exact ⟨_, rfl, doWake_hsel rests (by simp [hselOf, seen, here]) enabled⟩
  case refine_5 => exact ⟨_, rfl, doWake_pin rests seen enabled⟩
  case refine_6 => exact ⟨_, rfl, doWake_alarm rests seen⟩
  case refine_7 => exact congrArg Host.Outcome.next (doWake_none asleep)
  case refine_8 => exact ⟨_, if_pos (by simp [rests, timer]), noteWake_begins rests (by decide)⟩
  case refine_9 => exact congrArg Host.Outcome.next (doWake_awake awake src)
  case refine_10 => rcases idle with idle | idle <;> simp [idle]
  case refine_11 => exact ⟨_, if_pos (by simp [waking, fast]), noteSlowWake_lands s⟩
  case refine_12 => rcases idle with idle | idle <;> simp [idle]
  case refine_13 =>
    obtain ⟨t, eq, same⟩ := execWakeComplete_lands waking staged
    obtain ⟨power, commit, -, stat, evt, -⟩ := State.of_clocks same
    obtain ⟨power', commit', root, lock, woke⟩ := awoken_lands s
    exact ⟨t, eq, power.trans power', (State.bit_of_reg stat 0).trans root, (State.bit_of_reg stat 1).trans lock,
      (State.bit_of_reg evt 7).trans woke, congrArg Commit.liveTime (commit.trans commit')⟩

end Sys2Proof.Machine
end

section
/-! PROOF. A GLB_COMMIT write with no bit set (O58): the word has no RB and no RW field, so its write lands nowhere (R152). -/
namespace Sys2Proof.Machine

/-- A word without fields of an access code is left as it is by a write of that code's fields, and nothing is clamped. -/
theorem writeAcc_of_none (pm : Nat) (w : Word) {acc : Acc} {fs : List Field} (none : ∀ f ∈ fs, f.acc ≠ acc) (old : Word) :
    writeAcc pm acc w fs old = (old, false) := by
  induction fs with
  | nil => rfl
  | cons f t ih =>
    simp only [writeAcc, beq_iff_eq, none f (by simp), if_false]
    exact ih fun g hg => none g (by simp [hg])

/-- The mask of fields that none satisfies is empty. -/
theorem maskOf_of_none {p : Field → Bool} {fs : List Field} (none : ∀ f ∈ fs, p f = false) : maskOf p fs = 0#32 := by
  unfold maskOf
  induction fs with
  | nil => rfl
  | cons f t ih =>
    rw [List.foldl_cons, none f (by simp)]
    exact ih fun g hg => none g (by simp [hg])

/-- Where a write covers no RB field of its word, the host's marks read as before. -/
theorem markHost_marks (s : State) (a : Nat) (mask : Word) (none : writtenMask a mask = 0#32) (b : Nat) :
    fget (fun _ => 0#32) (markHost s a mask).commit.marks b = fget (fun _ => 0#32) s.commit.marks b := by
  unfold markHost
  split
  · rfl
  · dsimp only
    rw [fget_fset, none, BitVec.or_zero]
    split
    · next h => rw [h]
    · rfl

/-- A word of a present block without RB and RW fields takes nothing from a write. -/
theorem writeRW_of_no_field {s : State} {a : Nat} (present : absentPort s a = false) (plain : ∀ f ∈ fieldsAt a, f.acc ≠ .rb ∧ f.acc ≠ .rw)
    (w mask : Word) : writeRW s a w mask = landed s a w mask ∧ ∀ b, (landed s a w mask).reg b = s.reg b ∧
      (landed s a w mask).shad b = s.shad b ∧
      fget (fun _ => 0#32) (landed s a w mask).commit.marks b = fget (fun _ => 0#32) s.commit.marks b := by
  have rb (old : Word) := writeAcc_of_none (presentMask s) w (fun f hf => (plain f hf).1) old
  have rw' (old : Word) := writeAcc_of_none (presentMask s) w (fun f hf => (plain f hf).2) old
  have unmarked : writtenMask a mask = 0#32 := maskOf_of_none fun f hf => by simp [(plain f hf).1]
  refine ⟨?_, fun b => ⟨?_, ?_, ?_⟩⟩
  · rw [writeRW_eq present, writeClamps, rb, rw']
    rfl
  · rw [landed_reg, rw']
    split
    · next h => rw [h]
    · rfl
  · rw [landed_shad, rb]
    split
    · next h => rw [h]
    · rfl
  · exact markHost_marks _ a mask unmarked b

/-- Settles O58: the strobe of no group is the model's first case, and GLB_COMMIT holds a strobe field alone. -/
theorem commitOfNothing : Obligations.CommitOfNothing := by
  unfold Obligations.CommitOfNothing
  intro s w
  refine ⟨?strobe, fun out => ?unreached, fun reach none => ?write⟩
  case strobe => cases reach : hostReach s <;> simp [exec_commitStrobe, reach, doCommit]
  case unreached => rw [exec_registerWrite, viaHost_unreached out]
  case write =>
    obtain ⟨lands, kept⟩ := writeRW_of_no_field (s := s) (a := 0x03) rfl (by decide) w 0xFFFFFFFF#32
    have written : writeWord s 0x03 w 0xFFFFFFFF#32 = landed s 0x03 w 0xFFFFFFFF#32 := by
      rw [writeWord, lands]
      exact if_pos none
    obtain ⟨r, sh, m, frame⟩ := landed_updates s 0x03 w 0xFFFFFFFF#32
    rw [exec_registerWrite, viaHost_reached reach]
    refine ⟨_, congrArg Host.Outcome.next written, fun a => ⟨(kept a).1, (kept a).2.1⟩, fun a => (kept a).2.2, ?_⟩
    rw [frame]

end Sys2Proof.Machine
end

section
/-! PROOF. The mailbox (O4): what each of its commands does to the registers, to its own state and to the item (R158 to R162). -/
namespace Sys2Proof.Machine

/-! ## A change of registers -/

/-- Equal registers read equal. -/
theorem State.reg_of_regs {s t : State} (h : t.regs = s.regs) (b : Nat) : t.reg b = s.reg b := by rw [State.reg, State.reg, h]

/-- From `s` to `t` only registers change, and none of the words that `kept` holds of. -/
structure RegStep (kept : Nat → Prop) (s t : State) : Prop where
  frame : t = { s with regs := t.regs }
  words : ∀ b, kept b → t.reg b = s.reg b

namespace RegStep
variable {kept : Nat → Prop} {s t : State}

theorem refl (kept : Nat → Prop) (s : State) : RegStep kept s s := ⟨rfl, fun _ _ => rfl⟩
theorem trans {u : State} (h : RegStep kept s t) (k : RegStep kept t u) : RegStep kept s u :=
  ⟨by rw [k.frame, h.frame], fun b hb => (k.words b hb).trans (h.words b hb)⟩
theorem setReg (h : RegStep kept s t) {a : Nat} (ha : ¬ kept a) (w : Word) : RegStep kept s (t.setReg a w) := by
  refine ⟨?_, fun b hb => ?_⟩
  · rw [h.frame]
    rfl
  · rw [State.reg_setReg, if_neg fun e : b = a => ha (e ▸ hb), h.words b hb]
theorem setFld (h : RegStep kept s t) {a : Nat} (ha : ¬ kept a) (lo wd v : Nat) : RegStep kept s (t.setFld a lo wd v) := h.setReg ha _
theorem setBit (h : RegStep kept s t) {a : Nat} (ha : ¬ kept a) (i : Nat) (v : Bool) : RegStep kept s (t.setBit a i v) := h.setReg ha _
theorem count (h : RegStep kept s t) {a : Nat} (ha : ¬ kept a) (lo wd : Nat) : RegStep kept s (t.count a lo wd) := h.setReg ha _
theorem noteClamp (h : RegStep kept s t) (h12 : ¬ kept 0x12) (h0B : ¬ kept 0x0B) (a : Nat) : RegStep kept s (noteClamp t a) :=
  ((h.setFld h12 0 16 a).count h12 16 16).setBit h0B 0 true
theorem mono {kept' : Nat → Prop} (h : RegStep kept s t) (sub : ∀ b, kept' b → kept b) : RegStep kept' s t :=
  ⟨h.frame, fun b hb => h.words b (sub b hb)⟩
theorem forEach {n : Nat} {f : State → Nat → State} (h : ∀ t i, i < n → RegStep kept s t → RegStep kept s (f t i)) :
    RegStep kept s (forEach n f s) :=
  List.foldlRecOn _ _ (.refl kept s) fun t ht i hi => h t i (List.mem_range.1 hi) ht

end RegStep

/-! ## The mailbox's words -/

/-- Words put one after another from `a` on: each holds what was put, and every other word is as it was. -/
theorem reg_setRegs (a : Nat) (f : Nat → Word) (n : Nat) (s : State) (b : Nat) :
    (forEach n (fun s j => s.setReg (a + j) (f j)) s).reg b = if a ≤ b ∧ b < a + n then f (b - a) else s.reg b := by
  induction n with
  | zero => rw [if_neg (by omega)]; rfl
  | succ n ih =>
    simp only [forEach] at ih ⊢
    rw [List.range_succ, List.foldl_append, List.foldl_cons, List.foldl_nil, State.reg_setReg, ih]
    by_cases last : b = a + n
    · rw [if_pos last, if_pos (by omega), last, Nat.add_sub_cancel_left]
    · rw [if_neg last]
      exact if_congr (by omega) rfl rfl

/-- The four words put land in MBX_DAT0 to MBX_DAT3, and in no other word. -/
theorem reg_putDat (s : State) (ws : List Word) (b : Nat) :
    (putDat s ws).reg b = if 0x22 ≤ b ∧ b < 0x26 then (ws[b - 0x22]?).getD 0#32 else s.reg b :=
  reg_setRegs 0x22 (fun j => (ws[j]?).getD 0#32) 4 s b

/-- Putting the four words changes no other register, and nothing else. -/
theorem putDat_step (s : State) (ws : List Word) : RegStep (fun b => b < 0x22 ∨ 0x26 ≤ b) s (putDat s ws) :=
  RegStep.forEach (fun t j hj h => h.setReg (by omega) _)

/-- A word that is no CANx_OBJi_STAT: those stand at offset 4 of their objects, from 0x5400 on. -/
def noObjStat (b : Nat) : Prop := b < 0x5400 ∨ b % 8 ≠ 4

theorem not_noObjStat (ch i : Nat) : ¬ noObjStat (oAddr ch i 4) := by
  unfold noObjStat oAddr
  omega

/-- A capture that takes its item clears NEWDAT and LOST of an object, in no word but CANx_OBJi_STAT (R451). -/
theorem mbxTaken_step (s : State) (sel : Nat) : RegStep noObjStat s (mbxTaken s sel) := by
  unfold mbxTaken
  refine iteInduction (fun _ => ?_) fun _ => .refl _ s
  exact ((RegStep.refl _ s).setBit (not_noObjStat _ _) 12 false).setBit (not_noObjStat _ _) 13 false

/-! ## Selecting an item (R159, R162) -/

/-- A selector that names an item, and 0x0000, are stored. -/
theorem doMbxSelect_named {s : State} {sel : Nat} (h : sel = 0 ∨ mbxNames s sel = true) :
    doMbxSelect s sel = { (s.setFld 0x20 0 16 sel).setBit 0x21 0 false with mbx := { capturing := true } } := by
  have ok : (sel == 0 || mbxNames s sel) = true := by simpa using h
  simp only [doMbxSelect, ok, if_true]
/-- Any other clamps to 0x0000, which is noted (R162). -/
theorem doMbxSelect_unnamed {s : State} {sel : Nat} (h : ¬ (sel = 0 ∨ mbxNames s sel = true)) :
    doMbxSelect s sel = { (noteClamp (s.setFld 0x20 0 16 0) 0x20).setBit 0x21 0 false with mbx := { capturing := true } } := by
  have ok : (sel == 0 || mbxNames s sel) = false := by simpa [not_or] using h
  simp only [doMbxSelect, ok, Bool.false_eq_true, if_false]

/-- The words that a write of MBX_SEL leaves: all but MBX_SEL, MBX_CTL and those of a noted clamp. -/
def noSelect (b : Nat) : Prop := b ∉ [0x20, 0x21, 0x0B, 0x12]

/-- A write of MBX_SEL starts a capture, and changes no more than those words beside. -/
theorem doMbxSelect_step (s : State) (sel : Nat) :
    ∃ u, RegStep noSelect s u ∧ doMbxSelect s sel = { u with mbx := { capturing := true } } := by
  have written (v : Nat) : RegStep noSelect s (s.setFld 0x20 0 16 v) := (RegStep.refl _ s).setFld (by simp [noSelect]) 0 16 v
  by_cases h : sel = 0 ∨ mbxNames s sel = true
  · exact ⟨_, (written sel).setBit (by simp [noSelect]) 0 false, doMbxSelect_named h⟩
  · exact ⟨_, ((written 0).noteClamp (by simp [noSelect]) (by simp [noSelect]) 0x20).setBit (by simp [noSelect]) 0 false,
      doMbxSelect_unnamed h⟩

/-- The registers that it leaves. -/
theorem reg_doMbxSelect_named {s : State} {sel : Nat} (h : sel = 0 ∨ mbxNames s sel = true) (b : Nat) :
    (doMbxSelect s sel).reg b = ((s.setFld 0x20 0 16 sel).setBit 0x21 0 false).reg b :=
  State.reg_of_regs (by rw [doMbxSelect_named h]) b
theorem reg_doMbxSelect_unnamed {s : State} {sel : Nat} (h : ¬ (sel = 0 ∨ mbxNames s sel = true)) (b : Nat) :
    (doMbxSelect s sel).reg b = ((noteClamp (s.setFld 0x20 0 16 0) 0x20).setBit 0x21 0 false).reg b :=
  State.reg_of_regs (by rw [doMbxSelect_unnamed h]) b

/-- VALID clears. -/
theorem doMbxSelect_invalid (s : State) (sel : Nat) : (doMbxSelect s sel).bit 0x21 0 = false := by
  by_cases h : sel = 0 ∨ mbxNames s sel = true
  · rw [State.bit_of_reg (reg_doMbxSelect_named h _), State.bit_setBit_same _ _ _ _ (by decide)]
  · rw [State.bit_of_reg (reg_doMbxSelect_unnamed h _), State.bit_setBit_same _ _ _ _ (by decide)]

/-- MBX_SEL holds a selector that names an item. -/
theorem doMbxSelect_sel_named {s : State} {sel : Nat} (h : sel = 0 ∨ mbxNames s sel = true) (lt : sel < 2 ^ 16) :
    (doMbxSelect s sel).fld 0x20 0 16 = sel := by
  rw [State.fld_of_reg (reg_doMbxSelect_named h _), State.fld_of_reg (State.reg_setBit_other _ _ _ _ (by decide)),
    State.fld_setFld_same _ _ _ _ _ (by decide), Nat.mod_eq_of_lt lt]

/-- One that names none leaves 0x0000 there, GLB_EVT.CLAMP, and the word's address in GLB_LASTCLAMP. -/
theorem doMbxSelect_sel_unnamed {s : State} {sel : Nat} (h : ¬ (sel = 0 ∨ mbxNames s sel = true)) :
    (doMbxSelect s sel).fld 0x20 0 16 = 0 ∧ (doMbxSelect s sel).bit 0x0B 0 = true ∧ (doMbxSelect s sel).fld 0x12 0 16 = 0x20 := by
  obtain ⟨address, event⟩ := noteClamp_noted (s.setFld 0x20 0 16 0) (a := 0x20) (by decide)
  have reg {b : Nat} (hb : b ≠ 0x21) : (doMbxSelect s sel).reg b = (noteClamp (s.setFld 0x20 0 16 0) 0x20).reg b := by
    rw [reg_doMbxSelect_unnamed h, State.reg_setBit_other _ _ _ _ hb]
  refine ⟨?_, ?_, ?_⟩
  · rw [State.fld_of_reg (reg (by decide)), State.fld_of_reg (noteClamp_reg_other _ _ (by decide) (by decide)),
      State.fld_setFld_same _ _ _ _ _ (by decide), Nat.zero_mod]
  · rw [State.bit_of_reg (reg (by decide)), event]
  · rw [State.fld_of_reg (reg (by decide)), address]

/-! ## The capture (R159, R160) -/

/-- The words that a capture leaves: all but MBX_CTL, MBX_DAT0 to MBX_DAT3 and the objects' CANx_OBJi_STAT. -/
def noCapture (b : Nat) : Prop := (b < 0x21 ∨ 0x26 ≤ b) ∧ noObjStat b

theorem doMbxCapture_of_capturing {s : State} (h : s.mbx.capturing = true) : doMbxCapture s =
    { (mbxTaken (putDat s (mbxRead s (s.fld 0x20 0 16))) (s.fld 0x20 0 16)).setBit 0x21 0 with
      mbx := { capturing := false }, fresh := (mbxTaken (putDat s (mbxRead s (s.fld 0x20 0 16))) (s.fld 0x20 0 16)).fresh + 1 } := by
  simp only [doMbxCapture, h, Bool.not_true, Bool.false_eq_true, if_false]

/-- A capture under way lands: no more than those words, its own state and the free values' counter change. -/
theorem doMbxCapture_step {s : State} (h : s.mbx.capturing = true) :
    ∃ u, RegStep noCapture s u ∧ doMbxCapture s = { u with mbx := { capturing := false }, fresh := s.fresh + 1 } := by
  have put : RegStep noCapture s (putDat s (mbxRead s (s.fld 0x20 0 16))) := (putDat_step s _).mono fun b hb => by
    have := hb.1
    omega
  have taken := put.trans ((mbxTaken_step _ (s.fld 0x20 0 16)).mono fun b hb => hb.2)
  have fresh : (mbxTaken (putDat s (mbxRead s (s.fld 0x20 0 16))) (s.fld 0x20 0 16)).fresh = s.fresh := by rw [taken.frame]
  refine ⟨_, taken.setBit (a := 0x21) (by simp [noCapture]) 0 true, ?_⟩
  rw [doMbxCapture_of_capturing h, fresh]

/-- The item stands in MBX_DAT0 to MBX_DAT3. -/
theorem reg_doMbxCapture {s : State} (h : s.mbx.capturing = true) {j : Nat} (hj : j < 4) :
    (doMbxCapture s).reg (0x22 + j) = ((mbxRead s (s.fld 0x20 0 16))[j]?).getD 0#32 := by
  rw [doMbxCapture_of_capturing h]
  refine (State.reg_setBit_other _ 0x21 0 true (by omega)).trans ?_
  rw [(mbxTaken_step _ _).words _ (.inl (by omega)), reg_putDat, if_pos (by omega), Nat.add_sub_cancel_left]

/-- VALID is set. -/
theorem doMbxCapture_valid {s : State} (h : s.mbx.capturing = true) : (doMbxCapture s).bit 0x21 0 = true := by
  rw [doMbxCapture_of_capturing h]
  exact State.bit_setBit_same _ 0x21 0 true (by decide)

/-! ## A data word, and RECAPTURE (R159, R161) -/

theorem doMbxData_step (s : State) {i : Nat} (hi : i < 4) (w : Word) : RegStep (fun b => b < 0x21 ∨ 0x26 ≤ b) s (doMbxData s i w) :=
  ((RegStep.refl _ s).setReg (by omega) w).setBit (by omega) 0 false

theorem reg_doMbxData (s : State) (i : Nat) (w : Word) {b : Nat} (h21 : b ≠ 0x21) :
    (doMbxData s i w).reg b = if b = 0x22 + i then w else s.reg b :=
  (State.reg_setBit_other _ _ _ _ h21).trans (State.reg_setReg _ _ _ _)

/-! ## WRITE (R161) -/

@[simp] theorem State.setCan_regs (s : State) (ch : Nat) (x : Can) : (s.setCan ch x).regs = s.regs := by
  unfold State.setCan
  split <;> rfl

/-- A write of the four words into an item that takes one changes no register. -/
theorem mbxStore_regs (s : State) (sel : Nat) (ws : List Word) : (mbxStore s sel ws).regs = s.regs := by
  unfold mbxStore
  split
  · exact forList_kept (g := State.regs) (fun _ _ => by rfl) _ s
  · rfl
  · exact State.setCan_regs ..
  · exact State.setCan_regs ..
  · rfl

/-- Of general registers written one after another, one that only write `k` names holds what that write put. -/
theorem greg_setGregs (s : State) (x : Nat) (r : Nat → Reg) (f : Nat → Word) {n k : Nat} (hk : k < n)
    (once : ∀ i, i < n → r i = r k → i = k) : greg (forEach n (fun s i => setGreg s x (r i) (f i)) s) x (r k) = f k := by
  induction n with
  | zero => omega
  | succ n ih =>
    simp only [forEach] at ih ⊢
    rw [List.range_succ, List.foldl_append, List.foldl_cons, List.foldl_nil, greg_setGreg]
    by_cases last : k = n
    · rw [last, if_pos rfl]
    · rw [if_neg fun e => last (once n (by omega) e.symm).symm, ih (by omega) fun i hi => once i (by omega)]

/-- The four registers of an item are four different ones, numbered as the context numbers them. -/
theorem itemRegs_apart : ∀ j k i : Fin 4, regN (4 * j.val + k.val) = (BitVec.ofNat 4 (4 * j.val + k.val)).toFin ∧
    ((BitVec.ofNat 4 (4 * j.val + i.val)).toFin = (BitVec.ofNat 4 (4 * j.val + k.val)).toFin → i = k) := by decide

/-- The item of a context's general registers 4j to 4j + 3 takes the four words. -/
theorem greg_mbxStore (s : State) (x : CircId) (j k : Fin 4) (ws : List Word) :
    greg (mbxStore s (0x8000 + 16 * x.val + 1 + j.val) ws) x (regN (4 * j.val + k.val)) = (ws[k.val]?).getD 0#32 := by
  have hx := x.isLt
  have hj := j.isLt
  have block : (0x8000 + 16 * x.val + 1 + j.val) / 4096 = 8 := by omega
  have ctx : (0x8000 + 16 * x.val + 1 + j.val) % 4096 / 16 = x.val := by omega
  have row : (0x8000 + 16 * x.val + 1 + j.val) % 4096 % 16 - 1 = j.val := by omega
  simp only [mbxStore, block, ctx, row]
  rw [(itemRegs_apart j k k).1]
  exact greg_setGregs s x (fun i => (BitVec.ofNat 4 (4 * j.val + i)).toFin) (fun i => (ws[i]?).getD 0#32) k.isLt
    fun i hi same => congrArg Fin.val ((itemRegs_apart j k ⟨i, hi⟩).2 same)

/-- The item of the seconds to load takes the first two words (R526). -/
theorem mbxStore_seconds (s : State) (ws : List Word) : (mbxStore s 0xB002 ws).ctxs = s.ctxs ∧ (mbxStore s 0xB002 ws).tim.setSec =
    some (((ws[0]?).getD 0#32).toNat % 2 ^ 16 * 2 ^ 32 + ((ws[1]?).getD 0#32).toNat) := ⟨rfl, rfl⟩

/-- WRITE of an item that takes none sets MBXERR; of one that takes it, it stores the four words. -/
theorem doMbxWrite_ro {s : State} (h : mbxRo s (s.fld 0x20 0 16) = true) : doMbxWrite s = s.setBit 0x0B 4 := if_pos h
theorem doMbxWrite_store {s : State} (h : mbxRo s (s.fld 0x20 0 16) = false) :
    doMbxWrite s = mbxStore s (s.fld 0x20 0 16) [s.reg 0x22, s.reg 0x23, s.reg 0x24, s.reg 0x25] := if_neg (by simp [h])

/-! ## The commands -/

theorem exec_mailboxSelect (sel : BitVec 16) (s : State) :
    exec (.mailboxSelect sel) s = .next (viaHost s fun s => doMbxSelect s sel.toNat) := rfl
theorem exec_mailboxRecapture (s : State) : exec .mailboxRecapture s = .next (viaHost s fun s => doMbxRecapture s) := rfl
theorem exec_mailboxDataWrite (i : Fin 4) (w : Word) (s : State) :
    exec (.mailboxDataWrite i w) s = .next (viaHost s fun s => doMbxData s i.val w) := rfl
theorem exec_mailboxWrite (s : State) : exec .mailboxWrite s = .next (viaHost s fun s => doMbxWrite s) := rfl
theorem exec_mailboxCaptureDone (s : State) : exec .mailboxCaptureDone s = .next (doMbxCapture s) := rfl

/-- Settles O4: each command is the host's wrapper around one function of the mailbox, whose words, state and item the lemmas above
give. Which selectors name an item is the model's reading (log entry 63). -/
theorem mailboxCommands : Obligations.MailboxCommands := by
  unfold Obligations.MailboxCommands
  intro s sel i w
  refine ⟨fun out => ?unreached, fun idle => ?idle, fun reach => ⟨?select, ?recapture, fun capturing => ?done, ?data, fun ro => ?readOnly,
    fun rw' => ?write⟩⟩
  case unreached =>
    simp [exec_mailboxSelect, exec_mailboxRecapture, exec_mailboxDataWrite, exec_mailboxWrite, viaHost_unreached out]
  case idle => rw [exec_mailboxCaptureDone, doMbxCapture, idle]; rfl
  case select =>
    rw [exec_mailboxSelect, viaHost_reached reach]
    have zero : sel = 0#16 ↔ sel.toNat = 0 := by simp [← BitVec.toNat_inj]
    obtain ⟨u, -, eq⟩ := doMbxSelect_step s sel.toNat
    refine ⟨_, rfl, by rw [eq], doMbxSelect_invalid s _, ?_⟩
    by_cases named : sel = 0#16 ∨ mbxNames s sel.toNat = true
    · rw [if_pos named]
      exact ⟨doMbxSelect_sel_named (by rwa [zero] at named) sel.isLt, fun unnamed => absurd named unnamed⟩
    · rw [if_neg named]
      obtain ⟨sel0, noted⟩ := doMbxSelect_sel_unnamed (by rwa [zero] at named)
      exact ⟨sel0, fun _ => noted⟩
  case recapture =>
    rw [exec_mailboxRecapture, viaHost_reached reach]
    exact ⟨_, rfl, rfl, State.bit_setBit_same s 0x21 0 false (by decide), fun b hb => State.reg_setBit_other s 0x21 0 false hb⟩
  case done =>
    obtain ⟨u, -, eq⟩ := doMbxCapture_step capturing
    exact ⟨_, exec_mailboxCaptureDone s, by rw [eq], doMbxCapture_valid capturing, fun j hj => reg_doMbxCapture capturing hj⟩
  case data =>
    rw [exec_mailboxDataWrite, viaHost_reached reach]
    refine ⟨_, rfl, ?_, State.bit_setBit_same _ 0x21 0 false (by decide), fun b hb h21 => ?_⟩
    · rw [reg_doMbxData _ _ _ (by omega), if_pos rfl]
    · rw [reg_doMbxData _ _ _ h21, if_neg hb]
  case readOnly => rw [exec_mailboxWrite, viaHost_reached reach, doMbxWrite_ro ro]
  case write =>
    rw [exec_mailboxWrite, viaHost_reached reach, doMbxWrite_store rw']
    refine ⟨_, rfl, mbxStore_regs _ _ _, fun seconds => ?_, fun x j k _ item => ?_⟩
    · rw [seconds]
      exact (mbxStore_seconds s _).symm
    · rw [item, greg_mbxStore]
      match k with
      | 0 | 1 | 2 | 3 => rfl

end Sys2Proof.Machine
end

section
/-! PROOF. What the host port's commands share (O48, O50): an accepted frame, its counts and events, the staging cells of a snapshot, and the
parts of the state that reads, writes and the mailbox leave (R399, R403, R408, R409, R418). -/
namespace Sys2Proof.Machine

/-! ## Counts and events (Tables 12-6, 12-14, 12-15) -/

theorem satInc_sixteen (v : Nat) : satInc 16 v = min (v + 1) 65535 := by
  unfold satInc
  split <;> omega

/-- An error of the port counts in its half of HST_ERRk, sets its bit of HST_EVT, and touches no other word. -/
theorem hostErr_step (s : State) (k lo b : Nat) : RegStep (fun a => a ≠ 0x402 ∧ a ≠ 0x404 + k) s (hostErr s k lo b) :=
  ((RegStep.refl _ s).count (by simp) lo 16).setBit (by simp) b true
theorem hostErr_counts (s : State) {k lo b : Nat} (hlo : lo + 16 ≤ 32) (hb : b < 32) :
    (hostErr s k lo b).fld (0x404 + k) lo 16 = min (s.fld (0x404 + k) lo 16 + 1) 65535 ∧ (hostErr s k lo b).bit 0x402 b = true := by
  refine ⟨?_, State.bit_setBit_same _ _ _ _ hb⟩
  rw [hostErr, State.fld_of_reg (State.reg_setBit_other _ _ _ _ (by omega)), State.fld_count_same _ _ _ _ hlo, satInc_sixteen]

/-! ## An accepted frame (R399, R403) -/

/-- An accepted frame counts in HST_FRAMES and stands in LASTTAG; refusals are forgotten and the time is kept. -/
theorem acceptFrame_step (s : State) (tag : Nat) : ∃ u, RegStep (fun b => b ≠ 0x400 ∧ b ≠ 0x408) s u ∧
    acceptFrame s tag = { u with host := { s.host with rej := false, frameTime := s.now } } :=
  ⟨_, ((RegStep.refl _ s).setReg (a := 0x408) (by simp) _).setFld (a := 0x400) (by simp) 8 8 tag, rfl⟩

theorem reg_acceptFrame (s : State) (tag b : Nat) : (acceptFrame s tag).reg b = ((s.countWrap 0x408).setFld 0x400 8 8 tag).reg b :=
  State.reg_of_regs (by rw [acceptFrame]) b
theorem reg_acceptFrame_other (s : State) (tag : Nat) {b : Nat} (h0 : b ≠ 0x400) (h8 : b ≠ 0x408) : (acceptFrame s tag).reg b = s.reg b := by
  rw [reg_acceptFrame, State.reg_setFld_other _ _ _ _ _ h0, State.countWrap, State.reg_setReg, if_neg h8]
theorem reg_acceptFrame_count (s : State) (tag : Nat) : (acceptFrame s tag).reg 0x408 = s.reg 0x408 + 1#32 := by
  rw [reg_acceptFrame, State.reg_setFld_other _ _ _ _ _ (by decide), State.countWrap, State.reg_setReg, if_pos rfl]
theorem fld_acceptFrame_tag (s : State) {tag : Nat} (h : tag < 2 ^ 8) : (acceptFrame s tag).fld 0x400 8 8 = tag := by
  rw [State.fld_of_reg (reg_acceptFrame s tag _), State.fld_setFld_same _ _ _ _ _ (by decide), Nat.mod_eq_of_lt h]
@[simp] theorem acceptFrame_host (s : State) (tag : Nat) : (acceptFrame s tag).host = { s.host with rej := false, frameTime := s.now } := rfl
@[simp] theorem acceptFrame_boot (s : State) (tag : Nat) : (acceptFrame s tag).boot = s.boot := rfl
@[simp] theorem acceptFrame_chip (s : State) (tag : Nat) : (acceptFrame s tag).chip = s.chip := rfl

/-- GLB_EVTSUM depends on no word of the frame counts (R163). -/
theorem evtSum_congr {s t : State} (words : ∀ b, b ≠ 0x400 → b ≠ 0x408 → t.reg b = s.reg b) (chip : t.chip = s.chip) : evtSum t = evtSum s := by
  have on (e en : Nat) (h : (e ≠ 0x400 ∧ e ≠ 0x408) ∧ en ≠ 0x400 ∧ en ≠ 0x408) : evOn t e en = evOn s e en := by
    rw [evOn, evOn, words e h.1.1 h.1.2, words en h.2.1 h.2.2]
  have port (n : Nat) : portEvOn t n = portEvOn s n := by
    rw [portEvOn, portEvOn, on _ _ (by simp), present, present, chip]
  have circ (c : Nat) : circEvOn t c = circEvOn s c := on _ _ (by simp)
  have ports : evtPorts t = evtPorts s := by simp only [evtPorts, funext port]
  have circs (b : Nat) : evtCircs t b = evtCircs s b := by simp only [evtCircs, circ]
  simp only [evtSum, ports, circs, words 0x113 (by decide) (by decide), words 0x205 (by decide) (by decide)]
  rw [on 0x0B 0x0C (by decide), on 0x302 0x303 (by decide), on 0x402 0x403 (by decide), on 0x2006 0x2007 (by decide),
    on 0x201C 0x201D (by decide), on 0x2408 0x2409 (by decide), on 0x3034 0x3035 (by decide), on 0x3109 0x310A (by decide),
    on 0x4010 0x4011 (by decide), on 0x480D 0x480E (by decide), on 0x5008 0x5009 (by decide), on 0x5808 0x5809 (by decide)]

/-! ## What reads and writes leave (R137, R138) -/

@[simp] theorem normalRead_boot (s : State) (a : Nat) : (normalRead s a).2.boot = s.boot := State.boot_of_stage (normalRead_stage s a)
@[simp] theorem normalRead_host (s : State) (a : Nat) : (normalRead s a).2.host = s.host := by
  unfold normalRead clearRc
  dsimp only
  split_ifs <;> rfl
@[simp] theorem writeRW_boot (s : State) (a : Nat) (w mask : Word) : (writeRW s a w mask).boot = s.boot :=
  State.boot_of_stage (writeRW_stage s a w mask)
/-- A write of a word's fields changes registers, shadows and the host's marks only. -/
theorem writeRW_frame (s : State) (a : Nat) (w mask : Word) : ∃ r sh m, writeRW s a w mask = { s with
    regs := r, shadow := sh, commit := { s.commit with marks := m } } := by
  cases absent : absentPort s a with
  | false => exact writeRW_updates absent w mask
  | true => exact ⟨s.regs, s.shadow, s.commit.marks, if_pos absent⟩
@[simp] theorem writeRW_host (s : State) (a : Nat) (w mask : Word) : (writeRW s a w mask).host = s.host := by
  obtain ⟨r, sh, m, e⟩ := writeRW_frame s a w mask
  rw [e]

/-- The read-modify-write of a word without strobes: the old value, and a write of the word's fields (R138). -/
theorem rmwWord_of_no_strobe {a : Nat} (hs : accMask .w1s a = 0#32) (hr : a < 0xC000) (hm : a < 0x20 ∨ 0x26 ≤ a) (s : State) (mask v : Word) :
    rmwWord s a mask v = (rmwOld s a, writeRW (normalRead s a).2 a ((rmwOld s a &&& ~~~mask) ||| (v &&& mask)) mask) := by
  rw [rmwWord, writeWord_of_no_strobe hs hm hr]

/-! ## Snapshots (R418, R419) -/

/-- Staging cells granted: the host port and the registers are as they were. -/
theorem stageCells_granted (n : Nat) {s t : State} {l : List Nat} (h : stageCells n s = (some l, t)) : t.host = s.host ∧ t.regs = s.regs := by
  induction n generalizing s t l with
  | zero =>
    cases h
    exact ⟨rfl, rfl⟩
  | succ n ih =>
    unfold stageCells at h
    split at h
    · cases h
    · next i u granted =>
      have first : u.host = s.host ∧ u.regs = s.regs := by
        unfold allocSys at granted
        split at granted
        · cases granted
          exact ⟨rfl, rfl⟩
        · cases granted
      split at h
      · next rest =>
        cases h
        obtain ⟨host, regs⟩ := ih rest
        exact ⟨host.trans first.1, regs.trans first.2⟩
      · cases h

/-- START begins a new snapshot, with the next number modulo 65 536; without it the one under way goes on. -/
theorem snapStart_snapOn (s : State) (start : Bool) : (snapStart s start).host.snapOn = (start || s.host.snapOn) := by
  cases start <;> rfl
theorem snapStart_snapNo (s : State) (start : Bool) : snapNo (snapStart s start) = if start then (snapNo s + 1) % 65536 else snapNo s := by
  cases start with
  | false => rfl
  | true => exact State.fld_setFld_same s 0x40A 0 16 _ (by decide)

/-- A snapshot chunk whose staging cells are granted: its words, the cells kept, the snapshot under way. -/
theorem runSnap_granted {s t : State} (start : Bool) {n : Nat} {l : List Nat} (first count : Nat) (h : stageCells n s = (some l, t)) :
    ∃ ws u, runSnap s start n first count = (some ws, u) ∧ ws.length = count ∧ u.host.snapOn = (start || s.host.snapOn) ∧
      u.host.staging = l ∧ u.host.a = s.host.a ∧ snapNo u = if start then (snapNo s + 1) % 65536 else snapNo s := by
  obtain ⟨host, regs⟩ := stageCells_granted n h
  refine ⟨_, _, by rw [runSnap, h], by rw [List.length_map, List.length_range], ?_, ?_, ?_, ?_⟩
  · exact (snapStart_snapOn _ start).trans (by rw [host])
  · cases start <;> rfl
  · refine Eq.trans ?_ (congrArg HostIf.a host)
    cases start <;> rfl
  · refine (snapStart_snapNo _ start).trans ?_
    rw [show snapNo { t with host := { t.host with staging := l } } = snapNo s from
      State.fld_of_reg (State.reg_of_regs (s := s) (t := { t with host := { t.host with staging := l } }) regs _) 0 16]

end Sys2Proof.Machine
end

section
/-! PROOF. The chain commands (O50): a taken command runs in the accepted state and its reply becomes A; then each command's reply
(R424 to R428). -/
namespace Sys2Proof.Machine

/-! ## A taken command -/

/-- The state that a command of chain word `k` leaves: `r` is the next A, with the word's OP, TAG and SHORT, the A before it P. -/
def answered (k : ChainCmd) (r : Reply) (t : State) : State :=
  { t with host := { t.host with p := t.host.a, a := { r with op := ccOp k.bits, tag := ccTag k.bits, short := k.short }, running := true } }

theorem answered_answers {s t : State} (k : ChainCmd) (r : Reply) (h : t.host.a = s.host.a) : answers s (answered k r t) k r.status r.data :=
  ⟨rfl, h, rfl, rfl, rfl, rfl, rfl⟩

@[simp] theorem answered_regs (k : ChainCmd) (r : Reply) (t : State) : (answered k r t).regs = t.regs := rfl
@[simp] theorem answered_shadow (k : ChainCmd) (r : Reply) (t : State) : (answered k r t).shadow = t.shadow := rfl
@[simp] theorem answered_reg (k : ChainCmd) (r : Reply) (t : State) (b : Nat) : (answered k r t).reg b = t.reg b :=
  State.reg_of_regs (answered_regs k r t) b
@[simp] theorem answered_fld (k : ChainCmd) (r : Reply) (t : State) (b lo wd : Nat) : (answered k r t).fld b lo wd = t.fld b lo wd :=
  State.fld_of_reg (answered_reg k r t b) lo wd
@[simp] theorem answered_bit (k : ChainCmd) (r : Reply) (t : State) (b i : Nat) : (answered k r t).bit b i = t.bit b i :=
  State.bit_of_reg (answered_reg k r t b) i
@[simp] theorem answered_cmd (k : ChainCmd) (r : Reply) (t : State) : (answered k r t).host.cmd = t.host.cmd := rfl
@[simp] theorem answered_snapOn (k : ChainCmd) (r : Reply) (t : State) : (answered k r t).host.snapOn = t.host.snapOn := rfl

@[simp] theorem chainTaken_boot (s : State) (k : ChainCmd) : (s.chainTaken k).boot = s.boot := by
  rw [State.chainTaken, acceptFrame_boot]
@[simp] theorem chainTaken_host (s : State) (k : ChainCmd) :
    (s.chainTaken k).host = { s.host with cmd := none, rej := false, frameTime := s.now } := by
  rw [State.chainTaken, acceptFrame_host]
  rfl

/-- A chain command that is taken runs in the accepted state, and its reply is the next A (R424 to R427). -/
theorem chainCmd_taken {s : State} {k : ChainCmd} {p : BitVec 64 → Bool} (h : chainTakes s k p) (body : BitVec 64 → State → Reply × State)
    (up : (body k.bits (s.chainTaken k)).2.boot.hostUp = true) :
    chainCmd s p body = .next (answered k (body k.bits (s.chainTaken k)).1 (body k.bits (s.chainTaken k)).2) := by
  obtain ⟨waits, isOp, runs, checks⟩ := h
  simp only [chainCmd, waits, isOp, runs, checks, Bool.not_true, Bool.or_self, Bool.false_eq_true, if_false, ne_eq, not_true_eq_false]
  exact if_pos up

/-- So it does where its body leaves state `t` with the port up. -/
theorem chainCmd_runs {s t : State} {k : ChainCmd} {p : BitVec 64 → Bool} {body : BitVec 64 → State → Reply × State} {r : Reply}
    (h : chainTakes s k p) (runs : body k.bits (s.chainTaken k) = (r, t)) (up : t.boot.hostUp = true) :
    chainCmd s p body = .next (answered k r t) := by
  rw [chainCmd_taken h body (by rw [runs]; exact up), runs]

/-- Without a command, or with CORE stopped, nothing runs. -/
theorem chainCmd_idle {s : State} (h : s.host.cmd = none ∨ coreStopped s = true) (p : BitVec 64 → Bool)
    (body : BitVec 64 → State → Reply × State) : chainCmd s p body = .next s := by
  unfold chainCmd
  split
  · rfl
  · next k waits =>
    have stopped : coreStopped s = true := h.resolve_left (by simp [waits])
    exact if_pos (by simp [stopped])
theorem execChainAgain_idle {s : State} (h : s.host.cmd = none ∨ coreStopped s = true) : execChainAgain s = .next s := by
  unfold execChainAgain
  split
  · rfl
  · next k waits =>
    have stopped : coreStopped s = true := h.resolve_left (by simp [waits])
    exact if_pos (by simp [stopped])

/-- A command that fails its check is dropped and counted, with REJ (R425). -/
theorem chainCmd_unchecked {s : State} {k : ChainCmd} {p : BitVec 64 → Bool} (waits : s.host.cmd = some k) (isOp : p k.bits = true)
    (runs : coreStopped s = false) (fails : ccChk k.bits ≠ chainCrc k.bits) (body : BitVec 64 → State → Reply × State) :
    chainCmd s p body = .next (setRej (hostErr { s with host := { s.host with cmd := none } } 3 16 7) true) := by
  simp [chainCmd, waits, isOp, runs, fails]

/-! ## The commands (Table 12-10) -/

/-- What CHAIN_SNAP does in the accepted state. -/
def snapBody (b : BitVec 64) (s : State) : Reply × State :=
  if 3104 ≤ ccAddr b ∨ (!(ccData b).getLsbD 0 && !s.host.snapOn) then ({ status := 8 }, s)
  else match runSnap s ((ccData b).getLsbD 0) 1 (ccAddr b) 1 with
    | (none, t) => ({ status := 9 }, t)
    | (some ws, t) => (okReply ws, t)

theorem exec_chainNop (s : State) : exec .chainNop s = chainCmd s (isOp 0) fun _ s => (okReply [evtSum s], s) := rfl
theorem exec_chainRd (s : State) :
    exec .chainRd s = chainCmd s (isOp 1) fun b s => (okReply [(normalRead s (ccAddr b)).1], (normalRead s (ccAddr b)).2) := rfl
theorem exec_chainWr (s : State) :
    exec .chainWr s = chainCmd s (isOp 2) fun b s => (okReply [], writeWord s (ccAddr b) (ccData b) 0xFFFFFFFF#32) := rfl
theorem exec_chainRmwSet (s : State) : exec .chainRmwSet s = chainCmd s (isOp 3) fun b s =>
    (okReply [(rmwWord s (ccAddr b) (ccData b) 0xFFFFFFFF#32).1], (rmwWord s (ccAddr b) (ccData b) 0xFFFFFFFF#32).2) := rfl
theorem exec_chainRmwClr (s : State) : exec .chainRmwClr s = chainCmd s (isOp 4) fun b s =>
    (okReply [(rmwWord s (ccAddr b) (ccData b) 0#32).1], (rmwWord s (ccAddr b) (ccData b) 0#32).2) := rfl
theorem exec_chainSnap (s : State) : exec .chainSnap s = chainCmd s (fun b => isOp 5 b && !chainIllegal b) snapBody := rfl
theorem exec_chainAgain (s : State) : exec .chainAgain s = execChainAgain s := rfl
theorem exec_hostIllegal_chain {s : State} (closed : framedOpen s = false) (f : HostFrame) :
    exec (.hostIllegal f) s = chainCmd s chainIllegal fun _ s => illegalReply s := if_neg (by simp [closed])

section
variable {s : State} {k : ChainCmd} (up : s.boot.hostUp = true)
include up

theorem chainNop_runs (h : chainTakes s k (isOp 0)) : exec .chainNop s = .next (answered k (okReply [evtSum s]) (s.chainTaken k)) := by
  have sum : evtSum (s.chainTaken k) = evtSum s := evtSum_congr (fun b h0 h8 => reg_acceptFrame_other _ _ h0 h8) (acceptFrame_chip _ _)
  rw [exec_chainNop, chainCmd_runs h rfl (by rwa [chainTaken_boot]), sum]

theorem chainRd_runs (h : chainTakes s k (isOp 1)) : exec .chainRd s =
    .next (answered k (okReply [viewWord (s.chainTaken k) (ccAddr k.bits)]) (normalRead (s.chainTaken k) (ccAddr k.bits)).2) := by
  rw [exec_chainRd, chainCmd_runs h rfl (by rwa [normalRead_boot, chainTaken_boot])]
  rfl

theorem chainIllegal_runs (h : chainTakes s k chainIllegal) (closed : framedOpen s = false) (f : HostFrame) :
    exec (.hostIllegal f) s = .next (answered k { status := 2 } (hostErr (s.chainTaken k) 3 0 6)) := by
  rw [exec_hostIllegal_chain closed, chainCmd_runs h rfl]
  rwa [State.boot_of_stage (hostErr_stage _ _ _ _), chainTaken_boot]

section
variable (hs : accMask .w1s (ccAddr k.bits) = 0#32) (hr : ccAddr k.bits < 0xC000) (hm : ccAddr k.bits < 0x20 ∨ 0x26 ≤ ccAddr k.bits)
include hs hr hm

theorem chainWr_runs (h : chainTakes s k (isOp 2)) :
    exec .chainWr s = .next (answered k (okReply []) (writeRW (s.chainTaken k) (ccAddr k.bits) (ccData k.bits) 0xFFFFFFFF#32)) := by
  rw [exec_chainWr, chainCmd_runs h rfl]
  · rw [writeWord_of_no_strobe hs hm hr]
  · rwa [writeWord_of_no_strobe hs hm hr, writeRW_boot, chainTaken_boot]

/-- The bits of DATA set in the old value (Table 12-10). -/
theorem chainRmwSet_runs (h : chainTakes s k (isOp 3)) : exec .chainRmwSet s =
    .next (answered k (okReply [rmwOld (s.chainTaken k) (ccAddr k.bits)]) (writeRW (normalRead (s.chainTaken k) (ccAddr k.bits)).2 (ccAddr k.bits)
      (rmwOld (s.chainTaken k) (ccAddr k.bits) ||| ccData k.bits) (ccData k.bits))) := by
  have merged (old w : Word) : (old &&& ~~~w) ||| (0xFFFFFFFF#32 &&& w) = old ||| w := by
    rw [show (0xFFFFFFFF#32 : Word) = BitVec.allOnes 32 from rfl, BitVec.allOnes_and]
    ext i hi
    simp only [BitVec.getElem_or, BitVec.getElem_and, BitVec.getElem_not]
    cases w[i] <;> simp
  rw [exec_chainRmwSet, chainCmd_runs h rfl]
  · rw [rmwWord_of_no_strobe hs hr hm, merged]
  · rwa [rmwWord_of_no_strobe hs hr hm, writeRW_boot, normalRead_boot, chainTaken_boot]

/-- The bits of DATA cleared in the old value (Table 12-10). -/
theorem chainRmwClr_runs (h : chainTakes s k (isOp 4)) : exec .chainRmwClr s =
    .next (answered k (okReply [rmwOld (s.chainTaken k) (ccAddr k.bits)]) (writeRW (normalRead (s.chainTaken k) (ccAddr k.bits)).2 (ccAddr k.bits)
      (rmwOld (s.chainTaken k) (ccAddr k.bits) &&& ~~~ccData k.bits) (ccData k.bits))) := by
  rw [exec_chainRmwClr, chainCmd_runs h rfl]
  · rw [rmwWord_of_no_strobe hs hr hm, BitVec.zero_and, BitVec.or_zero]
  · rwa [rmwWord_of_no_strobe hs hr hm, writeRW_boot, normalRead_boot, chainTaken_boot]

end

/-- A SNAP past the snapshot's last word, or with no snapshot begun and no START, is answered BADCHUNK. -/
theorem chainSnap_badChunk (h : chainTakes s k fun b => isOp 5 b && !chainIllegal b)
    (bad : 3104 ≤ ccAddr k.bits ∨ (ccData k.bits).getLsbD 0 = false ∧ s.host.snapOn = false) :
    exec .chainSnap s = .next (answered k { status := 8 } (s.chainTaken k)) := by
  rw [exec_chainSnap, chainCmd_runs h (if_pos (by simpa using bad)) (by rwa [chainTaken_boot])]

/-- Any other whose staging cell is granted replies with one word of the snapshot (R426). -/
theorem chainSnap_granted (h : chainTakes s k fun b => isOp 5 b && !chainIllegal b) (last : ccAddr k.bits < 3104)
    (begun : (ccData k.bits).getLsbD 0 = true ∨ s.host.snapOn = true) {l : List Nat} (cells : (stageCells 1 (s.chainTaken k)).1 = some l) :
    ∃ v t, exec .chainSnap s = .next (answered k (okReply [v]) t) ∧ t.host.snapOn = true ∧ t.host.a = s.host.a ∧
      snapNo t = if (ccData k.bits).getLsbD 0 then (snapNo (s.chainTaken k) + 1) % 65536 else snapNo (s.chainTaken k) := by
  obtain ⟨ws, t, run, length, on, -, a, no⟩ := runSnap_granted ((ccData k.bits).getLsbD 0) (ccAddr k.bits) 1
    (Prod.ext cells rfl : stageCells 1 (s.chainTaken k) = (some l, (stageCells 1 (s.chainTaken k)).2))
  obtain ⟨v, rfl⟩ := List.length_eq_one_iff.1 length
  have chunk : ¬ (3104 ≤ ccAddr k.bits ∨ (!(ccData k.bits).getLsbD 0 && !(s.chainTaken k).host.snapOn) = true) := by
    rcases begun with h | h <;> simp [h, last]
  have body : snapBody k.bits (s.chainTaken k) = (okReply [v], t) := by rw [snapBody, if_neg chunk, run]
  have boot : t.boot = s.boot := by
    have stage := runSnap_stage (s.chainTaken k) ((ccData k.bits).getLsbD 0) 1 (ccAddr k.bits) 1
    rw [run] at stage
    exact (State.boot_of_stage stage).trans (chainTaken_boot s k)
  refine ⟨v, t, ?_, ?_, a.trans (by rw [chainTaken_host]), no⟩
  · rw [exec_chainSnap, chainCmd_runs h body (by rwa [boot])]
  · rw [on]
    simpa using begun

end

/-- AGAIN executes nothing: the next status repeats the one sent before (R428). -/
theorem chainAgain_runs {s : State} {k : ChainCmd} (h : chainTakes s k (isOp 6)) :
    exec .chainAgain s = .next { s with host := { s.host with cmd := none, again := some k.before } } := by
  obtain ⟨waits, again, runs, checks⟩ := h
  simp [exec_chainAgain, execChainAgain, waits, again, runs, checks]

/-! ## The obligation -/

/-- Settles O50: a command that waits and checks runs in the accepted state, and its reply, that of the read, write or snapshot behind it,
is the next A (`answered_answers`). The staging cell of a SNAP is the model's reading (log entry 34). -/
theorem hostChain : Obligations.HostChain := by
  unfold Obligations.HostChain
  intro s k f cells u a w start plain inc
  have counts (b : Nat) (h0 : b ≠ 0x400) (h8 : b ≠ 0x408) : u.reg b = s.reg b := reg_acceptFrame_other _ _ h0 h8
  have hostA : u.host.a = s.host.a := by rw [chainTaken_host]
  refine ⟨fun idle => ?idle, fun takes up => ?nop, fun takes up => ?rd, fun takes ⟨hs, hr, hm, up⟩ => ?wr, fun takes ⟨hs, hr, hm, up⟩ => ?set,
    fun takes ⟨hs, hr, hm, up⟩ => ?clear, fun ⟨waits, op, runs, checks⟩ legal up => ?snap, fun takes up closed => ?illegal, chainAgain_runs,
    fun waits op runs fails => ?fails⟩
  case idle =>
    simp [exec_chainNop, exec_chainRd, exec_chainWr, exec_chainRmwSet, exec_chainRmwClr, exec_chainSnap, exec_chainAgain,
      chainCmd_idle idle, execChainAgain_idle idle]
  case nop =>
    refine ⟨_, chainNop_runs up takes, answered_answers k _ hostA, by simp, ?_, fun b h0 h8 => ?_⟩
    · rw [answered_reg]
      exact reg_acceptFrame_count _ _
    · rw [answered_reg]
      exact counts b h0 h8
  case rd => exact ⟨_, chainRd_runs up takes, answered_answers k _ (by rw [normalRead_host, chainTaken_host]), answered_regs _ _ _⟩
  case wr =>
    exact ⟨_, chainWr_runs up hs hr hm takes, answered_answers k _ (by rw [writeRW_host, chainTaken_host]), answered_regs _ _ _,
      answered_shadow _ _ _⟩
  case set =>
    exact ⟨_, chainRmwSet_runs up hs hr hm takes, answered_answers k _ (by rw [writeRW_host, normalRead_host, chainTaken_host]),
      answered_shadow _ _ _⟩
  case clear =>
    exact ⟨_, chainRmwClr_runs up hs hr hm takes, answered_answers k _ (by rw [writeRW_host, normalRead_host, chainTaken_host]),
      answered_shadow _ _ _⟩
  case snap =>
    have takes : chainTakes s k fun b => isOp 5 b && !chainIllegal b := ⟨waits, by simp [op, legal], runs, checks⟩
    refine ⟨fun bad => ⟨_, chainSnap_badChunk up takes bad, answered_answers k _ hostA⟩, fun last begun granted => ?_⟩
    obtain ⟨v, t, run, on, ha, no⟩ := chainSnap_granted up takes last begun granted
    refine ⟨_, v, run, answered_answers k _ ha, by rw [answered_snapOn, on], ?_⟩
    have before : snapNo u = snapNo s := State.fld_of_reg (counts 0x40A (by decide) (by decide)) 0 16
    rw [snapNo, answered_fld]
    exact no.trans (by rw [before])
  case illegal =>
    obtain ⟨counted, event⟩ := hostErr_counts u (k := 3) (lo := 0) (b := 6) (by decide) (by decide)
    refine ⟨_, chainIllegal_runs up takes closed f, answered_answers k _ hostA, ?_, by rw [answered_bit]; exact event⟩
    have before : u.fld 0x407 0 16 = s.fld 0x407 0 16 := State.fld_of_reg (counts 0x407 (by decide) (by decide)) 0 16
    exact (answered_fld _ _ _ _ _ _).trans (counted.trans (by rw [before]))
  case fails =>
    have isWr : isOp 2 k.bits = true := by simp [isOp, op]
    obtain ⟨counted, event⟩ := hostErr_counts { s with host := { s.host with cmd := none } } (k := 3) (lo := 16) (b := 7) (by decide) (by decide)
    exact ⟨_, (exec_chainWr s).trans (chainCmd_unchecked waits isWr runs fails _), rfl, rfl, rfl, counted, event⟩

end Sys2Proof.Machine
end

section
/-! PROOF. The frames of the host port (O48): how a host phase is judged, and what the command of an accepted frame replies (R397 to R411). -/
namespace Sys2Proof.Machine

/-! ## A frame that is judged (R400, R431) -/

/-- The state in which a whole host phase has been judged: nothing goes out yet, and the hand-back timer has restarted (R71). -/
def State.judging (s : State) : State := restartHandback { s with host := { s.host with judged := true, out := [] } }

@[simp] theorem judging_host (s : State) : s.judging.host = { s.host with judged := true, out := [] } := rfl
@[simp] theorem judging_regs (s : State) : s.judging.regs = s.regs := rfl
@[simp] theorem judging_boot (s : State) : s.judging.boot = s.boot := rfl
@[simp] theorem judging_power (s : State) : s.judging.power = s.power := rfl
@[simp] theorem judging_chip (s : State) : s.judging.chip = s.chip := rfl
@[simp] theorem judging_reg (s : State) (b : Nat) : s.judging.reg b = s.reg b := State.reg_of_regs (judging_regs s) b

/-- The level of HIRQ_N, and so a device phase, shows no more of a state than its registers, progress, power state and REJ (R164, R398). -/
theorem hirq_congr {s t : State} (regs : t.regs = s.regs) (boot : t.boot = s.boot) (power : t.power = s.power) (chip : t.chip = s.chip)
    (held : t.host.irqHeld = s.host.irqHeld) : hirq t = hirq s := by
  have reg := State.reg_of_regs regs
  rw [hirq, hirq, boot, power, held, reg, hostMode, hostMode, State.fld_of_reg (reg _), evtSum_congr (fun b _ _ => reg b) chip]
@[simp] theorem phaseOf_judging (s : State) (r : Reply) (again : Bool) : phaseOf s.judging r again = phaseOf s r again := by
  rw [phaseOf, phaseOf, hirq_congr (judging_regs s) (judging_boot s) (judging_power s) (judging_chip s) rfl, judging_host]

theorem takenBy_eq (s : State) (f : HostFrame) : s.takenBy f =
    acceptFrame { s.judging with host := { s.judging.host with out := phaseOf s s.host.a false } } (fTag f) := by
  rw [← phaseOf_judging s s.host.a false]
  rfl
@[simp] theorem takenBy_host (s : State) (f : HostFrame) : (s.takenBy f).host =
    { s.host with judged := true, out := phaseOf s s.host.a false, rej := false, frameTime := s.now } := by
  rw [takenBy_eq, acceptFrame_host]
  rfl
@[simp] theorem takenBy_boot (s : State) (f : HostFrame) : (s.takenBy f).boot = s.boot := by rw [takenBy_eq, acceptFrame_boot]; rfl
@[simp] theorem takenBy_chip (s : State) (f : HostFrame) : (s.takenBy f).chip = s.chip := by rw [takenBy_eq, acceptFrame_chip]; rfl
theorem reg_takenBy_other (s : State) (f : HostFrame) {b : Nat} (h0 : b ≠ 0x400) (h8 : b ≠ 0x408) : (s.takenBy f).reg b = s.reg b := by
  rw [takenBy_eq, reg_acceptFrame_other _ _ h0 h8]
  exact judging_reg s b

/-- What an accepted frame leaves before its command runs: A on its way out, the frame counted, its tag kept, REJ clear. -/
theorem takenBy_lands (s : State) (f : HostFrame) :
    s.takenBy f = { s with regs := (s.takenBy f).regs, strap := (s.takenBy f).strap, host := (s.takenBy f).host } ∧
    (s.takenBy f).fld 0x400 8 8 = fTag f ∧ (s.takenBy f).reg 0x408 = s.reg 0x408 + 1#32 := by
  refine ⟨rfl, ?_, ?_⟩
  · rw [takenBy_eq, fld_acceptFrame_tag _ (tag := fTag f) (getF_lt _ _ _)]
  · rw [takenBy_eq, reg_acceptFrame_count]
    exact congrArg (· + 1#32) (judging_reg s 0x408)

/-! ## The command of an accepted frame (R399 to R401) -/

/-- What a taken frame is: whole, legal, checked, of the command's OP, without AGAIN, the port open and ready. -/
theorem hostTakes_iff {s : State} {f : HostFrame} {op : Nat} : hostTakes s f op = true ↔
    framedOpen s = true ∧ wholeFrame f = true ∧ fAgain f = false ∧ fOp f = op ∧ frameLegal f = true ∧ crcOk f = true ∧
      notReadyNow s = false := by
  simp [hostTakes, and_assoc]

/-- The state that a command's body leaves, with its reply kept until the select rises. -/
def kept (f : HostFrame) (r : Reply) (t : State) : State :=
  { t with host := { t.host with next := some { r with op := fOp f, tag := fTag f }, running := true } }

theorem kept_replies (f : HostFrame) (r : Reply) (t : State) : replies (kept f r t) f r.status r.data := ⟨rfl, _, rfl, rfl, rfl, rfl, rfl⟩
@[simp] theorem kept_regs (f : HostFrame) (r : Reply) (t : State) : (kept f r t).regs = t.regs := rfl
@[simp] theorem kept_shadow (f : HostFrame) (r : Reply) (t : State) : (kept f r t).shadow = t.shadow := rfl
@[simp] theorem kept_mbx (f : HostFrame) (r : Reply) (t : State) : (kept f r t).mbx = t.mbx := rfl
@[simp] theorem kept_tim (f : HostFrame) (r : Reply) (t : State) : (kept f r t).tim = t.tim := rfl
@[simp] theorem kept_reg (f : HostFrame) (r : Reply) (t : State) (b : Nat) : (kept f r t).reg b = t.reg b :=
  State.reg_of_regs (kept_regs f r t) b
@[simp] theorem kept_fld (f : HostFrame) (r : Reply) (t : State) (b lo wd : Nat) : (kept f r t).fld b lo wd = t.fld b lo wd :=
  State.fld_of_reg (kept_reg f r t b) lo wd
@[simp] theorem kept_bit (f : HostFrame) (r : Reply) (t : State) (b i : Nat) : (kept f r t).bit b i = t.bit b i :=
  State.bit_of_reg (kept_reg f r t b) i

theorem notReadyNow_judging (s : State) : notReadyNow s.judging = notReadyNow s := rfl

/-- A good host phase that asks for no repeat and finds the port ready runs its command in the accepted state. -/
theorem framed_runs {s : State} {f : HostFrame} (checks : crcOk f = true) (once : fAgain f = false) (ready : notReadyNow s = false)
    (body : State → Reply × State) : framed s f body =
      keepReply { (body (s.takenBy f)).1 with op := fOp f, tag := fTag f } (body (s.takenBy f)).2 := by
  unfold framed
  simp only [checks, once, Bool.not_true, Bool.false_eq_true, if_false]
  exact if_neg (Bool.eq_false_iff.1 ((notReadyNow_judging s).trans ready))

theorem keepReply_up {t : State} (up : t.boot.hostUp = true) (f : HostFrame) (r : Reply) :
    keepReply { r with op := fOp f, tag := fTag f } t = kept f r t := if_pos up
theorem keepReply_down {t : State} (down : t.boot.hostUp = false) (r : Reply) : keepReply r t = t := if_neg (by simp [down])

section
variable {s t : State} {f : HostFrame} {op : Nat} (h : hostTakes s f op = true) {body : State → Reply × State} {r : Reply}
  (runs : body (s.takenBy f) = (r, t))
include h runs

theorem hostCmd_taken : hostCmd op f s body = .next (keepReply { r with op := fOp f, tag := fTag f } t) := by
  obtain ⟨opened, whole, once, isOp, legal, checks, ready⟩ := hostTakes_iff.1 h
  rw [hostCmd, if_pos (by simp [opened, whole, once, isOp, legal]), framed_runs checks once ready, runs]
/-- The reply of a taken command is kept where the port is still up after it. -/
theorem hostCmd_replies (up : t.boot.hostUp = true) : hostCmd op f s body = .next (kept f r t) := by
  rw [hostCmd_taken h runs, keepReply_up up]
/-- After a reset that the command caused nothing is kept (R430). -/
theorem hostCmd_resets (down : t.boot.hostUp = false) : hostCmd op f s body = .next t := by
  rw [hostCmd_taken h runs, keepReply_down down]

end

theorem hostUp_of_takes {s : State} {f : HostFrame} {op : Nat} (h : hostTakes s f op = true) : s.boot.hostUp = true := by
  obtain ⟨opened, -⟩ := hostTakes_iff.1 h
  simp only [framedOpen, Bool.and_eq_true] at opened
  exact opened.1.1.1.1.1

/-- A port that takes no frame runs none. -/
theorem hostCmd_closed {s : State} (closed : framedOpen s = false) (op : Nat) (f : HostFrame) (body : State → Reply × State) :
    hostCmd op f s body = .next s := if_neg (by simp [closed])

/-! ## A frame that runs nothing (R399 to R403) -/

/-- AGAIN sends P once more (R400). -/
theorem framed_again {s : State} {f : HostFrame} (checks : crcOk f = true) (again : fAgain f = true) (body : State → Reply × State) :
    framed s f body = { s.judging with host := { s.judging.host with out := phaseOf s s.host.p true } } := by
  rw [← phaseOf_judging s s.host.p true]
  unfold framed
  simp only [checks, again, Bool.not_true, Bool.false_eq_true, if_false, if_true]
  rfl

/-- A frame that is no PUSH loses no cell where it is refused. -/
theorem lostPush_of_not_push {f : HostFrame} (h : fOp f ≠ 5) (s : State) : lostPush s f.h0 f.h1 = s := by
  have push : getF f.h0 28 4 ≠ 5 := h
  exact if_pos (by simp [push])

/-- A frame that finds a command running sends NOTREADY, which is counted, with REJ (R401). -/
theorem framed_notReady {s : State} {f : HostFrame} (checks : crcOk f = true) (once : fAgain f = false) (busy : notReadyNow s = true)
    (plain : fOp f ≠ 5) (body : State → Reply × State) : framed s f body = setRej (hostErr { s.judging with host :=
      { s.judging.host with out := phaseOf s { op := s.host.a.op, tag := s.host.a.tag, status := 1 } false } } 2 16 5) true := by
  rw [← phaseOf_judging s]
  unfold framed
  simp only [checks, once, Bool.not_true, Bool.false_eq_true, if_false]
  exact (if_pos ((notReadyNow_judging s).trans busy)).trans (lostPush_of_not_push plain _)

/-- A frame whose CRC fails drives nothing and is counted, with REJ (R399). -/
theorem framed_unchecked {s : State} {f : HostFrame} (fails : crcOk f = false) (once : fAgain f = false) (plain : fOp f ≠ 5)
    (body : State → Reply × State) :
    framed s f body = setRej (hostErr { s with host := { s.host with judged := true, out := [] } } 0 0 0) true := by
  unfold framed
  simp only [fails, once, Bool.not_false, if_true]
  exact lostPush_of_not_push plain _

end Sys2Proof.Machine
end

section
/-! PROOF. RD, WR, RMW and MBX over the framed port (O48; R408 to R411). -/
namespace Sys2Proof.Machine

/-! ## Words read and written in order (R408, R409) -/

theorem readWords_length (s : State) (l : List Nat) : (readWords s l).1.length = l.length := by
  induction l generalizing s with
  | nil => rfl
  | cons a l ih => exact congrArg (· + 1) (ih _)

theorem wordAddrs_length (f : HostFrame) (n : Nat) : (wordAddrs f n).length = n := by simp [wordAddrs]
/-- One word is the one that H1 names. -/
theorem wordAddrs_one (f : HostFrame) : wordAddrs f 1 = [getF f.h1 0 16] := by
  have lt : getF f.h1 0 16 < 65536 := getF_lt _ _ _
  have first : (getF f.h1 0 16 + if fInc f then 0 else 0) % 65536 = getF f.h1 0 16 := by
    rw [ite_self, Nat.add_zero, Nat.mod_eq_of_lt lt]
  exact congrArg (fun a => [a]) first

/-- A write of one word is that word's, whether or not a reset follows. -/
theorem writeWords_one (s : State) (a : Nat) (w : Word) : writeWords s [(a, w)] = writeWord s a w 0xFFFFFFFF#32 := ite_self _

/-- A whole WR frame of one word has one data word. -/
theorem wholeFrame_wr {f : HostFrame} (whole : wholeFrame f = true) (isWr : fOp f = 2) (one : fN f = 1) :
    f.data = [(f.data[0]?).getD 0#32] := by
  have op : getF f.h0 28 4 = 2 := isWr
  have due : wordsDue f.h0 f.h1 = 1 := by
    rw [wordsDue, op]
    exact one
  have length : f.data.length = 1 := by
    rw [← due]
    simpa [wholeFrame] using whole
  obtain ⟨w, eq⟩ := List.length_eq_one_iff.1 length
  rw [eq]
  rfl

/-! ## RD, WR, RMW -/

theorem exec_hostRd (f : HostFrame) (s : State) : exec (.hostRd f) s =
    hostCmd 1 f s fun s => (okReply (readWords s (wordAddrs f (fN f))).1, (readWords s (wordAddrs f (fN f))).2) := rfl
theorem exec_hostWr (f : HostFrame) (s : State) :
    exec (.hostWr f) s = hostCmd 2 f s fun s => (okReply [], writeWords s ((wordAddrs f (fN f)).zip f.data)) := rfl
theorem exec_hostRmw (f : HostFrame) (s : State) : exec (.hostRmw f) s = hostCmd 3 f s fun s =>
    (okReply [(rmwWord s (getF f.h1 0 16) ((f.data[0]?).getD 0#32) ((f.data[1]?).getD 0#32)).1],
      (rmwWord s (getF f.h1 0 16) ((f.data[0]?).getD 0#32) ((f.data[1]?).getD 0#32)).2) := rfl

section
variable {s : State} {f : HostFrame}

theorem hostRd_runs (h : hostTakes s f 1 = true) : exec (.hostRd f) s =
    .next (kept f (okReply (readWords (s.takenBy f) (wordAddrs f (fN f))).1) (readWords (s.takenBy f) (wordAddrs f (fN f))).2) := by
  refine (exec_hostRd f s).trans (hostCmd_replies h rfl ?_)
  rw [State.boot_of_stage (readWords_stage _ _), takenBy_boot, hostUp_of_takes h]

/-- RD of one word replies with it, and clears the RC bits that it read (R408). -/
theorem hostRd_runs_one (h : hostTakes s f 1 = true) (one : fN f = 1) : exec (.hostRd f) s =
    .next (kept f (okReply [viewWord (s.takenBy f) (getF f.h1 0 16)]) (normalRead (s.takenBy f) (getF f.h1 0 16)).2) := by
  rw [hostRd_runs h, one, wordAddrs_one]
  rfl

/-- WR of one word writes it (R409). -/
theorem hostWr_body (h : hostTakes s f 2 = true) (one : fN f = 1) :
    (okReply [], writeWords (s.takenBy f) ((wordAddrs f (fN f)).zip f.data)) =
      (okReply [], writeWord (s.takenBy f) (getF f.h1 0 16) ((f.data[0]?).getD 0#32) 0xFFFFFFFF#32) := by
  obtain ⟨-, whole, -, isWr, -⟩ := hostTakes_iff.1 h
  rw [one, wordAddrs_one, wholeFrame_wr whole isWr one]
  exact congrArg (Prod.mk _) (writeWords_one _ _ _)
theorem hostWr_runs (h : hostTakes s f 2 = true) (one : fN f = 1)
    (up : (writeWord (s.takenBy f) (getF f.h1 0 16) ((f.data[0]?).getD 0#32) 0xFFFFFFFF#32).boot.hostUp = true) : exec (.hostWr f) s =
      .next (kept f (okReply []) (writeWord (s.takenBy f) (getF f.h1 0 16) ((f.data[0]?).getD 0#32) 0xFFFFFFFF#32)) :=
  (exec_hostWr f s).trans (hostCmd_replies h (hostWr_body h one) up)
/-- A reset that the write caused leaves no reply (R430). -/
theorem hostWr_resets (h : hostTakes s f 2 = true) (one : fN f = 1)
    (down : (writeWord (s.takenBy f) (getF f.h1 0 16) ((f.data[0]?).getD 0#32) 0xFFFFFFFF#32).boot.hostUp = false) :
    exec (.hostWr f) s = .next (writeWord (s.takenBy f) (getF f.h1 0 16) ((f.data[0]?).getD 0#32) 0xFFFFFFFF#32) :=
  (exec_hostWr f s).trans (hostCmd_resets h (hostWr_body h one) down)

/-- RMW replies with the old value and writes the merged one (R138, R410). -/
theorem hostRmw_runs (h : hostTakes s f 3 = true) (hs : accMask .w1s (getF f.h1 0 16) = 0#32) (hr : getF f.h1 0 16 < 0xC000)
    (hm : getF f.h1 0 16 < 0x20 ∨ 0x26 ≤ getF f.h1 0 16) : exec (.hostRmw f) s =
      .next (kept f (okReply [rmwOld (s.takenBy f) (getF f.h1 0 16)]) (writeRW (normalRead (s.takenBy f) (getF f.h1 0 16)).2 (getF f.h1 0 16)
        ((rmwOld (s.takenBy f) (getF f.h1 0 16) &&& ~~~(f.data[0]?).getD 0#32) ||| ((f.data[1]?).getD 0#32 &&& (f.data[0]?).getD 0#32))
        ((f.data[0]?).getD 0#32))) := by
  refine (exec_hostRmw f s).trans (hostCmd_replies h (by rw [rmwWord_of_no_strobe hs hr hm]) ?_)
  rw [writeRW_boot, normalRead_boot, takenBy_boot, hostUp_of_takes h]

end

/-! ## The mailbox by its words (R159, R161) -/

/-- A write of MBX_SEL, of a data word, and of the WRITE strobe is the mailbox's own command over the written word. -/
theorem writeWord_mbxSel (s : State) {a : Nat} (h : a < 2 ^ 16) : writeWord s 0x20 (BitVec.ofNat 32 a) 0xFFFFFFFF#32 =
    doMbxSelect (writeRW s 0x20 (BitVec.ofNat 32 a) 0xFFFFFFFF#32) a := by
  have sel : getF (BitVec.ofNat 32 a) 0 16 = a := by
    rw [getF, BitVec.toNat_ofNat]
    omega
  have strobed (t : State) (w : Word) : strobes t 0x20 w 0xFFFFFFFF#32 = doMbxSelect t (getF w 0 16) := rfl
  rw [writeWord, strobed, sel]
theorem writeWord_mbxData (s : State) {i : Nat} (hi : i < 4) (w : Word) :
    writeWord s (0x22 + i) w 0xFFFFFFFF#32 = doMbxData (writeRW s (0x22 + i) w 0xFFFFFFFF#32) i w := by
  match i with
  | 0 | 1 | 2 | 3 => rfl
theorem writeWord_mbxWrite (s : State) : writeWord s 0x21 0x100#32 0xFFFFFFFF#32 = doMbxWrite (landed s 0x21 0x100#32 0xFFFFFFFF#32) := by
  rw [writeWord, (writeRW_of_no_field (a := 0x21) rfl (by decide) _ _).1]
  rfl

/-- A word below 0x26 belongs to no port. -/
theorem absentPort_low (s : State) {a : Nat} (h : a < 0x26) : absentPort s a = false := by
  simp only [absentPort, Bool.and_eq_false_iff, decide_eq_false_iff_not]
  omega

/-- From `s` to `t` nothing changes by which an item is named or takes a WRITE, and the port stays up or down. -/
structure SameItems (s t : State) : Prop where
  boot : t.boot = s.boot
  chip : t.chip = s.chip
  ctxs : t.ctxs = s.ctxs
  canA : t.canA = s.canA
  canB : t.canB = s.canB
  words : ∀ b, 0x5000 ≤ b → noObjStat b → t.reg b = s.reg b

namespace SameItems
variable {s t u : State}

theorem trans (h : SameItems s t) (k : SameItems t u) : SameItems s u :=
  ⟨k.boot.trans h.boot, k.chip.trans h.chip, k.ctxs.trans h.ctxs, k.canA.trans h.canA, k.canB.trans h.canB,
    fun b hb hs => (k.words b hb hs).trans (h.words b hb hs)⟩
theorem of_regStep {kept : Nat → Prop} (h : RegStep kept s t) (sub : ∀ b, 0x5000 ≤ b → noObjStat b → kept b) : SameItems s t := by
  refine ⟨?_, ?_, ?_, ?_, ?_, fun b hb hs => h.words b (sub b hb hs)⟩ <;> rw [h.frame]

theorem names (h : SameItems s t) (sel : Nat) : mbxNames t sel = mbxNames s sel := by
  simp only [mbxNames, present, h.chip]
theorem ro (h : SameItems s t) (sel : Nat) : mbxRo t sel = mbxRo s sel := by
  have cfg (ch i lo wd : Nat) : oCfg t ch i lo wd = oCfg s ch i lo wd :=
    State.fld_of_reg (h.words _ (by unfold oAddr; omega) (by unfold noObjStat oAddr; omega)) lo wd
  have obj (ch i : Nat) : t.obj ch i = s.obj ch i := by rw [State.obj, State.obj, State.can, State.can, h.canA, h.canB]
  simp only [mbxRo, State.ctx, h.ctxs, oOn, oTx, oCircKind, cfg, obj]

end SameItems

/-- An accepted frame, a write of a low word and each command of the mailbox leave the items as they are. -/
theorem takenBy_items (s : State) (f : HostFrame) : SameItems s (s.takenBy f) :=
  ⟨takenBy_boot s f, takenBy_chip s f, rfl, rfl, rfl, fun b hb _ => reg_takenBy_other s f (by omega) (by omega)⟩
theorem writeRW_items (s : State) {a : Nat} (h : a < 0x26) (w mask : Word) : SameItems s (writeRW s a w mask) := by
  obtain ⟨r, sh, m, frame⟩ := writeRW_frame s a w mask
  have words (b : Nat) (hb : 0x5000 ≤ b) : (writeRW s a w mask).reg b = s.reg b := by
    rw [writeRW_reg (absentPort_low s h) w mask (by omega) (by omega), if_neg (by omega)]
  refine ⟨?_, ?_, ?_, ?_, ?_, fun b hb _ => words b hb⟩ <;> rw [frame]
theorem doMbxSelect_items (s : State) (sel : Nat) : SameItems s (doMbxSelect s sel) := by
  obtain ⟨u, step, eq⟩ := doMbxSelect_step s sel
  have same : SameItems s u := .of_regStep step fun b hb _ => by
    simp only [noSelect, List.mem_cons, List.not_mem_nil, or_false, not_or]
    omega
  rw [eq]
  exact ⟨same.boot, same.chip, same.ctxs, same.canA, same.canB, same.words⟩
theorem doMbxCapture_items {s : State} (h : s.mbx.capturing = true) : SameItems s (doMbxCapture s) := by
  obtain ⟨u, step, eq⟩ := doMbxCapture_step h
  have same : SameItems s u := .of_regStep step fun b hb hs => ⟨by omega, hs⟩
  rw [eq]
  exact ⟨same.boot, same.chip, same.ctxs, same.canA, same.canB, same.words⟩

/-! ## MBX over the framed port (R411) -/

/-- The mailbox once MBX_SEL is written and the capture has landed. -/
def mbxCaptured (s : State) (a : Nat) : State := doMbxCapture (doMbxSelect (writeRW s 0x20 (BitVec.ofNat 32 a) 0xFFFFFFFF#32) a)

theorem doMbxSelect_capturing (s : State) (sel : Nat) : (doMbxSelect s sel).mbx.capturing = true := by
  obtain ⟨u, -, eq⟩ := doMbxSelect_step s sel
  rw [eq]
theorem mbxCaptured_items (s : State) (a : Nat) : SameItems s (mbxCaptured s a) :=
  ((writeRW_items s (by decide) _ _).trans (doMbxSelect_items _ a)).trans (doMbxCapture_items (doMbxSelect_capturing _ a))
theorem mbxCaptured_valid (s : State) (a : Nat) : (mbxCaptured s a).bit 0x21 0 = true := doMbxCapture_valid (doMbxSelect_capturing _ a)
theorem mbxCaptured_done (s : State) (a : Nat) : (mbxCaptured s a).mbx.capturing = false := by
  obtain ⟨u, -, eq⟩ := doMbxCapture_step (doMbxSelect_capturing (writeRW s 0x20 (BitVec.ofNat 32 a) 0xFFFFFFFF#32) a)
  rw [mbxCaptured, eq]
theorem mbxCaptured_sel {s : State} {a : Nat} (lt : a < 2 ^ 16) (h : mbxNames s a = true) : (mbxCaptured s a).fld 0x20 0 16 = a := by
  have named := (writeRW_items s (by decide : 0x20 < 0x26) (BitVec.ofNat 32 a) 0xFFFFFFFF#32).names a
  obtain ⟨u, step, eq⟩ := doMbxCapture_step (doMbxSelect_capturing (writeRW s 0x20 (BitVec.ofNat 32 a) 0xFFFFFFFF#32) a)
  have sel : (mbxCaptured s a).reg 0x20 = (doMbxSelect (writeRW s 0x20 (BitVec.ofNat 32 a) 0xFFFFFFFF#32) a).reg 0x20 := by
    rw [← step.words 0x20 (by simp [noCapture, noObjStat]), mbxCaptured, eq]
    exact State.reg_of_regs rfl _
  rw [State.fld_of_reg sel, doMbxSelect_sel_named (.inr (named.trans h)) lt]

/-- The four data words written one after another. -/
def mbxFilled (s : State) (d : Nat → Word) : State := forEach 4 (fun s i => writeWord s (0x22 + i) (d i) 0xFFFFFFFF#32) s

/-- A data word written lands in its word; no word changes beside but GLB_EVT, GLB_LASTCLAMP and MBX_CTL. -/
theorem reg_writeWord_mbxData (s : State) {i : Nat} (hi : i < 4) (w : Word) {b : Nat} (hb : b ≠ 0x0B ∧ b ≠ 0x12 ∧ b ≠ 0x21) :
    (writeWord s (0x22 + i) w 0xFFFFFFFF#32).reg b = if b = 0x22 + i then w else s.reg b := by
  obtain ⟨h0B, h12, h21⟩ := hb
  rw [writeWord_mbxData s hi, reg_doMbxData _ _ _ h21]
  by_cases own : b = 0x22 + i
  · rw [if_pos own, if_pos own]
  · rw [if_neg own, if_neg own, writeRW_reg (absentPort_low s (by omega)) _ _ h0B h12, if_neg own]
theorem reg_mbxFilled (s : State) (d : Nat → Word) {b : Nat} (hb : b ≠ 0x0B ∧ b ≠ 0x12 ∧ b ≠ 0x21) :
    (mbxFilled s d).reg b = if 0x22 ≤ b ∧ b < 0x26 then d (b - 0x22) else s.reg b := by
  suffices all : ∀ n ≤ 4, (forEach n (fun s i => writeWord s (0x22 + i) (d i) 0xFFFFFFFF#32) s).reg b =
      if 0x22 ≤ b ∧ b < 0x22 + n then d (b - 0x22) else s.reg b from all 4 (by decide)
  intro n
  induction n with
  | zero =>
    intro _
    rw [if_neg (by omega)]
    rfl
  | succ n ih =>
    intro hn
    have before := ih (by omega)
    simp only [forEach] at before ⊢
    rw [List.range_succ, List.foldl_append, List.foldl_cons, List.foldl_nil, reg_writeWord_mbxData _ (by omega) _ hb, before]
    by_cases last : b = 0x22 + n
    · rw [if_pos last, if_pos (by omega), last, Nat.add_sub_cancel_left]
    · rw [if_neg last]
      exact if_congr (by omega) rfl rfl
theorem mbxFilled_items (s : State) (d : Nat → Word) : SameItems s (mbxFilled s d) := by
  refine List.foldlRecOn _ _ ⟨rfl, rfl, rfl, rfl, rfl, fun _ _ _ => rfl⟩ fun t ht i hi => ht.trans ?_
  have lt : i < 4 := List.mem_range.1 hi
  rw [writeWord_mbxData t lt]
  exact (writeRW_items t (by omega) _ _).trans (.of_regStep (doMbxData_step _ lt _) fun b hb _ => .inr (by omega))

/-- The state in which the WRITE strobe of an MBX write acts. -/
def mbxPosted (s : State) (a : Nat) (d : Nat → Word) : State := landed (mbxFilled (mbxCaptured s a) d) 0x21 0x100#32 0xFFFFFFFF#32

theorem reg_mbxPosted (s : State) (a : Nat) (d : Nat → Word) {b : Nat} (hb : b ≠ 0x0B ∧ b ≠ 0x12 ∧ b ≠ 0x21) :
    (mbxPosted s a d).reg b = if 0x22 ≤ b ∧ b < 0x26 then d (b - 0x22) else (mbxCaptured s a).reg b := by
  rw [mbxPosted, ((writeRW_of_no_field (a := 0x21) rfl (by decide) _ _).2 b).1, reg_mbxFilled _ _ hb]
theorem mbxPosted_items (s : State) (a : Nat) (d : Nat → Word) : SameItems s (mbxPosted s a d) := by
  refine ((mbxCaptured_items s a).trans (mbxFilled_items _ d)).trans ?_
  rw [mbxPosted, ← (writeRW_of_no_field (a := 0x21) rfl (by decide) _ _).1]
  exact writeRW_items _ (by decide) _ _

section
variable {s : State} {a : Nat} (lt : a < 2 ^ 16) (h : mbxNames s a = true) (d : Nat → Word)
include lt h

theorem mbxPosted_sel : (mbxPosted s a d).fld 0x20 0 16 = a := by
  rw [State.fld_of_reg ((reg_mbxPosted s a d (by decide)).trans (if_neg (by decide)))]
  exact mbxCaptured_sel lt h

/-- WRITE of an item that takes none sets MBXERR. -/
theorem mbxPosted_readOnly (ro : mbxRo s a = true) : (doMbxWrite (mbxPosted s a d)).bit 0x0B 4 = true := by
  rw [doMbxWrite_ro (by rw [mbxPosted_sel lt h, (mbxPosted_items s a d).ro, ro])]
  exact State.bit_setBit_same _ _ _ _ (by decide)

end

/-- WRITE of the seconds to load takes the first two data words. -/
theorem mbxPosted_seconds {s : State} (h : mbxNames s 0xB002 = true) (d : Nat → Word) : (doMbxWrite (mbxPosted s 0xB002 d)).tim.setSec =
    some ((d 0).toNat % 2 ^ 16 * 2 ^ 32 + (d 1).toNat) := by
  have sel := mbxPosted_sel (by decide) h d
  rw [doMbxWrite_store (by rw [sel]; rfl), sel, (mbxStore_seconds _ _).2]
  have first : (mbxPosted s 0xB002 d).reg 0x22 = d 0 := by rw [reg_mbxPosted s _ d (by decide)]; rfl
  have second : (mbxPosted s 0xB002 d).reg 0x23 = d 1 := by rw [reg_mbxPosted s _ d (by decide)]; rfl
  simp only [List.getElem?_cons_zero, List.getElem?_cons_succ, Option.getD_some, first, second]

theorem exec_hostMbxRead {f : HostFrame} (read : f.h1.getLsbD 16 = false) (s : State) : exec (.hostMbxRead f) s = hostCmd 4 f s fun s =>
    (okReply ((List.range 4).map fun i => (mbxCaptured s (getF f.h1 0 16)).reg (0x22 + i)), mbxCaptured s (getF f.h1 0 16)) := by
  have body (s : State) : doMbxCapture (writeWord s 0x20 (BitVec.ofNat 32 (getF f.h1 0 16)) 0xFFFFFFFF#32) = mbxCaptured s (getF f.h1 0 16) := by
    rw [writeWord_mbxSel s (getF_lt _ _ _), mbxCaptured]
  refine (if_neg (by rw [read]; decide)).trans ?_
  simp only [body]
theorem exec_hostMbxWrite {f : HostFrame} (write : f.h1.getLsbD 16 = true) (s : State) : exec (.hostMbxWrite f) s = hostCmd 4 f s fun s =>
    ({ status := if mbxRo (mbxCaptured s (getF f.h1 0 16)) ((mbxCaptured s (getF f.h1 0 16)).fld 0x20 0 16) then 0x0A else 0 },
      doMbxWrite (mbxPosted s (getF f.h1 0 16) fun i => (f.data[i]?).getD 0#32)) := by
  have body (s : State) : doMbxCapture (writeWord s 0x20 (BitVec.ofNat 32 (getF f.h1 0 16)) 0xFFFFFFFF#32) = mbxCaptured s (getF f.h1 0 16) := by
    rw [writeWord_mbxSel s (getF_lt _ _ _), mbxCaptured]
  refine (if_neg (by rw [write]; decide)).trans ?_
  simp only [body, writeWord_mbxWrite]
  rfl

section
variable {s : State} {f : HostFrame} (h : hostTakes s f 4 = true)
include h

/-- MBX read replies with the four words captured. -/
theorem hostMbxRead_runs (read : f.h1.getLsbD 16 = false) : exec (.hostMbxRead f) s = .next (kept f
    (okReply ((List.range 4).map fun i => (mbxCaptured (s.takenBy f) (getF f.h1 0 16)).reg (0x22 + i)))
    (mbxCaptured (s.takenBy f) (getF f.h1 0 16))) := by
  refine (exec_hostMbxRead read s).trans (hostCmd_replies h rfl ?_)
  rw [((takenBy_items s f).trans (mbxCaptured_items _ _)).boot, hostUp_of_takes h]

/-- MBX write writes the item, or answers MBXRO. -/
theorem hostMbxWrite_runs (write : f.h1.getLsbD 16 = true) (named : mbxNames s (getF f.h1 0 16) = true) :
    exec (.hostMbxWrite f) s = .next (kept f { status := if mbxRo s (getF f.h1 0 16) then 0x0A else 0 }
      (doMbxWrite (mbxPosted (s.takenBy f) (getF f.h1 0 16) fun i => (f.data[i]?).getD 0#32))) := by
  have taken := takenBy_items s f
  have sel := mbxCaptured_sel (s := s.takenBy f) (getF_lt f.h1 0 16) ((taken.names _).trans named)
  have ro := (taken.trans (mbxCaptured_items (s.takenBy f) (getF f.h1 0 16))).ro (getF f.h1 0 16)
  refine (exec_hostMbxWrite write s).trans (hostCmd_replies h (by rw [sel, ro]) ?_)
  rw [State.boot_of_stage (doMbxWrite_stage _), (taken.trans (mbxPosted_items _ _ _)).boot, hostUp_of_takes h]

end

end Sys2Proof.Machine
end

section
/-! PROOF. The host port's select, the completion of a command, and the frames of O48 together (R399 to R411, R430). -/
namespace Sys2Proof.Machine

/-! ## The select falls and rises (R402, R430) -/

theorem exec_hostSelectFall (s : State) : exec .hostSelectFall s = execHostSelectFall s := rfl
theorem exec_hostSelectRelease (e : HostEnd) (s : State) : exec (.hostSelectRelease e) s = execHostSelectRelease e s := rfl
theorem exec_hostReplyComplete (s : State) : exec .hostReplyComplete s = execHostReplyComplete s := rfl
theorem exec_hostClrcnt (s : State) : exec .hostClrcnt s = .next (viaHost s doHostClrcnt) := rfl

/-- A fall during a frame, or where the port is absent, is ignored. -/
theorem hostSelectFall_ignored {s : State} (h : s.host.selected = true ∨ (s.boot.hostUp = true ∧ hostMode s = 2)) :
    exec .hostSelectFall s = .next s := if_pos (by simpa using h)
/-- In framed mode a fall begins a frame. -/
theorem hostSelectFall_framed {s : State} (up : s.boot.hostUp = true) (mode : hostMode s = 0) (idle : s.host.selected = false)
    (awake : s.power.st ≠ .dormant) : exec .hostSelectFall s =
      .next { s with host := { s.host with selected := true, judged := false, out := [], next := none, early := false, discard := false } } := by
  have begun : beginFrame s =
      { s with host := { s.host with selected := true, judged := false, out := [], next := none, early := false, discard := false } } := by
    rw [beginFrame, up]
    rfl
  have chain : ¬ ((beginFrame s).boot.hostUp && hostMode (beginFrame s) == 1) = true := by
    rw [show hostMode (beginFrame s) = hostMode s from rfl, mode]
    simp
  rw [exec_hostSelectFall, execHostSelectFall, if_neg (by simp [idle, mode]), if_neg (by simpa using awake), ← begun]
  exact congrArg Host.Outcome.next (if_neg chain)

/-- The release of a select that has not fallen is no release. -/
theorem hostSelectRelease_idle {s : State} (h : s.host.selected = false) (e : HostEnd) : exec (.hostSelectRelease e) s = .next s :=
  if_pos (by simp [h])

/-- A frame that ends: what it leaves, with nothing selected, and the commits that waited for its end settled. -/
def frameEnded (s : State) : State := { s with host := { s.host with selected := false, judged := false, early := false, discard := false } }

theorem hostSelectRelease_fits {s : State} {e : HostEnd} (selected : s.host.selected = true) (fits : endFits s e = true) :
    exec (.hostSelectRelease e) s = .next (settleAll (frameEnded (endFrameHost s e))) := if_neg (by simp [selected, fits])

section
variable {s : State} (up : s.boot.hostUp = true) (mode : hostMode s = 0) (selected : s.host.selected = true) (kept : s.host.discard = false)
  (late : s.host.early = false) (idle : s.commit.staged = [])
include up mode selected kept late idle

/-- After a judged frame P takes A, and A the new reply (R402). -/
theorem hostSelectRelease_judged (judged : s.host.judged = true) {r : Reply} (next : s.host.next = some r) :
    exec (.hostSelectRelease (.rest false false [])) s =
      .next { s with host := { s.host with p := s.host.a, a := r, next := none, selected := false, judged := false } } := by
  have ended : endFrameHost s (.rest false false []) = { s with host := { s.host with p := s.host.a, a := r, next := none } } := by
    simp [endFrameHost, up, mode, late, kept, judged, endJudged, next]
  rw [hostSelectRelease_fits selected (by simp [endFits, mode, judged]), ended, settleAll_of_none (by exact idle)]
  simp only [frameEnded, late, kept]

/-- A frame that breaks off before its first word is short: it is counted, with REJ, and A stays (Table 12-6). -/
theorem hostSelectRelease_short (judged : s.host.judged = false) :
    exec (.hostSelectRelease (.broken [] false)) s = .next (frameEnded (setRej (hostErr s 0 16 1) true)) := by
  have ended : endFrameHost s (.broken [] false) = setRej (hostErr s 0 16 1) true := by
    simp [endFrameHost, up, mode, late, kept, judged, endBroken, refused]
  rw [hostSelectRelease_fits selected (by simp [endFits, mode, judged]), ended, settleAll_of_none (by exact idle)]

end

/-! ## Completion and CLRCNT (R401, R406) -/

theorem hostReplyComplete_idle {s : State} (h : s.host.running = false ∨ coreStopped s = true) : exec .hostReplyComplete s = .next s :=
  if_pos (by simpa using h)
/-- A command without staging cells whose reply is no PULL's ends, and its reply waits as it is. -/
theorem hostReplyComplete_ends {s : State} (running : s.host.running = true) (core : coreStopped s = false) (staging : s.host.staging = [])
    {r : Reply} (next : s.host.next = some r) (op : r.op ≠ 6) :
    exec .hostReplyComplete s = .next { s with host := { s.host with running := false } } := by
  have stale (t : State) : staleReply t r = r := if_neg (by simp [op])
  rw [exec_hostReplyComplete, execHostReplyComplete, if_neg (by simp [running, core])]
  simp only [staging, next, forList, List.foldl_nil, stale]

/-! ## Frames that run nothing -/

/-- Where the port takes no frame and no chain command waits, no command of the port does anything. -/
theorem hostFrames_closed {s : State} (closed : framedOpen s = false) (idle : s.host.cmd = none) (f : HostFrame) (v : Option (Fin 30))
    (w : Option CopyUpset) : ∀ i ∈ [Instr.hostNop f, .hostRd f, .hostWr f, .hostRmw f, .hostMbxRead f, .hostMbxWrite f, .hostPush f v,
      .hostPull f w, .hostSnapshot f, .hostAgain f, .hostIllegal f], exec i s = .next s := by
  have shut (op : Nat) (body : State → Reply × State) : hostCmd op f s body = .next s := hostCmd_closed closed op f body
  have read : exec (.hostMbxRead f) s = .next s := by
    cases dir : f.h1.getLsbD 16 with
    | true => exact if_pos dir
    | false => exact (exec_hostMbxRead dir s).trans (shut _ _)
  have write : exec (.hostMbxWrite f) s = .next s := by
    cases dir : f.h1.getLsbD 16 with
    | true => exact (exec_hostMbxWrite dir s).trans (shut _ _)
    | false => exact if_pos (by rw [dir]; rfl)
  have again : exec (.hostAgain f) s = .next s := if_neg (by simp [closed])
  have illegal : exec (.hostIllegal f) s = .next s := (exec_hostIllegal_chain closed f).trans (chainCmd_idle (.inl idle) _ _)
  simp only [List.forall_mem_cons]
  exact ⟨shut _ _, shut _ _, shut _ _, shut _ _, read, write, shut _ _, shut _ _, shut _ _, again, illegal, List.forall_mem_nil _⟩

section
variable {s : State} {f : HostFrame} (opened : framedOpen s = true) (whole : wholeFrame f = true)
include opened whole

/-- A frame that asks AGAIN sends P. -/
theorem hostAgain_runs (checks : crcOk f = true) (again : fAgain f = true) : exec (.hostAgain f) s =
    .next { s.judging with host := { s.judging.host with out := phaseOf s s.host.p true } } := by
  rw [← framed_again checks again]
  exact if_pos (by simp [opened, whole, again])

/-- An illegal frame is answered ILLEGAL. -/
theorem hostIllegal_runs (once : fAgain f = false) (illegal : frameLegal f = false) (checks : crcOk f = true) (ready : notReadyNow s = false) :
    exec (.hostIllegal f) s = .next (kept f { status := 2 } (hostErr (s.takenBy f) 3 0 6)) := by
  have up : s.boot.hostUp = true := by
    simp only [framedOpen, Bool.and_eq_true] at opened
    exact opened.1.1.1.1.1
  have run : exec (.hostIllegal f) s = .next (framed s f illegalReply) := (if_pos opened).trans (if_pos (by simp [whole, once, illegal]))
  rw [run, framed_runs checks once ready]
  exact congrArg Host.Outcome.next (keepReply_up (by rw [illegalReply, State.boot_of_stage (hostErr_stage _ _ _ _), takenBy_boot, up]) f _)

/-- A whole legal frame of its OP is judged. -/
theorem hostRd_judged (once : fAgain f = false) (op : fOp f = 1) (legal : frameLegal f = true) :
    ∃ body, exec (.hostRd f) s = .next (framed s f body) := ⟨_, if_pos (by simp [opened, whole, once, op, legal])⟩

end

/-! ## The obligation -/

/-- Settles O48: a taken frame runs its command in the accepted state `takenBy`, and what reads, writes and the mailbox do there is what the
reply shows; a frame refused, broken or illegal counts. That a frame counts where its trailer is judged is the model's reading (log
entry 55). -/
theorem hostFrames : Obligations.HostFrames := by
  unfold Obligations.HostFrames
  intro s f r e v w u same a inc d shape
  have counts (b : Nat) (h0 : b ≠ 0x400) (h8 : b ≠ 0x408) : u.reg b = s.reg b := reg_takenBy_other s f h0 h8
  refine ⟨?taken, fun closed idle => hostFrames_closed closed idle f v w, fun takes => ?rd, fun takes one => ?rdOne, fun takes one up => ?wr,
    fun takes one down => ?wrReset, fun takes hs hr hm => ?rmw, fun takes read => ?mbxRead, fun takes write named => ?mbxWrite,
    fun ⟨opened, whole⟩ checks again => ?again, fun ⟨opened, whole⟩ once illegal checks ready => ?illegal,
    fun ⟨opened, whole⟩ once op legal => ⟨fun fails => ?unchecked, fun checks running => ?notReady⟩, hostSelectFall_ignored,
    fun idle => hostSelectRelease_idle idle e, hostSelectFall_framed, fun up mode selected kept late idle =>
      ⟨fun judged next => hostSelectRelease_judged up mode selected kept late idle judged next, fun judged => ?short⟩,
    fun running core staging next op => hostReplyComplete_ends running core staging next op, hostReplyComplete_idle, fun out => ?clrcntOut,
    fun reach => ?clrcnt⟩
  case taken =>
    obtain ⟨frame, tag, count⟩ := takenBy_lands s f
    have host := takenBy_host s f
    exact ⟨frame, by rw [host], by rw [host], tag, count, counts⟩
  case rd => exact ⟨_, _, hostRd_runs takes, kept_replies f _ _, (readWords_length _ _).trans (wordAddrs_length f (fN f))⟩
  case rdOne => exact ⟨_, hostRd_runs_one takes one, kept_replies f _ _, kept_regs _ _ _⟩
  case wr => exact ⟨_, hostWr_runs takes one up, kept_replies f _ _, kept_regs _ _ _, kept_shadow _ _ _⟩
  case wrReset => exact hostWr_resets takes one down
  case rmw => exact ⟨_, hostRmw_runs takes hs hr hm, kept_replies f _ _, kept_shadow _ _ _⟩
  case mbxRead =>
    refine ⟨_, hostMbxRead_runs takes read, ?_, ?_, ?_, fun named => ?_⟩
    · simp only [kept_reg]
      exact kept_replies f _ _
    · rw [kept_bit, mbxCaptured_valid]
    · rw [kept_mbx, mbxCaptured_done]
    · rw [kept_fld, mbxCaptured_sel (getF_lt _ _ _) (((takenBy_items s f).names _).trans named)]
  case mbxWrite =>
    have named' : mbxNames u a = true := ((takenBy_items s f).names a).trans named
    refine ⟨_, hostMbxWrite_runs takes write named, kept_replies f _ _, fun ro => ?_, fun seconds => ?_⟩
    · rw [kept_bit, mbxPosted_readOnly (getF_lt _ _ _) named' _ (((takenBy_items s f).ro a).trans ro)]
    · rw [kept_tim]
      change (doMbxWrite (mbxPosted u a d)).tim.setSec = _
      rw [seconds] at named' ⊢
      exact mbxPosted_seconds named' d
  case again => exact ⟨_, hostAgain_runs opened whole checks again, rfl, rfl, rfl, judging_regs s⟩
  case illegal =>
    obtain ⟨counted, event⟩ := hostErr_counts u (k := 3) (lo := 0) (b := 6) (by decide) (by decide)
    refine ⟨_, hostIllegal_runs opened whole once illegal checks ready, kept_replies f _ _, ?_, by rw [kept_bit]; exact event⟩
    have before : u.fld 0x407 0 16 = s.fld 0x407 0 16 := State.fld_of_reg (counts 0x407 (by decide) (by decide)) 0 16
    exact (kept_fld _ _ _ _ _ _).trans (counted.trans (by rw [before]))
  case unchecked =>
    obtain ⟨body, run⟩ := hostRd_judged opened whole once op legal
    obtain ⟨counted, event⟩ := hostErr_counts { s with host := { s.host with judged := true, out := [] } } (k := 0) (lo := 0) (b := 0)
      (by decide) (by decide)
    rw [framed_unchecked fails once (by rw [op]; decide)] at run
    exact ⟨_, run, rfl, rfl, rfl, counted, event⟩
  case notReady =>
    obtain ⟨body, run⟩ := hostRd_judged opened whole once op legal
    rw [framed_notReady checks once (by simp [notReadyNow, running]) (by rw [op]; decide)] at run
    refine ⟨_, run, rfl, rfl, rfl, ?_⟩
    exact (hostErr_counts _ (k := 2) (lo := 16) (b := 5) (by decide) (by decide)).1
  case short =>
    obtain ⟨counted, event⟩ := hostErr_counts s (k := 0) (lo := 16) (b := 1) (by decide) (by decide)
    exact ⟨_, hostSelectRelease_short up mode selected kept late idle judged, rfl, rfl, rfl, counted, event⟩
  case clrcntOut => exact (exec_hostClrcnt s).trans (by rw [viaHost_unreached out])
  case clrcnt =>
    obtain ⟨regs, frame, words⟩ := reg_zeroWords 0x404 4 s
    exact ⟨_, (exec_hostClrcnt s).trans (congrArg Host.Outcome.next ((viaHost_reached reach _).trans frame)), rfl, fun b => by rw [← frame, words]⟩

end Sys2Proof.Machine
end

section
/-! PROOF. A frame for the end of a commit (O6): which operations leave the commits outstanding, the words that show an applied commit, and
the circuits in RUN as they were. -/
namespace Sys2Proof.Machine

/-- A word that shows an applied commit: HST_GEN, the words at offset 1 of the ports, circuits and CAN channels, and those at offset 0 of the
circuits, with EN. -/
def commitWord (a : Nat) : Bool :=
  a == 0x409 || decide (0x800 ≤ a ∧ (a < 0x2000 ∨ 0x5000 ≤ a) ∧ a % 64 = 1) || decide (0x1000 ≤ a ∧ a < 0x2000 ∧ a % 64 = 0)

/-- What the end of a commit speaks of: the commits outstanding, those words, and, where `runs` says so, which circuits are in RUN. -/
def State.landing (runs : Bool) (s : State) : Commit × (Nat → Word) × (Nat → Bool) :=
  (s.commit, fun a => if commitWord a then s.reg a else 0#32, fun c => runs && (s.circ c).st == .run)

/-- A change of other fields leaves them. -/
theorem State.landing_update (k : Bool) (s : State) (pending chip fresh hold ext power boot strap shadow cells ports ctxs outQ credits ctlWait fab
    canA canB tim pool sup jnl mem jwrite host mbx seq) :
    State.landing k ⟨pending, chip, fresh, hold, ext, power, boot, strap, s.regs, shadow, s.commit, cells, s.circs, ports, ctxs, outQ, credits,
      ctlWait, fab, canA, canB, tim, pool, sup, jnl, mem, jwrite, host, mbx, seq⟩ = s.landing k := rfl

section
variable {s t : State} {k : Bool} (h : t.landing k = s.landing k)
include h

theorem State.commit_of_landing : t.commit = s.commit := congrArg Prod.fst h
theorem State.reg_of_landing {a : Nat} (word : commitWord a = true) : t.reg a = s.reg a := by
  have words := congrFun (congrArg (fun l => l.2.1) h) a
  simpa only [State.landing, word, if_true] using words

end
theorem State.run_of_landing {s t : State} (h : t.landing true = s.landing true) (c : Nat) (run : (s.circ c).st = .run) : (t.circ c).st = .run := by
  have runs := congrFun (congrArg (fun l => l.2.2) h) c
  simpa [State.landing, run] using runs

@[simp] theorem State.landing_ite (k : Bool) (c : Prop) [Decidable c] (s t : State) :
    (if c then s else t).landing k = if c then s.landing k else t.landing k := apply_ite _ _ _ _
@[simp] theorem landing_forList {k : Bool} {α : Type} {f : State → α → State} (h : ∀ t a, (f t a).landing k = t.landing k) (l : List α)
    (s : State) : (forList l f s).landing k = s.landing k := forList_kept h l s
@[simp] theorem landing_forEach {k : Bool} {f : State → Nat → State} (h : ∀ t a, (f t a).landing k = t.landing k) (n : Nat) (s : State) :
    (forEach n f s).landing k = s.landing k := landing_forList h _ s
/-- What a pair holds as its state. -/
theorem landing_of_snd {k : Bool} {α : Type} {p : α × State} {a : α} {t : State} (h : p = (a, t)) : t.landing k = p.2.landing k := h ▸ rfl

/-! ## Words that show no commit -/

theorem commitWord_eq_false {a : Nat} : commitWord a = false ↔
    a ≠ 0x409 ∧ ¬ (0x800 ≤ a ∧ (a < 0x2000 ∨ 0x5000 ≤ a) ∧ a % 64 = 1) ∧ ¬ (0x1000 ≤ a ∧ a < 0x2000 ∧ a % 64 = 0) := by
  simp only [commitWord, Bool.or_eq_false_iff, beq_eq_false_iff_ne, decide_eq_false_iff_not, and_assoc, ne_eq]
@[simp] theorem commitWord_low {a : Nat} (h : a < 0x800) (h' : a ≠ 0x409) : commitWord a = false := commitWord_eq_false.2 (by omega)
@[simp] theorem commitWord_shared {a : Nat} (h : 0x2000 ≤ a) (h' : a < 0x5000) : commitWord a = false := commitWord_eq_false.2 (by omega)
/-! The words beside those at offsets 0 and 1 of a port, a circuit, a CAN channel, and those of an object or a context. -/
@[simp] theorem commitWord_pAddr (n : Nat) {w : Nat} (h : 2 ≤ w) (h' : w < 64) : commitWord (pAddr n w) = false :=
  commitWord_eq_false.2 (by unfold pAddr; omega)
@[simp] theorem commitWord_cAddr (c : Nat) {w : Nat} (h : 2 ≤ w) (h' : w < 64) : commitWord (cAddr c w) = false :=
  commitWord_eq_false.2 (by unfold cAddr; omega)
@[simp] theorem commitWord_xAddr (x : Nat) {w : Nat} (h : 2 ≤ w) (h' : w < 16) : commitWord (xAddr x w) = false :=
  commitWord_eq_false.2 (by unfold xAddr; omega)
@[simp] theorem commitWord_chAddr (ch : Nat) {w : Nat} (h : 2 ≤ w) (h' : w < 64) : commitWord (chAddr ch w) = false :=
  commitWord_eq_false.2 (by unfold chAddr; omega)
@[simp] theorem commitWord_oAddr (ch i : Nat) {w : Nat} (h : w = 0 ∨ w = 4) : commitWord (oAddr ch i w) = false :=
  commitWord_eq_false.2 (by unfold oAddr; omega)

/-! The words that do: a port's BAUD, a channel's timing, a circuit's EN. -/
theorem commitWord_baud {n : Nat} (h : n < 16) : commitWord (pAddr n 1) = true := by
  rw [← Bool.not_eq_false, commitWord_eq_false]
  unfold pAddr
  omega
theorem commitWord_timing (ch : Nat) : commitWord (chAddr ch 1) = true := by
  rw [← Bool.not_eq_false, commitWord_eq_false]
  unfold chAddr
  omega
theorem commitWord_en {c : Nat} (h : c < 64) : commitWord (cAddr c 0) = true := by
  rw [← Bool.not_eq_false, commitWord_eq_false]
  unfold cAddr
  omega

section
variable (k : Bool) {a : Nat} (h : commitWord a = false) (s : State)
include h

@[simp] theorem setReg_landing (w : Word) : (s.setReg a w).landing k = s.landing k := by
  have word (b : Nat) : (if commitWord b then (s.setReg a w).reg b else 0#32) = if commitWord b then s.reg b else 0#32 := by
    by_cases same : b = a
    · rw [same, h]
      rfl
    · rw [State.reg_setReg, if_neg same]
  exact Prod.ext rfl (Prod.ext (funext word) rfl)
@[simp] theorem setFld_landing (lo wd v : Nat) : (s.setFld a lo wd v).landing k = s.landing k := setReg_landing k h s _
@[simp] theorem setBit_landing (i : Nat) (b : Bool) : (s.setBit a i b).landing k = s.landing k := setReg_landing k h s _
@[simp] theorem count_landing (lo wd : Nat) : (s.count a lo wd).landing k = s.landing k := setReg_landing k h s _
@[simp] theorem countBy_landing (lo wd n : Nat) : (s.countBy a lo wd n).landing k = s.landing k := setReg_landing k h s _

end

/-! ## The state's parts, records and faults -/

@[simp] theorem setCell_landing (k : Bool) (s : State) (i : Nat) (c : Cell) : (s.setCell i c).landing k = s.landing k := rfl
@[simp] theorem setPort_landing (k : Bool) (s : State) (n : Nat) (p : Port) : (s.setPort n p).landing k = s.landing k := rfl
@[simp] theorem setCtx_landing (k : Bool) (s : State) (x : Nat) (c : Ctx) : (s.setCtx x c).landing k = s.landing k := rfl
@[simp] theorem modPort_landing (k : Bool) (s : State) (n : Nat) (f : Port → Port) : (modPort s n f).landing k = s.landing k := rfl
@[simp] theorem ctxEvent_landing (k : Bool) (s : State) (x b : Nat) : (ctxEvent s x b).landing k = s.landing k := rfl
@[simp] theorem setCirc_landing_false (s : State) (c : Nat) (x : Circ) : (s.setCirc c x).landing false = s.landing false := rfl
/-- A circuit that stays in RUN, or out of it. -/
theorem setCirc_landing (k : Bool) {s : State} {c : Nat} {x : Circ} (h : (x.st == .run) = ((s.circ c).st == .run)) :
    (s.setCirc c x).landing k = s.landing k := by
  refine Prod.ext rfl (Prod.ext rfl (funext fun d => congrArg (k && ·) ?_))
  rw [State.circ_setCirc]
  split
  · next same => rw [same, h]
  · rfl
@[simp] theorem setCan_landing (k : Bool) (s : State) (ch : Nat) (x : Can) : (s.setCan ch x).landing k = s.landing k := by
  unfold State.setCan
  split <;> rfl
@[simp] theorem modCan_landing (k : Bool) (s : State) (ch : Nat) (f : Can → Can) : (modCan s ch f).landing k = s.landing k := setCan_landing ..
@[simp] theorem setObj_landing (k : Bool) (s : State) (ch i : Nat) (o : CanObj) : (s.setObj ch i o).landing k = s.landing k := modCan_landing ..

section
variable (k : Bool)

@[simp] theorem allocSys_landing (s : State) (u : SysUse) : (allocSys s u).2.landing k = s.landing k := by
  unfold allocSys
  split <;> simp [↓State.landing_update]
@[simp] theorem loseRecord_landing (s : State) : (loseRecord s).landing k = s.landing k := by simp [loseRecord]
@[simp] theorem stageRecord_landing (s : State) (r : JRec) : (stageRecord s r).landing k = s.landing k := by
  unfold stageRecord
  split
  · simp
  · split <;> (next h => simp [↓State.landing_update, landing_of_snd h])
@[simp] theorem journal_landing (s : State) (typ source : Nat) (payload : List Byte) : (journal s typ source payload).landing k = s.landing k := by
  unfold journal
  dsimp only
  split
  · simp
  · split <;> simp [↓State.landing_update]
@[simp] theorem showFault_landing (s : State) : (showFault s).landing k = s.landing k := by simp [showFault]
@[simp] theorem raiseFault_landing (s : State) (code : Nat) : (raiseFault s code).landing k = s.landing k := by simp [raiseFault]
@[simp] theorem clearFault_landing (s : State) (code : Nat) : (clearFault s code).landing k = s.landing k := by simp [clearFault]

/-! ## Cells, circuits and contexts -/

@[simp] theorem watchPool_landing (s : State) : (watchPool s).landing k = s.landing k := by simp [watchPool, ↓State.landing_update]
@[simp] theorem stallWatch_landing (s : State) (c : Nat) : (stallWatch s c).landing k = s.landing k := setCirc_landing k rfl
@[simp] theorem flowOff_landing (s : State) (n : Nat) : (flowOff s n).landing k = s.landing k := by simp [flowOff]
@[simp] theorem flowOn_landing (s : State) (n : Nat) : (flowOn s n).landing k = s.landing k := by simp [flowOn]
@[simp] theorem rtsWatch_landing (s : State) (n : Nat) : (rtsWatch s n).landing k = s.landing k := by simp [rtsWatch]
@[simp] theorem flowWatch_landing (s : State) (c : Nat) (alloc : Bool) : (flowWatch s c alloc).landing k = s.landing k := by simp [flowWatch]
theorem queueCtl_landing {s t : State} {p : Pkt} {n : Option Nat} (h : queueCtl s p n = some t) : t.landing k = s.landing k := by
  unfold queueCtl at h
  split at h
  · next e => cases h; simp [↓State.landing_update, landing_of_snd e]
  · cases h
@[simp] theorem sendPkt_landing (s : State) (p : Pkt) (n : Option Nat) : (sendPkt s p n).landing k = s.landing k := by
  unfold sendPkt
  split
  · next h => exact queueCtl_landing k h
  · simp [↓State.landing_update]
@[simp] theorem sendCtl_landing (s : State) (typ dst dcirc scirc : Nat) (body : List Byte) :
    (sendCtl s typ dst dcirc scirc body).landing k = s.landing k := by
  simp [sendCtl, ↓State.landing_update]
@[simp] theorem addCredits_landing (s : State) (c n : Nat) : (addCredits s c n).landing k = s.landing k := by
  have credited (x : Nat) : (s.setCirc c { s.circ c with credits := x }).landing k = s.landing k := setCirc_landing k rfl
  simp [addCredits, credited]
@[simp] theorem sendCredit_landing (s : State) (e : CreditEntry) (grant refused : Nat) : (sendCredit s e grant refused).landing k = s.landing k := by
  simp [sendCredit]
@[simp] theorem creditLocal_landing (s : State) (c seq : Nat) : (creditLocal s c seq).landing k = s.landing k := by simp [creditLocal]
@[simp] theorem oweCredit_landing (s : State) (owner origin seq : Nat) : (oweCredit s owner origin seq).landing k = s.landing k := by
  unfold oweCredit
  dsimp only
  split
  · simp
  · split <;> simp [↓State.landing_update]
@[simp] theorem serveSysWait_landing (s : State) : (serveSysWait s).landing k = s.landing k := by
  unfold serveSysWait
  split
  · next p n t _ =>
    cases h : queueCtl { s with ctlWait := t } p n with
    | none => rfl
    | some u => simpa [↓State.landing_update] using queueCtl_landing k h
  · dsimp only
    split <;> simp [↓State.landing_update]
@[simp] theorem noteRetired_landing (s : State) : (noteRetired s).landing k = s.landing k := by simp [noteRetired, ↓State.landing_update]
@[simp] theorem dropHeldChar_landing (s : State) (x : Nat) : (dropHeldChar s x).landing k = s.landing k :=
  landing_forEach (fun t n => by split <;> simp) _ s
@[simp] theorem dropRefs_landing (s : State) (c i : Nat) : (dropRefs s c i).landing k = s.landing k := by
  unfold dropRefs
  extract_lets x s1 host s2 y mine held st stopped s3
  have dropped : s1.landing k = s.landing k := setCirc_landing k rfl
  have h : s3.landing k = s.landing k := (State.landing_update k s1 ..).trans dropped
  clear_value s3
  split <;> simp [h]
@[simp] theorem allocEvents_landing (s : State) : (allocEvents s).landing k = s.landing k := by simp [allocEvents]
@[simp] theorem stopCtx_landing (s : State) (x : Nat) : (stopCtx s x).landing k = s.landing k := rfl
@[simp] theorem stopAtBoundary_landing (s : State) (x : Nat) : (stopAtBoundary s x).landing k = s.landing k := by simp [stopAtBoundary]
/-- A drain that ends leaves RUN to those that are in it. -/
@[simp] theorem drainEnd_landing (s : State) (c : Nat) : (drainEnd s c).landing k = s.landing k := by
  unfold drainEnd
  split
  · next drains =>
    have st : (s.circ c).st = .drain := by simp_all
    have ended : (s.setCirc c { s.circ c with st := .disabled, stallRun := false }).landing k = s.landing k := setCirc_landing k (by rw [st]; rfl)
    simp [ended]
  · rfl
@[simp] theorem drainCheck_landing (s : State) (c : Nat) : (drainCheck s c).landing k = s.landing k := by simp [drainCheck]
@[simp] theorem releaseCell_landing (s : State) (i : Nat) : (releaseCell s i).landing k = s.landing k := by
  unfold releaseCell
  dsimp only
  split <;> simp
@[simp] theorem journalStruct_landing (s : State) (typ source : Nat) (payload : List Byte) :
    (journalStruct s typ source payload).landing k = s.landing k := stageRecord_landing ..
@[simp] theorem setTxseq_landing (s : State) (c adv : Nat) : (setTxseq s c adv).landing k = s.landing k := by
  unfold setTxseq
  extract_lets x n s1 jw s2
  have advanced : s1.landing k = s.landing k := setCirc_landing k rfl
  split
  · exact (journalStruct_landing k s2 ..).trans advanced
  · exact advanced
@[simp] theorem closeCellAs_landing (s : State) (i c cause : Nat) (w : Word) : (closeCellAs s i c cause w).2.landing k = s.landing k := by
  unfold closeCellAs
  dsimp only
  split
  · simp
  · rw [setTxseq_landing]
    exact setCirc_landing k rfl
@[simp] theorem enqueueCell_landing (s : State) (c i : Nat) (b : Bool) : (enqueueCell s c i b).landing k = s.landing k := by
  have queued (l : List Nat) : (s.setCirc c { s.circ c with queue := l }).landing k = s.landing k := setCirc_landing k rfl
  have boxed (l : List Nat) : (s.setCirc c { s.circ c with inbox := l }).landing k = s.landing k := setCirc_landing k rfl
  simp [enqueueCell, queued, boxed]
@[simp] theorem closeCell_landing (s : State) (i c cause : Nat) : (closeCell s i c cause).landing k = s.landing k := by
  unfold closeCell
  split <;> (next h => simp [landing_of_snd h])
@[simp] theorem closeRx_landing (s : State) (i c cause : Nat) : (closeRx s i c cause).landing k = s.landing k := by simp [closeRx]
@[simp] theorem closeAllRx_landing (s : State) (n cause : Nat) : (closeAllRx s n cause).landing k = s.landing k :=
  landing_forList (fun t e => by split <;> simp) _ s
@[simp] theorem completeCell_landing (s : State) (i : Nat) : (completeCell s i).landing k = s.landing k := by
  unfold completeCell
  split
  · rw [releaseCell_landing]
    exact setCirc_landing k rfl
  · simp
@[simp] theorem endTxCell_landing (s : State) (n : Nat) (done : Bool) : (endTxCell s n done).landing k = s.landing k := by
  unfold endTxCell
  split <;> simp
@[simp] theorem dropAbandoned_landing (s : State) (n : Nat) : (dropAbandoned s n).landing k = s.landing k := by
  unfold dropAbandoned
  split <;> simp
@[simp] theorem feedEvent_landing (s : State) (n b : Nat) : (feedEvent s n b).landing k = s.landing k := by
  unfold feedEvent
  split
  · rfl
  · split <;> simp

/-! ## A circuit enters RUN -/

@[simp] theorem returnCursors_landing (s : State) (x : Nat) : (returnCursors s x).landing k = s.landing k := by
  unfold returnCursors
  dsimp only
  split
  · next i _ _ _ =>
    have boxed : (s.setCirc x { s.circ x with inbox := i :: (s.circ x).inbox }).landing k = s.landing k := setCirc_landing k rfl
    simp [boxed]
  · simp
@[simp] theorem startCtx_landing (s : State) (x : Nat) : (startCtx s x).landing k = s.landing k := by simp [startCtx]
@[simp] theorem sendTomb_landing (s : State) (c : Nat) : (sendTomb s c).landing k = s.landing k := by simp [sendTomb]
@[simp] theorem startEpoch_landing (s : State) (c : Nat) (b : Bool) : (startEpoch s c b).landing k = s.landing k := by
  have begun (t : State) (q n : Nat) : (t.setCirc c { t.circ c with tombSeq := q, credits := n }).landing k = t.landing k := setCirc_landing k rfl
  simp [startEpoch, begun]

end

/-! ## Contexts that wait for a port, and time references: circuits may leave RUN -/

@[simp] theorem freeOpen_landing (k : Bool) (s : State) (c : Nat) : (freeOpen s c).2.landing k = s.landing k := by simp [freeOpen]
@[simp] theorem faultCirc_landing (s : State) (c : Nat) : (faultCirc s c).landing false = s.landing false := by
  unfold faultCirc
  split <;> simp
@[simp] theorem ctxFaultC_landing (s : State) (x code : Nat) : (ctxFaultC s x code).landing false = s.landing false := by
  unfold ctxFaultC
  split
  · rfl
  · extract_lets y s1 pc s2 s3 recent stamp kept s4 s5
    have counted : s3.landing false = s.landing false := by simp [s3, s2, s1]
    have stopped : s4.landing false = s.landing false := (setCtx_landing false s3 x _).trans counted
    clear_value s4
    have recorded : s5.landing false = s.landing false := by
      simp only [s5]
      split <;> simp [stopped]
    exact (faultCirc_landing s5 x).trans recorded
@[simp] theorem noteIssue_landing (k : Bool) (s : State) (x : Nat) (b : Bool) : (noteIssue s x b).landing k = s.landing k := rfl
@[simp] theorem advance_landing (k : Bool) (s : State) (x a : Nat) : (advance s x a).landing k = s.landing k := by simp [advance]
@[simp] theorem endPortWaits_landing (s : State) (n : Nat) : (endPortWaits s n).landing false = s.landing false := by
  refine landing_forEach (fun t x => ?_) 64 s
  split
  · rfl
  · dsimp only
    split
    · rw [ctxFaultC_landing, noteIssue_landing, setCtx_landing]
    · rw [advance_landing, setCtx_landing, noteIssue_landing, setCtx_landing]

section
variable (k : Bool)

@[simp] theorem setQuality_landing (s : State) (q : Quality) : (setQuality s q).landing k = s.landing k := by simp [setQuality, ↓State.landing_update]
@[simp] theorem modTim_landing (s : State) (f : Tim → Tim) : (modTim s f).landing k = s.landing k := rfl
@[simp] theorem putStratum_landing (s : State) : (putStratum s).landing k = s.landing k := rfl
@[simp] theorem putFreq_landing (s : State) : (putFreq s).landing k = s.landing k := by simp [putFreq]
@[simp] theorem refGone_landing (s : State) : (refGone s).landing k = s.landing k := by simp [refGone, ↓State.landing_update]
@[simp] theorem capLocked_landing (s : State) : (capLocked s).landing k = s.landing k := by simp [capLocked]
@[simp] theorem reselect_landing (s : State) : (reselect s).landing k = s.landing k := by
  unfold reselect
  dsimp only
  rw [putStratum_landing, capLocked_landing]
  split
  · simp
  · split <;> simp [↓State.landing_update]

/-! ## The fabric -/

@[simp] theorem setTrunk_landing (s : State) (j : Nat) (t : Trunk) : (s.setTrunk j t).landing k = s.landing k := rfl
@[simp] theorem setRoute_landing (s : State) (i : Nat) (r : Route) : (s.setRoute i r).landing k = s.landing k := rfl
@[simp] theorem setNbr_landing (s : State) (j : Nat) (n : Nbr) : (s.setNbr j n).landing k = s.landing k := rfl
@[simp] theorem noteChanged_landing (s : State) (dst : Nat) : (noteChanged s dst).landing k = s.landing k := rfl
@[simp] theorem twinStandby_landing (s : State) : (twinStandby s).landing k = s.landing k :=
  landing_forEach (fun t c => by simp) _ _
@[simp] theorem twinWatch_landing (s : State) : (twinWatch s).landing k = s.landing k := by
  unfold twinWatch
  split
  · rfl
  · split
    · split <;> simp [↓State.landing_update]
    · rfl
@[simp] theorem putRoute_landing (s : State) (i : Nat) (r : Route) : (putRoute s i r).landing k = s.landing k := by
  unfold putRoute
  dsimp only
  rw [twinWatch_landing, State.landing_ite, noteChanged_landing, ite_self]
  split <;> simp [↓State.landing_update]
@[simp] theorem failBest_landing (s : State) (i : Nat) : (failBest s i).landing k = s.landing k := by
  unfold failBest
  dsimp only
  split
  · rfl
  · split <;> simp
@[simp] theorem failPaths_landing (s : State) (gone : RPath → Bool) : (failPaths s gone).landing k = s.landing k :=
  landing_forList (fun t i => by simp) _ s
@[simp] theorem loseNbr_landing (s : State) (j : Nat) : (loseNbr s j).landing k = s.landing k := by simp [loseNbr]
@[simp] theorem sendHop_landing (s : State) (j typ fl src : Nat) (body : List Byte) : (sendHop s j typ fl src body).landing k = s.landing k :=
  sendPkt_landing ..
@[simp] theorem sendHello_landing (s : State) (j : Nat) : (sendHello s j).landing k = s.landing k := by simp [sendHello]
@[simp] theorem trunkDown_landing (s : State) (j : Nat) (c : DownCause) : (trunkDown s j c).landing k = s.landing k := by
  simp [trunkDown, ↓State.landing_update]
@[simp] theorem trunkUp_landing (s : State) (j : Nat) : (trunkUp s j).landing k = s.landing k := by simp [trunkUp]
@[simp] theorem trunkWatch_landing (s : State) (c : DownCause) : (trunkWatch s c).landing k = s.landing k :=
  landing_forEach (fun t j => by simp) _ s

/-! ## CAN channels -/

@[simp] theorem canEvt_landing (s : State) (ch bit : Nat) : (canEvt s ch bit).landing k = s.landing k := by simp [canEvt]
@[simp] theorem setRole_landing (s : State) (ch : Nat) (r : CanRole) : (setRole s ch r).landing k = s.landing k := by simp [setRole]
@[simp] theorem setCanSt_landing (s : State) (ch : Nat) (st : CanSt) (c : DownCause) : (setCanSt s ch st c).landing k = s.landing k := by
  unfold setCanSt
  dsimp only
  split <;> simp
@[simp] theorem integrate_landing (s : State) (ch : Nat) (clear : Bool) (c : DownCause) : (integrate s ch clear c).landing k = s.landing k := by
  simp [integrate]
@[simp] theorem objWithdraw_landing (s : State) (ch i : Nat) : (objWithdraw s ch i).landing k = s.landing k := by
  unfold objWithdraw
  dsimp only
  split
  · simp
  · split
    · simp
    · split
      · refine (setCirc_landing k ?_).trans (by simp)
        rfl
      · simp

end

end Sys2Proof.Machine
end

section
/-! PROOF. A staged commit applies at its boundary (O6): what an application does beside the words, and how its entry ends (R145 to R149). -/
namespace Sys2Proof.Machine

/-! ## What an application does beside the words -/

@[simp] theorem commitWord_pglAddr {n : Nat} (h : n < 16) : commitWord (pglAddr n) = false :=
  commitWord_low (by unfold pglAddr; omega) (by unfold pglAddr; omega)

/-- What an application does beside a port's fields leaves the words of commits. -/
theorem afterPort_landing (old : State) {n : Nat} (hn : n < 16) (s : State) : (afterPort old n s).landing false = s.landing false := by
  unfold afterPort
  extract_lets ch addr fmt mode feed off s1 s2 s3 s4 s5 s6 s7 s8 s9 s10 s11 s12 s13
  have h1 : s1.landing false = s.landing false := by simp [s1]
  have h2 : s2.landing false = s.landing false := by simp [s2, h1]
  have h3 : s3.landing false = s.landing false := by simp [s3, h2]
  have h4 : s4.landing false = s.landing false := by simp [s4, h3]
  have h5 : s5.landing false = s.landing false := by simp [s5, h4]
  have h6 : s6.landing false = s.landing false := by simp [s6, h5]
  have h7 : s7.landing false = s.landing false := by simp [s7, h6]
  have h8 : s8.landing false = s.landing false := by simp [s8, h7]
  have h9 : s9.landing false = s.landing false := by simp [s9, h8, h4, hn]
  have h10 : s10.landing false = s.landing false := by simp [s10, h9]
  have h11 : s11.landing false = s.landing false := by simp [s11, h10]
  have h12 : s12.landing false = s.landing false := by simp [s12, h11]
  have h13 : s13.landing false = s.landing false := by simp [s13, h12]
  rw [trunkWatch_landing, h13]

/-- So does what it does beside a CAN channel's. -/
theorem afterCan_landing (old : State) (ch : Nat) (s : State) : (afterCan old ch s).landing false = s.landing false := by
  unfold afterCan
  extract_lets s1 ch' restart s2 on s3
  have h1 : s1.landing false = s.landing false := landing_forEach (fun t i => by simp) _ s
  have h2 : s2.landing false = s.landing false := by simp [s2, h1]
  have h3 : s3.landing false = s.landing false := by simp [s3, h2]
  rw [trunkWatch_landing, h3]

/-- A circuit enters RUN, and no other circuit enters or leaves it. -/
theorem enterRun_landing (s : State) (c : Nat) :
    (enterRun s c).landing true = (s.setCirc c { s.circ c with st := .run, frestart := false }).landing true := by
  unfold enterRun
  dsimp only
  rw [stallWatch_landing, startEpoch_landing]
  simp

/-- A disabled circuit with EN set enters RUN (R260). -/
theorem afterCirc_enters {s : State} {c : Nat} (disabled : (s.circ c).st = .disabled) (enabled : cEn s c = true) (en : Bool) (bind : Word) :
    (afterCirc c en bind s).landing true = (s.setCirc c { s.circ c with st := .run, frestart := false }).landing true := by
  unfold afterCirc
  extract_lets same moved epoch s1 s2
  have entered : s1.landing true = (enterRun s c).landing true := by simp [s1, disabled, enabled]
  clear_value s1
  have watched : s2.landing true = s1.landing true := landing_forEach (fun t n => by simp) _ s1
  rw [allocEvents_landing, watchPool_landing, stallWatch_landing, watched, entered, enterRun_landing]

/-! ## The rules between fields -/

section
variable (k : Bool)

@[simp] theorem fixIf_landing {a : Nat} (h : commitWord a = false) (b : Bool) (lo wd v : Nat) (s : State) :
    (fixIf b a lo wd v s).landing k = s.landing k := by simp [fixIf, h]
@[simp] theorem portRule_landing (n : Nat) (s : State) : (portRule n s).landing k = s.landing k := by simp [portRule]
@[simp] theorem canRule_landing (ch : Nat) (s : State) : (canRule ch s).landing k = s.landing k := by
  unfold canRule
  dsimp only
  rw [landing_forEach fun t i => by simp]
  simp
@[simp] theorem quotaRule_landing (c r : Nat) (s : State) : (quotaRule c r s).landing k = s.landing k := by simp [quotaRule]
@[simp] theorem noteXclamp_landing (s : State) (a : Nat) : (noteXclamp s a).landing k = s.landing k := by simp [noteXclamp]

/-- Words put under a rule that leaves the words of commits: those words are what was put. -/
theorem putRuled_landing (s : State) (i : Inst) (words : List (Nat × Word × Word)) {rule : State → State}
    (h : (rule (putWords s words)).landing k = (putWords s words).landing k) : (putRuled s i words rule).landing k = (putWords s words).landing k :=
  (landing_forList (noteXclamp_landing k) _ _).trans h

end

/-! ## The words of an entry -/

/-- A word put once has its staged bits, and keeps the others. -/
theorem putWords_reg_put {s : State} {l : List (Nat × Word × Word)} (once : (l.map (·.1)).Nodup) {a : Nat} {m v : Word} (h : (a, m, v) ∈ l) :
    (putWords s l).reg a = (s.reg a &&& ~~~m) ||| (v &&& m) := by
  induction l generalizing s with
  | nil => simp at h
  | cons t l ih =>
    obtain ⟨first, once⟩ := List.nodup_cons.1 once
    rw [putWords_cons]
    rcases List.mem_cons.1 h with rfl | h
    · rw [putWords_reg_other (fun t ht e => first (List.mem_map.2 ⟨t, ht, e⟩)), State.reg_setReg, if_pos rfl]
    · have other : a ≠ t.1 := fun e => first (List.mem_map.2 ⟨_, h, e⟩)
      rw [ih once h, State.reg_setReg, if_neg other]
/-- A word put is the word that its entry announces. -/
theorem putWords_newWord (s : State) {e : Staged} (once : (e.words.map (·.1)).Nodup) (a : Nat) :
    (putWords s e.words).reg a = newWord s e a := by
  unfold newWord
  split
  · next b m v found =>
    have same : b = a := by simpa using List.find?_some found
    subst same
    exact putWords_reg_put once (List.mem_of_find?_eq_some found)
  · next missing => exact putWords_reg_other fun t ht same => by simpa [same] using List.find?_eq_none.1 missing t ht

/-! ## An entry ends (R149, R421) -/

/-- From `t` to `u` the one commit outstanding has ended: nothing is staged, GLB_EVT.DONE is set, HST_GEN has counted; no other word and no
circuit has changed. -/
structure Ended (t u : State) : Prop where
  staged : u.commit.staged = []
  done : u.bit 0x0B 3 = true
  gen : u.reg 0x409 = t.reg 0x409 + 1#32
  words : ∀ a, a ≠ 0x0B → a ≠ 0x409 → u.reg a = t.reg a
  circs : u.circs = t.circs

/-- Writes judged with nothing outstanding are done. -/
theorem doneChecks_nothing {s : State} (staged : s.commit.staged = []) (queued : s.commit.queued = []) {l : List Nat} (h : l ≠ []) :
    (forList l doneCheck s).bit 0x0B 3 = true := by
  obtain ⟨r, d, before, -⟩ := doneChecks_leave l.dropLast s
  have last : forList l doneCheck s = doneCheck (forList l.dropLast doneCheck s) (l.getLast h) := by
    conv => lhs; rw [← List.dropLast_append_getLast h]
    exact List.foldl_append
  rw [last]
  exact doneCheck_nothing (by rw [before, staged]) (by rw [before, queued]) _

theorem settleAll_finishEntry {t : State} {e : Staged} (staged : t.commit.staged = [e]) (queued : t.commit.queued = []) (writes : e.writes ≠ []) :
    Ended t (settleAll (finishEntry t e)) := by
  obtain ⟨r, d, leaves, words⟩ := doneChecks_leave e.writes ((t.withStaged []).countWrap 0x409)
  have finished : finishEntry t e = forList e.writes doneCheck ((t.withStaged []).countWrap 0x409) := finishEntry_front staged queued (by simp)
  have counted (a : Nat) : ((t.withStaged []).countWrap 0x409).reg a = if a = 0x409 then t.reg 0x409 + 1#32 else t.reg a :=
    State.reg_setReg _ _ _ _
  rw [finished, settleAll_of_none (by rw [leaves]; rfl)]
  refine ⟨by rw [leaves]; rfl, doneChecks_nothing (s := (t.withStaged []).countWrap 0x409) rfl queued writes, ?_, fun a h0B h409 => ?_, by rw [leaves]; rfl⟩
  · rw [words _ (by decide), counted, if_pos rfl]
  · rw [words _ h0B, counted, if_neg h409]

end Sys2Proof.Machine
end

section
/-! PROOF. The commands at whose boundaries a commit applies (O6; R145 to R150, R202, R260, R465). -/
namespace Sys2Proof.Machine

/-! ## The words of a block are different ones -/

theorem Inst.seq_nodup : (instAddrs .seq).Nodup := by decide
theorem Inst.mem_nodup : (instAddrs .mem).Nodup := by decide
theorem Inst.port_nodup (n : Nat) : (instAddrs (.port n)).Nodup :=
  List.Nodup.map (fun a b same => by unfold pAddr at same; omega) List.nodup_range
theorem Inst.circ_nodup (c : Nat) : (instAddrs (.circ c)).Nodup := by simp [instAddrs, cAddr]
/-- A CAN channel's words rise. -/
theorem Inst.cana_nodup : (instAddrs .cana).Nodup :=
  (List.isChain_iff_pairwise.1 (by decide +kernel : (instAddrs .cana).IsChain (· < ·))).imp Nat.ne_of_lt
theorem Inst.canb_nodup : (instAddrs .canb).Nodup :=
  (List.isChain_iff_pairwise.1 (by decide +kernel : (instAddrs .canb).IsChain (· < ·))).imp Nat.ne_of_lt

/-! ## One commit outstanding -/

/-- Commits apply, and `e` is the one outstanding. -/
structure OneStaged (s : State) (e : Staged) : Prop where
  runs : commitsRun s = true
  staged : s.commit.staged = [e]
  queued : s.commit.queued = []
  writes : e.writes ≠ []

namespace OneStaged
variable {s : State} {e : Staged} (h : OneStaged s e)
include h

theorem found : stagedOf s e.inst = some e := by simp [stagedOf, h.staged]
theorem other {i : Inst} (hi : e.inst ≠ i) : stagedOf s i = none := by simp [stagedOf, h.staged, hi]
theorem turn : inTurn s e = true := by simp [inTurn, h.staged, h.queued]

/-- An application that leaves the commits ends its entry. -/
theorem ends {t : State} (commit : t.commit = s.commit) : Ended t (settleAll (finishEntry t e)) :=
  settleAll_finishEntry (by rw [commit, h.staged]) (by rw [commit, h.queued]) h.writes

end OneStaged

/-- HST_GEN is no word that a commit stages. -/
theorem instAddrs_ne_gen (i : Inst) : ∀ a ∈ instAddrs i, a ≠ 0x409 := by
  cases i <;> simp [instAddrs, pAddr, cAddr, xAddr, chAddr, oAddr] <;> omega

/-- An entry whose application leaves the words of commits as put, and word `a` too, ends with the staged bits in that word. -/
theorem OneStaged.applies {s t u : State} {e : Staged} (h : OneStaged s e) (keys : e.words.map (fun w => w.1) = instAddrs e.inst)
    (once : (instAddrs e.inst).Nodup) (landing : t.landing false = (putWords s e.words).landing false) {a : Nat} {m v : Word}
    (has : e.words.find? (fun w => w.1 == a) = some (a, m, v)) (put : t.reg a = (putWords s e.words).reg a) (h0B : a ≠ 0x0B) (h409 : a ≠ 0x409)
    (eq : u = settleAll (finishEntry t e)) :
    u.commit.staged = [] ∧ u.bit 0x0B 3 = true ∧ u.reg 0x409 = s.reg 0x409 + 1#32 ∧ u.reg a &&& m = v &&& m := by
  obtain ⟨r, regs⟩ := putWords_eq s e.words
  have misses : ∀ w ∈ e.words, w.1 ≠ 0x409 := fun w hw => instAddrs_ne_gen e.inst _ (keys ▸ List.mem_map_of_mem hw)
  have gen : t.reg 0x409 = s.reg 0x409 := (State.reg_of_landing landing rfl).trans (putWords_reg_other misses)
  have ended : Ended t u := eq ▸ h.ends ((State.commit_of_landing landing).trans (by rw [regs]))
  refine ⟨ended.staged, ended.done, by rw [ended.gen, gen], ?_⟩
  rw [ended.words a h0B h409, put, putWords_reg_of_mem (by rw [keys]; exact once) (List.mem_of_find?_eq_some has)]

/-! ## SEQ and MEM (Table 5-2) -/

theorem exec_commitApply (i : Inst) (s : State) : exec (.commitApply i) s = .next (doApply s i) := rfl
theorem exec_portCommitApply (n : PortId) (s : State) : exec (.portCommitApply n) s = .next (doPortApply s n.val) := rfl
theorem exec_circuitCommitApply (c : CircId) (s : State) : exec (.circuitCommitApply c) s = .next (doCircuitApply s c.val) := rfl
theorem exec_canCommitApply (ch : ChanId) (s : State) : exec (.canCommitApply ch) s = .next (doCanApply s ch.val) := rfl

/-- Their words are put, and the entry ends. -/
theorem applyPlain_words {e : Staged} (inst : e.inst = .seq ∨ e.inst = .mem) (s : State) : applyPlain s e = finishEntry (putWords s e.words) e := by
  unfold applyPlain
  rcases inst with inst | inst <;> rw [inst]

section
variable {s : State} {e : Staged} (h : OneStaged s e)
include h

theorem commitApply_seq (inst : e.inst = .seq) (quiet : ∀ x, x < 64 → atInstr s x = true) :
    exec (.commitApply .seq) s = .next (settleAll (finishEntry (putWords s e.words) e)) := by
  have found : stagedOf s .seq = some e := inst ▸ h.found
  have boundary : plainAtBoundary s .seq = true := List.all_eq_true.2 fun x hx => quiet x (List.mem_range.1 hx)
  simp [exec_commitApply, doApply, found, h.runs, h.turn, boundary, applyPlain_words (.inl inst)]

theorem commitApply_mem (inst : e.inst = .mem) (idle : s.mem.active = none) (between : jnlBetween s = true) :
    exec (.commitApply .mem) s = .next (settleAll (finishEntry (putWords s e.words) e)) := by
  have found : stagedOf s .mem = some e := inst ▸ h.found
  have boundary : plainAtBoundary s .mem = true := by simp [plainAtBoundary, idle, between]
  simp [exec_commitApply, doApply, found, h.runs, h.turn, boundary, applyPlain_words (.inr inst)]

/-! ## A port and a CAN channel (R202, R465) -/

theorem portCommitApply_runs {n : PortId} (inst : e.inst = .port n) (quiet : (s.port n).rxBusy = false) (idle : (s.port n).tx = .idle) :
    exec (.portCommitApply n) s = .next (settleAll (finishEntry (afterPort s n (putRuled s (.port n) e.words (portRule n))) e)) := by
  have found : stagedOf s (.port n) = some e := inst ▸ h.found
  have noClk : stagedOf s .clk = none := h.other (by rw [inst]; nofun)
  have boundary : portAtBoundary s n e = true := by simp [portAtBoundary, noClk, quiet, idle]
  simp [exec_portCommitApply, doPortApply, found, h.runs, h.turn, boundary, applyPort]

theorem canCommitApply_runs {ch : ChanId} (inst : e.inst = (if ch = 0 then .cana else .canb)) (idle : (s.can ch).onBus = none) :
    exec (.canCommitApply ch) s = .next (settleAll (finishEntry (afterCan s ch (putRuled s e.inst e.words (canRule ch))) e)) := by
  have same : (if ch.val = 0 then Inst.cana else .canb) = e.inst := by
    rw [inst]
    exact if_congr Fin.val_eq_zero_iff rfl rfl
  rw [exec_canCommitApply, doCanApply, same, h.found]
  simp [h.runs, h.turn, canAtBoundary, idle, applyCan]

end

/-! ## A circuit (R259, R260) -/

/-- A circuit that holds no cell is quiet. -/
theorem circQuiet_of_empty {s : State} {c : Nat} (h : heldBy s c = 0) : circQuiet s c = true := by
  have none : ∀ x ∈ s.cells, ¬ (x.2.owner == .circ c) = true := by
    simpa [heldBy, countCells] using h
  simp only [circQuiet, countCells, beq_iff_eq, List.length_eq_zero_iff, List.filter_eq_nil_iff]
  intro x hx both
  rw [Bool.and_eq_true] at both
  exact none x hx both.1

/-- A binding that R7 and R258 allow is kept. -/
theorem bindRule_of_allowed {s : State} {c : Nat} (h : cKind s c = 1 ∧ present s (cPort s c) = true ∨
    cKind s c = 2 ∧ cRdev s c ≠ 0 ∧ cRdev s c ≠ 0xFFF ∨ cKind s c = 3) : bindRule c s = s := by
  rcases h with ⟨kind, port⟩ | ⟨kind, zero, all⟩ | kind
  · simp [bindRule, fixIf, kind, port]
  · simp [bindRule, fixIf, kind, zero, all]
  · simp [bindRule, fixIf, kind]

/-- The state with `l` for the trimmed reserves of the writes outstanding (R244). -/
def State.withTrimmed (s : State) (l : List (Nat × Nat × Nat)) : State := { s with commit := { s.commit with trimmed := l } }

/-- Trimming the reserves of a write is recorded among the commits, beside those outstanding. -/
theorem trimmedReserve_snd (s : State) (e : Staged) (c : Nat) :
    ∃ l, (trimmedReserve s e c).2 = s.withTrimmed l := by
  unfold trimmedReserve
  dsimp only
  split
  · exact ⟨s.commit.trimmed, rfl⟩
  · exact ⟨_, rfl⟩

/-- Words put under a rule that leaves the circuits leave them. -/
theorem putRuled_circs (s : State) (i : Inst) (words : List (Nat × Word × Word)) {rule : State → State}
    (h : (rule (putWords s words)).circs = (putWords s words).circs) : (putRuled s i words rule).circs = s.circs := by
  obtain ⟨r, put⟩ := putWords_eq s words
  refine (forList_kept (g := State.circs) (f := noteXclamp) (fun _ _ => rfl) _ _).trans (h.trans ?_)
  rw [put]
theorem quotaRule_circs (c r : Nat) (s : State) : (quotaRule c r s).circs = s.circs := by
  unfold quotaRule fixIf
  dsimp only
  split <;> rfl

section
variable {s : State} {e : Staged} {c : Nat} (once : (e.words.map (·.1)).Nodup)
  (bound : getF (newWord s e (cAddr c 1)) 0 2 = 1 ∧ present s (getF (newWord s e (cAddr c 1)) 4 4) = true ∨
    getF (newWord s e (cAddr c 1)) 0 2 = 2 ∧ getF (newWord s e (cAddr c 1)) 16 12 ≠ 0 ∧ getF (newWord s e (cAddr c 1)) 16 12 ≠ 0xFFF ∨
    getF (newWord s e (cAddr c 1)) 0 2 = 3)
include once

theorem cEn_putWords : cEn (putWords s e.words) c = (newWord s e (cAddr c 0)).getLsbD 0 := by
  rw [cEn, State.bit_eq_getLsbD, putWords_newWord s once]

include bound

/-- A circuit's fields with an allowed binding are the staged ones. -/
theorem bindRule_putWords : bindRule c (putWords s e.words) = putWords s e.words := by
  obtain ⟨r, put⟩ := putWords_eq s e.words
  have here (n : Nat) : present (putWords s e.words) n = present s n := by rw [put]; rfl
  refine bindRule_of_allowed ?_
  rw [cKind, cPort, cRdev, State.fld, State.fld, State.fld, putWords_newWord s once, here]
  exact bound

/-- The circuit stands at its cell boundary, and its application cuts nothing. -/
theorem not_leavesEn (enabled : (newWord s e (cAddr c 0)).getLsbD 0 = true) : leavesEn s c e = false := by
  rw [leavesEn, afterFields, bindRule_putWords once bound, cEn_putWords once, enabled]
  simp

/-- What a circuit's application is where its binding is allowed and it is not disabled by it: the words under the reserves' rule. -/
theorem applyCircOnly_enabled (enabled : (newWord s e (cAddr c 0)).getLsbD 0 = true) :
    ∃ l u en bind, applyCircOnly s c e = finishEntry (afterCirc c en bind u) e ∧ u.circs = s.circs ∧
      u.landing true = (putWords (s.withTrimmed l) e.words).landing true := by
  obtain ⟨l, trimmed⟩ := trimmedReserve_snd s e c
  have noCut : cutsBy (s.withTrimmed l) c e = false := by
    rw [cutsBy, not_leavesEn (s := s.withTrimmed l) once bound enabled]
    rfl
  have rule : (quotaRule c (trimmedReserve s e c).1 (bindRule c (putWords (s.withTrimmed l) e.words))) =
      quotaRule c (trimmedReserve s e c).1 (putWords (s.withTrimmed l) e.words) :=
    congrArg _ (bindRule_putWords (s := s.withTrimmed l) once bound)
  refine ⟨l, ctxEvent (putRuled (s.withTrimmed l) (.circ c) e.words
    fun s' => quotaRule c (trimmedReserve s e c).1 (bindRule c s')) c 12, cEn s c, s.reg (cAddr c 1), ?_, ?_, ?_⟩
  · unfold applyCircOnly
    rw [show trimmedReserve s e c = ((trimmedReserve s e c).1, s.withTrimmed l) from Prod.ext rfl trimmed]
    dsimp only
    rw [if_neg (by rw [noCut]; decide)]
  · refine (putRuled_circs _ _ _ ?_).trans rfl
    rw [rule, quotaRule_circs]
  · refine (ctxEvent_landing true _ c 12).trans (putRuled_landing true _ _ _ ?_)
    rw [rule, quotaRule_landing]

end

/-- CIRCUIT_COMMIT_APPLY at the cell boundary of a disabled circuit without cells applies the entry alone: no context shares its write. -/
theorem circuitCommitApply_runs {s : State} {e : Staged} (h : OneStaged s e) {c : CircId} (inst : e.inst = .circ c)
    (disabled : (s.circ c).st = .disabled) (empty : heldBy s c = 0) (stays : leavesEn s c e = false) :
    exec (.circuitCommitApply c) s = .next (settleAll (applyCircOnly s c e)) := by
  have found : stagedOf s (.circ c) = some e := inst ▸ h.found
  have alone : joinedCtx s c e = none := by rw [joinedCtx, h.other (by rw [inst]; nofun)]; rfl
  have boundary : circAtBoundary s c e = true := by simp [circAtBoundary, stays, disabled, circQuiet_of_empty empty]
  have ready : unitReady s c e = true := by rw [unitReady, alone]
  simp [exec_circuitCommitApply, doCircuitApply, found, h.runs, h.turn, boundary, ready, applyCirc, alone]

/-- A disabled circuit whose commit sets EN with an allowed binding is in RUN once the commit has ended (R258, R260). -/
theorem OneStaged.enters {s t : State} {e : Staged} (h : OneStaged s e) {c : CircId} (once : (e.words.map (·.1)).Nodup)
    (keys : e.words.map (fun w => w.1) = instAddrs e.inst) (disabled : (s.circ c).st = .disabled)
    (enabled : (newWord s e (cAddr c 0)).getLsbD 0 = true)
    (bound : getF (newWord s e (cAddr c 1)) 0 2 = 1 ∧ present s (getF (newWord s e (cAddr c 1)) 4 4) = true ∨
      getF (newWord s e (cAddr c 1)) 0 2 = 2 ∧ getF (newWord s e (cAddr c 1)) 16 12 ≠ 0 ∧ getF (newWord s e (cAddr c 1)) 16 12 ≠ 0xFFF ∨
      getF (newWord s e (cAddr c 1)) 0 2 = 3) (eq : t = settleAll (applyCircOnly s c e)) :
    t.commit.staged = [] ∧ t.bit 0x0B 3 = true ∧ t.reg 0x409 = s.reg 0x409 + 1#32 ∧ (t.circ c).st = .run ∧ cEn t c = true := by
  have misses : ∀ w ∈ e.words, w.1 ≠ 0x409 := fun w hw => instAddrs_ne_gen e.inst _ (keys ▸ List.mem_map_of_mem hw)
  have en : commitWord (cAddr c 0) = true := commitWord_en c.isLt
  obtain ⟨l, u, was, bind, applied, circs, landing⟩ := applyCircOnly_enabled once bound enabled
  obtain ⟨r, put⟩ := putWords_eq (s.withTrimmed l) e.words
  have words {a : Nat} (ha : commitWord a = true) : u.reg a = newWord s e a :=
    (State.reg_of_landing landing ha).trans (putWords_newWord (s.withTrimmed l) once a)
  have still : (u.circ c).st = .disabled := by rw [State.circ, circs]; exact disabled
  have enters := afterCirc_enters still (by rw [cEn, State.bit_eq_getLsbD, words en, enabled]) was bind
  have commit : (afterCirc c was bind u).commit = (s.withTrimmed l).commit :=
    (State.commit_of_landing enters).trans ((State.commit_of_landing landing).trans (by rw [put]))
  have ended := settleAll_finishEntry (t := afterCirc c was bind u) (e := e) (by rw [commit]; exact h.staged)
    (by rw [commit]; exact h.queued) h.writes
  have after {a : Nat} (ha : commitWord a = true) : (afterCirc c was bind u).reg a = newWord s e a :=
    (State.reg_of_landing enters ha).trans (words ha)
  have gen : newWord s e 0x409 = s.reg 0x409 := (putWords_newWord s once _).symm.trans (putWords_reg_other misses)
  rw [eq, applied]
  refine ⟨ended.staged, ended.done, by rw [ended.gen, after rfl, gen], ?_, ?_⟩
  · rw [State.circ, ended.circs]
    exact State.run_of_landing enters c (by rw [State.circ_setCirc, if_pos rfl])
  · rw [cEn, State.bit_eq_getLsbD, ended.words _ (by simp) (by simp), after en, enabled]

/-! ## COMMIT_SLOW (R150) -/

theorem commitSlow_runs {s : State} {e : Staged} (h : OneStaged s e) (fresh : e.slow = false) (limit : s.fld 0x0A 0 8 ≠ 0) :
    ∃ t, exec (.commitSlow e.inst) s = .next t ∧ t.commit.staged = [{ e with slow := true }] ∧ t.bit 0x0B 2 = true ∧
      t.fld 0x09 16 16 = min (s.fld 0x09 16 16 + 1) 65535 := by
  have run : exec (.commitSlow e.inst) s = .next (journal (((s.withStaged [{ e with slow := true }]).count 0x09 16 16).setBit 0x0B 2) 0x2A 0
      [BitVec.ofNat 8 (instBlock e.inst)]) := by
    show execCommitSlow e.inst s = _
    rw [execCommitSlow, h.found]
    simp [fresh, limit, h.staged, State.withStaged]
  refine ⟨_, run, by rw [journal_commit]; rfl, ?_, ?_⟩
  · rw [State.bit_of_reg (journal_reg _ _ _ _ (by unfold recordWords; decide))]
    exact State.bit_setBit_same _ _ _ _ (by decide)
  · rw [State.fld_of_reg (journal_reg _ _ _ _ (by unfold recordWords; decide)), State.fld_of_reg (State.reg_setBit_other _ _ _ _ (by decide)),
      State.fld_count_same _ _ _ _ (by decide), satInc_sixteen]
    rfl

/-! ## The obligation -/

/-- Settles O6: with one commit outstanding each boundary applies it, and its end leaves nothing staged (`Ended`); what an application
does beside the words it puts leaves the words that show it (`State.landing`). -/
theorem commitsApply : Obligations.CommitsApply := by
  unfold Obligations.CommitsApply
  intro s e n c ch m v done has mantled relock awake staged queued writes keys
  have h : OneStaged s e := ⟨by simp [commitsRun, mantled, relock, awake], staged, queued, writes⟩
  refine ⟨fun inst quiet word => ?seq, fun inst idle between word => ?mem, fun inst quiet idle word => ?port,
    fun inst disabled empty enabled bound => ?circ, fun inst idle word => ?can, fun fresh limit => commitSlow_runs h fresh limit⟩
  case seq => exact ⟨_, commitApply_seq h inst quiet, h.applies keys (inst ▸ Inst.seq_nodup) rfl word rfl (by decide) (by decide) rfl⟩
  case mem => exact ⟨_, commitApply_mem h inst idle between, h.applies keys (inst ▸ Inst.mem_nodup) rfl word rfl (by decide) (by decide) rfl⟩
  case port =>
    have landing := (afterPort_landing s n.isLt (putRuled s (.port n) e.words (portRule n))).trans
      (putRuled_landing false s _ _ (portRule_landing ..))
    have baud := State.reg_of_landing landing (commitWord_baud n.isLt)
    exact ⟨_, portCommitApply_runs h inst quiet idle, h.applies keys (inst ▸ Inst.port_nodup n) landing word baud (by simp) (by simp) rfl⟩
  case circ =>
    have once : (e.words.map (·.1)).Nodup := by
      rw [keys, inst]
      exact Inst.circ_nodup c
    exact ⟨_, circuitCommitApply_runs h inst disabled empty (not_leavesEn once bound enabled), h.enters once keys disabled enabled bound rfl⟩
  case can =>
    have once : (instAddrs e.inst).Nodup := by
      rw [inst]
      split
      · exact Inst.cana_nodup
      · exact Inst.canb_nodup
    have landing := (afterCan_landing s ch (putRuled s e.inst e.words (canRule ch))).trans
      (putRuled_landing false s _ _ (canRule_landing ..))
    have timing := State.reg_of_landing landing (commitWord_timing ch)
    exact ⟨_, canCommitApply_runs h inst idle, h.applies keys once landing word timing (by simp) (by simp) rfl⟩

end Sys2Proof.Machine
end

section
/-! PROOF. A frame for the ports (O37, O38): what frees, records, control packets, faults and trunks leave of the ports, of their words, and of
the sleeve counters. -/
namespace Sys2Proof.Machine

/-! ## What is left -/

/-- A word of the ports or of the UART trunks' ports, or, where `k` says so, a counter of sleeve failures at points 0 and 5. -/
def lineWord (k : Bool) (a : Nat) : Bool :=
  decide (0x800 ≤ a ∧ a < 0xC00) || decide (0x4008 ≤ a ∧ a < 0x400C) || (k && (a == 0x2011 || a == 0x2013))

/-- A port without what cells freed and allocated elsewhere may change of it: flow control, the continuation mark, and a held character
that waits for a verdict. -/
def Port.own (p : Port) : Port := { p with rts := false, flowQ := none, lastXoff := false, sinceXoff := 0, contOf := none, txHold := none }

/-- A port becomes one that differs in those only, and takes no character to send. -/
structure Port.Near (p q : Port) : Prop where
  own : q.own = p.own
  held : p.txHold = none → q.txHold = none

theorem Port.Near.refl (p : Port) : p.Near p := ⟨rfl, id⟩
theorem Port.Near.trans {p q r : Port} (h : p.Near q) (k : q.Near r) : p.Near r := ⟨k.own.trans h.own, k.held ∘ h.held⟩
theorem Port.Near.field {p q : Port} (h : p.Near q) {α : Type} {g : Port → α} (unused : ∀ p : Port, g p.own = g p) : g q = g p := by
  rw [← unused q, h.own, unused p]

/-- From `s` to `t` the words of the ports stay, no circuit gains a cell, and every port stays near. -/
structure Aside (k : Bool) (s t : State) : Prop where
  words : ∀ a, lineWord k a = true → t.reg a = s.reg a
  cells : ∀ i c, (t.cell i).owner = .circ c → (s.cell i).owner = .circ c
  ports : ∀ n, (s.port n).Near (t.port n)

/-! ## Words that are none of a port's -/

theorem lineWord_eq_false {k : Bool} {a : Nat} : lineWord k a = false ↔
    ¬ (0x800 ≤ a ∧ a < 0xC00) ∧ ¬ (0x4008 ≤ a ∧ a < 0x400C) ∧ (k = true → a ≠ 0x2011 ∧ a ≠ 0x2013) := by
  cases k <;> simp [lineWord, and_assoc]
/-- The words of other blocks, the sleeve counters apart. -/
@[simp] theorem lineWord_elsewhere (k : Bool) {a : Nat} (h : a < 0x800 ∨ 0x2014 ≤ a ∧ a < 0x4008 ∨ 0x400C ≤ a) : lineWord k a = false :=
  lineWord_eq_false.2 (by omega)
@[simp] theorem lineWord_low_shared (k : Bool) {a : Nat} (h : 0x2000 ≤ a) (h' : a < 0x2011) : lineWord k a = false := lineWord_eq_false.2 (by omega)
/-- A circuit's words where failures, refusals and what it discarded are not counted, even those of a circuit that no device has. -/
@[simp] theorem lineWord_cAddr (k : Bool) (c : Nat) {w : Nat} (h : w < 64 ∧ (w < 8 ∨ 0xC ≤ w) ∧ w ≠ 0x11 ∧ w ≠ 0x13) :
    lineWord k (cAddr c w) = false := lineWord_eq_false.2 (by unfold cAddr; omega)
@[simp] theorem lineWord_discarded (c : Nat) : lineWord false (cAddr c 0x13) = false :=
  lineWord_eq_false.2 ⟨by unfold cAddr; omega, by unfold cAddr; omega, nofun⟩
/-- The words of the circuits and contexts that there are. -/
theorem lineWord_circ (k : Bool) {c w : Nat} (h : c < 64) (h' : w < 64) : lineWord k (cAddr c w) = false :=
  lineWord_eq_false.2 (by unfold cAddr; omega)
theorem lineWord_ctx (k : Bool) {x w : Nat} (h : x < 64) (h' : w < 16) : lineWord k (xAddr x w) = false :=
  lineWord_eq_false.2 (by unfold xAddr; omega)
theorem lineWord_port (k : Bool) {n w : Nat} (h : n < 16) (h' : w < 64) : lineWord k (pAddr n w) = true := by
  have inBlock : 0x800 ≤ pAddr n w ∧ pAddr n w < 0xC00 := by
    unfold pAddr
    omega
  simp [lineWord, inBlock]

namespace Aside
variable {k : Bool} {s t u : State}

theorem refl (k : Bool) (s : State) : Aside k s s := ⟨fun _ _ => rfl, fun _ _ => id, fun _ => .refl _⟩
theorem trans (h : Aside k s t) (h' : Aside k t u) : Aside k s u :=
  ⟨fun a w => (h'.words a w).trans (h.words a w), fun i c => h.cells i c ∘ h'.cells i c, fun n => (h.ports n).trans (h'.ports n)⟩

/-! ## The state's parts -/

section
variable (h : Aside k s t)
include h

/-- A change of fields that hold neither registers, cells nor ports. -/
theorem same (regs : u.regs = t.regs) (cells : u.cells = t.cells) (ports : u.ports = t.ports) : Aside k s u := by
  refine h.trans ⟨fun a _ => State.reg_of_regs regs a, fun i c => ?_, fun n => ?_⟩
  · rw [State.cell, cells]
    exact id
  · rw [show u.port n = t.port n by rw [State.port, ports]; rfl]
    exact .refl _
theorem update {pending chip fresh hold ext power boot strap shadow commit circs ctxs outQ credits ctlWait fab canA canB tim pool sup jnl mem
    jwrite host mbx seq} :
    Aside k s ⟨pending, chip, fresh, hold, ext, power, boot, strap, t.regs, shadow, commit, t.cells, circs, t.ports, ctxs, outQ, credits,
      ctlWait, fab, canA, canB, tim, pool, sup, jnl, mem, jwrite, host, mbx, seq⟩ := h.same rfl rfl rfl
theorem setCirc (c : Nat) (x : Circ) : Aside k s (t.setCirc c x) := h.update
theorem setCtx (x : Nat) (y : Ctx) : Aside k s (t.setCtx x y) := h.update
theorem ctxEvent (x b : Nat) : Aside k s (ctxEvent t x b) := h.update
theorem setReg {a : Nat} (ha : lineWord k a = false) (w : Word) : Aside k s (t.setReg a w) := by
  refine h.trans ⟨fun b hb => ?_, fun _ _ => id, fun _ => .refl _⟩
  rw [State.reg_setReg, if_neg]
  rintro rfl
  simp [ha] at hb
theorem setFld {a : Nat} (ha : lineWord k a = false) (lo wd v : Nat) : Aside k s (t.setFld a lo wd v) := h.setReg ha _
theorem setBit {a : Nat} (ha : lineWord k a = false) (i : Nat) (b : Bool := true) : Aside k s (t.setBit a i b) := h.setReg ha _
theorem count {a : Nat} (ha : lineWord k a = false) (lo wd : Nat) : Aside k s (t.count a lo wd) := h.setReg ha _
theorem countBy {a : Nat} (ha : lineWord k a = false) (lo wd n : Nat) : Aside k s (t.countBy a lo wd n) := h.setReg ha _
/-- A cell that no circuit has taken. -/
theorem setCell {i : Nat} {x : Cell} (own : ∀ c, x.owner = .circ c → (t.cell i).owner = .circ c) : Aside k s (t.setCell i x) := by
  refine h.trans ⟨fun _ _ => rfl, fun j c => ?_, fun _ => .refl _⟩
  rw [State.cell_setCell]
  split
  · next here => exact here ▸ own c
  · exact id
theorem setPort {n : Nat} {p : Port} (near : (t.port n).Near p) : Aside k s (t.setPort n p) := by
  refine h.trans ⟨fun _ _ => rfl, fun _ _ => id, fun m => ?_⟩
  rw [State.port_setPort]
  split
  · next here => exact here ▸ near
  · exact .refl _
theorem ite {c : Prop} [Decidable c] (h' : Aside k s u) : Aside k s (if c then t else u) := by split <;> assumption

end

theorem forList {α : Type} {f : State → α → State} (step : ∀ t a, Aside k s t → Aside k s (f t a)) (l : List α) (h : Aside k s t) :
    Aside k s (forList l f t) := by
  unfold Machine.forList
  induction l generalizing t with
  | nil => exact h
  | cons a l ih => exact ih (step t a h)
theorem forEach {n : Nat} {f : State → Nat → State} (step : ∀ t i, i < n → Aside k s t → Aside k s (f t i)) (h : Aside k s t) :
    Aside k s (forEach n f t) :=
  List.foldlRecOn _ _ h fun u hu i hi => step u i (List.mem_range.1 hi) hu

/-! ## Records and faults -/

end Aside

/-- A free cell is free. -/
theorem firstFree_free {s : State} {n i j : Nat} (h : firstFree s n i = some j) : (s.cell j).owner = .free := by
  induction n generalizing i with
  | zero => cases h
  | succ n ih =>
    unfold firstFree at h
    dsimp only at h
    split at h
    · next free =>
      cases h
      simp_all
    · exact ih h
theorem pickFree_free {s : State} {j : Nat} (h : pickFree s = some j) : (s.cell j).owner = .free := by
  unfold pickFree at h
  dsimp only at h
  split at h
  · next free =>
    cases h
    simp_all
  · exact firstFree_free h

/-- A sleeve failure at `point` of Table 8-3 is counted. -/
def sleeveCount (s : State) (point : Nat) : State :=
  match point with
  | 0 => s.count 0x2011 0 16 | 1 => s.count 0x2011 16 16 | 2 => s.count 0x2012 0 16
  | 3 => s.count 0x2012 16 16 | 4 => s.count 0x2013 0 16 | _ => s.count 0x2013 16 16

/-- Cell `i` as a free leaves it (R241, R293). -/
def State.emptied (s : State) (i : Nat) : State :=
  s.setCell i { retired := (s.cell i).retire || (s.cell i).retired, corrected := (s.cell i).corrected,
                cause := match (s.cell i).owner with | .circ _ => if (s.cell i).st == .openS then 7 else 0 | _ => 0 }

namespace Aside
variable {k : Bool} {s t u : State}

theorem allocSys (h : Aside k s t) (v : SysUse) : Aside k s (allocSys t v).2 := by
  unfold Machine.allocSys
  split
  · refine update (h.setCell ?_)
    exact nofun
  · exact (h.count (by simp) 0 16).setBit (by simp) 3

section
variable (h : Aside k s t)
include h

theorem loseRecord : Aside k s (loseRecord t) := (h.count (by simp) 16 16).setBit (by simp) 0
theorem stageRecord (r : JRec) : Aside k s (stageRecord t r) := by
  have drawn := h.allocSys .jnl
  unfold Machine.stageRecord
  split
  · exact h.loseRecord
  · split <;> (next eq => rw [eq] at drawn; exact drawn.update)
theorem journalStruct (typ src : Nat) (p : List Byte) : Aside k s (journalStruct t typ src p) := h.stageRecord _
theorem journal (typ src : Nat) (p : List Byte) : Aside k s (journal t typ src p) := by
  unfold Machine.journal
  dsimp only
  split
  · exact h.stageRecord _
  · split
    · exact h.loseRecord
    · exact h.update.stageRecord _
theorem showFault : Aside k s (showFault t) := h.setFld (by simp) 12 4 _
theorem raiseFault (code : Nat) : Aside k s (raiseFault t code) := by
  have raised := ((h.setBit (a := 0x300) (by simp) (code - 1)).setBit (a := 0x301) (by simp) (code - 1)).setBit (a := 0x302) (by simp) 8
  exact h.ite (raised.showFault.ite raised)

/-! ## Control packets and credits -/

theorem queueCtl {p : Pkt} {n : Option Nat} (sent : queueCtl t p n = some u) : Aside k s u := by
  have drawn := h.allocSys .ctl
  unfold Machine.queueCtl at sent
  split at sent
  · next i v eq =>
    rw [eq] at drawn
    cases sent
    exact (drawn.setCell (x := { v.cell i with tomb := p.typ == 4 }) fun _ => id).update
  · cases sent
theorem sendPkt (p : Pkt) (n : Option Nat) : Aside k s (sendPkt t p n) := by
  unfold Machine.sendPkt
  split
  · next sent => exact h.queueCtl sent
  · exact (h.allocSys .ctl).update
theorem sendCtl (typ dst dcirc scirc : Nat) (body : List Byte) : Aside k s (sendCtl t typ dst dcirc scirc body) := by
  unfold Machine.sendCtl
  exact h.update.ite (h.sendPkt _ _)
theorem addCredits (c n : Nat) : Aside k s (addCredits t c n) := by
  have added := (h.setCirc c { t.circ c with credits := min ((t.circ c).credits + n) (cInit t c) }).countBy
    (a := cAddr c 0x14) (by simp) 16 16 ((t.circ c).credits + n - cInit t c)
  exact (added.ctxEvent c 5).ite added
theorem creditLocal (c q : Nat) : Aside k s (creditLocal t c q) := h.ite (h.addCredits c 1)
theorem sendCredit (e : CreditEntry) (g r : Nat) : Aside k s (sendCredit t e g r) := h.sendCtl ..
theorem oweCredit (owner origin q : Nat) : Aside k s (oweCredit t owner origin q) := by
  unfold Machine.oweCredit
  dsimp only
  split
  · exact h.creditLocal _ _
  · split
    · exact (h.update.sendCredit _ _ _).ite h.update
    · exact (h.sendCredit _ _ _).ite h.update
theorem serveSysWait : Aside k s (serveSysWait t) := by
  unfold Machine.serveSysWait
  split
  · next p n l _ =>
    cases sent : Machine.queueCtl { t with ctlWait := l } p n with
    | none => exact h
    | some u => exact h.update.queueCtl sent
  · dsimp only
    split
    · exact h
    · exact (h.update.stageRecord _).ite h

/-! ## Flow control (R210, R213) -/

/-- Flow control changes nothing of a port but its own. -/
theorem setFlow (n : Nat) (rts last : Bool) (q : Option Bool) (since : Nat) :
    Aside k s (t.setPort n { t.port n with rts := rts, flowQ := q, lastXoff := last, sinceXoff := since }) := h.setPort ⟨rfl, id⟩
theorem flowOff (n : Nat) : Aside k s (flowOff t n) := by
  unfold Machine.flowOff
  dsimp only
  exact h.ite ((h.setFlow n ..).ite (h.ite ((h.setFlow n ..).ite (h.ite (h.setFlow n ..)))))
theorem flowOn (n : Nat) : Aside k s (flowOn t n) := by
  unfold Machine.flowOn
  extract_lets _ u p
  have begun : Aside k s u := (h.setFlow n ..).ite h
  exact begun.ite ((begun.setFlow n ..).ite (begun.ite ((begun.setFlow n ..).ite (begun.setFlow n ..))))
theorem flowWatch (c : Nat) (alloc : Bool) : Aside k s (flowWatch t c alloc) :=
  h.forEach fun _ n _ hu => ((hu.flowOff n).ite (hu.flowOn n)).ite hu

/-! ## Cells freed -/

theorem watchPool : Aside k s (watchPool t) := by
  unfold Machine.watchPool
  dsimp only
  have low := h.setBit (a := 0x2006) (by simp) 2
  exact update (ite ((low.ite h).setBit (by simp) 1) (low.ite h))
theorem noteRetired : Aside k s (noteRetired t) := by
  unfold Machine.noteRetired
  extract_lets u v pool w x
  have counted : Aside k s v := ((h.setFld (a := 0x2004) (by simp) 0 12 _).setBit (a := 0x2006) (by simp) 4).watchPool
  have degraded : Aside k s x := (counted.update.setBit (a := 0x201C) (by simp) 5).raiseFault 5
  exact (degraded.journal ..).ite counted
theorem dropHeldChar (x : Nat) : Aside k s (dropHeldChar t x) := by
  refine h.forEach fun u n _ hu => ?_
  split
  · have dropped : Aside k s (u.setPort n { u.port n with txHold := none }) := hu.setPort ⟨rfl, fun _ => rfl⟩
    exact (dropped.ctxEvent x 1).ite hu
  · exact hu
theorem dropRefs (c i : Nat) : Aside k s (dropRefs t c i) := by
  unfold Machine.dropRefs
  extract_lets x u host v y mine held st stopped w
  have cut : Aside k s u := h.setCirc c _
  have stale : Aside k s v := cut.update
  have dropped : Aside k s w := stale.setCtx c _
  exact (dropped.dropHeldChar c).ite dropped
theorem allocEvents : Aside k s (allocEvents t) := h.forEach fun _ x _ hu => ((hu.setCtx x _).ctxEvent x 9).ite hu
theorem stallWatch (c : Nat) : Aside k s (stallWatch t c) := h.setCirc c _
theorem stopAtBoundary (x : Nat) : Aside k s (stopAtBoundary t x) := (h.setCtx x _).ite (h.setCtx x _)
theorem drainEnd (c : Nat) : Aside k s (drainEnd t c) := (((h.setCirc c _).stopAtBoundary c).setBit (by simp) 1).ite h
theorem drainCheck (c : Nat) : Aside k s (drainCheck t c) := h.ite (h.drainEnd c)
end
/-- What follows once the cell is free. -/
theorem released {i : Nat} (freed : Aside k s (t.emptied i)) : Aside k s (releaseCell t i) := by
  unfold Machine.releaseCell
  extract_lets x cause u v
  have retired : Aside k s v := (noteRetired freed).ite freed
  clear_value v
  split
  · exact retired
  · exact retired.serveSysWait
  · next c _ =>
    have dropped := retired.dropRefs c i
    exact (((((dropped.oweCredit c _ _).ite dropped).flowWatch c false).watchPool.stallWatch c).drainCheck c).allocEvents

section
variable (h : Aside k s t)
include h

theorem releaseCell (i : Nat) : Aside k s (releaseCell t i) := released (h.setCell nofun)
theorem freeOpen (c : Nat) : Aside k s (freeOpen t c).2 := h.forList (fun _ i hu => hu.releaseCell i) _

/-! ## Faults and sleeve failures -/

theorem faultCirc {c : Nat} (hc : c < 64) : Aside k s (faultCirc t c) := by
  unfold Machine.faultCirc
  split
  · exact h
  · exact h.setBit (by simp) 3
  · exact (((h.setCirc c _).freeOpen c).countBy (lineWord_circ k hc (by decide)) 16 16 _).setBit (by simp) 3
theorem ctxFaultC {x : Nat} (hx : x < 64) (code : Nat) : Aside k s (ctxFaultC t x code) := by
  unfold Machine.ctxFaultC
  extract_lets y s1 pc s2 s3 recent stamp kept s4 s5
  have placed : Aside k s s2 := (h.setFld (lineWord_ctx k hx (by decide)) 8 4 code).setFld (lineWord_ctx k hx (by decide)) 0 23 pc
  have counted : Aside k s s3 := (placed.count (lineWord_ctx k hx (by decide)) 24 8).setBit (by simp) 2
  have stopped : Aside k s s4 := counted.setCtx x _
  have noted : Aside k s s5 := stopped.ite (stopped.journal ..)
  exact h.ite (noted.faultCirc hx)
end
/-- Beside its count, a sleeve failure changes no sleeve counter. -/
theorem sleeveFail {c : Nat} (hc : c < 64) {point : Nat} (counted : Aside k s (sleeveCount t point)) (i : Nat) (un : Bool) (v w : Word) :
    Aside k s (sleeveFail t point c i un v w) := by
  unfold Machine.sleeveFail
  extract_lets s1 s2 s3 recent pool s4 pool' s5 s6
  have noted : Aside k s s2 := Aside.setBit (t := s1) counted (by simp) 0
  have placed : Aside k s s3 := (((noted.setFld (a := 0x2014) (by simp) 0 3 point).setFld (a := 0x2014) (by simp) 8 6 c).setFld
    (a := 0x2014) (by simp) 16 12 i).setBit (by simp) 31
  have timed : Aside k s s4 := placed.update
  have dated : Aside k s s5 := timed.update
  have recorded : Aside k s s6 := timed.ite (dated.journal ..)
  have faulted : Aside k s (ctxFault s6 c 10) := by
    rw [ctxFault, if_pos hc]
    exact recorded.ctxFaultC hc 10
  exact faulted.ite recorded

/-! ## Cells closed (R236, R267) -/

section
variable (h : Aside k s t)
include h

theorem setTxseq (c adv : Nat) : Aside k s (setTxseq t c adv) := by
  unfold Machine.setTxseq
  extract_lets x n u jw v
  have advanced : Aside k s u := h.setCirc c _
  have marked : Aside k s v := advanced.update
  exact (marked.journalStruct ..).ite advanced
theorem enqueueCell (c i : Nat) (viaWcur : Bool) : Aside k s (enqueueCell t c i viaWcur) := by
  unfold Machine.enqueueCell
  extract_lets x u v
  have boxed : Aside k s u := h.setCirc c _
  have put : Aside k s v := ((boxed.ctxEvent c 4).ite boxed).ite (h.setCirc c _)
  exact put.stallWatch c
theorem closeCellAs (i c cause : Nat) (w : Word) : Aside k s (closeCellAs t i c cause w).2 := by
  unfold Machine.closeCellAs
  extract_lets x y u v
  have closed : Aside k s u := h.setCell fun _ => id
  have counted : Aside k s v := closed.setCirc c _
  split
  · exact h.releaseCell i
  · exact counted.setTxseq c 1
theorem closeCell (i c cause : Nat) : Aside k s (closeCell t i c cause) := by
  have closed := h.closeCellAs i c cause (crc32c (t.cell i).payload)
  unfold Machine.closeCell
  split
  · next eq =>
    rw [eq] at closed
    exact closed.enqueueCell ..
  · next eq =>
    rw [eq] at closed
    exact closed

end

section
variable (h : Aside false s t)
include h

theorem closeRx (i c cause : Nat) : Aside false s (closeRx t i c cause) :=
  ((h.releaseCell i).count (by simp) 16 16).ite (h.closeCell i c cause)
theorem closeAllRx (n cause : Nat) : Aside false s (closeAllRx t n cause) := by
  refine setPort (forList (fun u e hu => ?_) _ h) ⟨rfl, id⟩
  split
  · exact hu.closeRx ..
  · exact hu

/-! ## Trunks go up and down -/

theorem setQuality (q : Quality) : Aside false s (setQuality t q) := by
  unfold Machine.setQuality
  split
  · exact h
  · extract_lets old u v tim w
    have lowered : Aside false s w := (Aside.update (Aside.update h)).ite (Aside.update h)
    exact (lowered.setBit (a := 0x480D) (by simp) 1).journal ..
theorem capLocked : Aside false s (capLocked t) := (h.setQuality _).ite h
theorem refGone : Aside false s (refGone t) := by
  have slow : Aside false s (putFreq (modTim t fun x => { x with p := 0, prev := none, acc := [], outliers := [], good := 0 })) :=
    setReg (update h) (by simp) _
  unfold Machine.refGone
  extract_lets u hold v
  have lost : Aside false s v := Aside.update slow
  exact (lost.setQuality .holdover).ite lost
theorem reselect : Aside false s (reselect t) := by
  unfold Machine.reselect
  extract_lets u n v hold w
  have capped : Aside false s u := h.capLocked
  have chosen : Aside false s v := setBit (update capped) (by simp) 3
  have placed : Aside false s w := capped.ite (chosen.refGone.ite chosen.update)
  exact placed.capLocked.update
theorem twinStandby : Aside false s (twinStandby t) := by
  unfold Machine.twinStandby
  refine forEach (fun u c _ hu => ite ?_ hu) h.update
  exact (hu.forList (fun _ i hv => hv.releaseCell i) _).countBy (by simp) 16 16 _
theorem twinWatch : Aside false s (twinWatch t) := by
  unfold Machine.twinWatch
  split
  · exact h
  · split
    · split
      · exact h.ite h.update.twinStandby
      · exact h.update
      · exact h
    · exact h
theorem putRoute (i : Nat) (r : Route) : Aside false s (putRoute t i r) := by
  unfold Machine.putRoute
  extract_lets old u new marked fab v w
  have put : Aside false s u := h.update
  have noted : Aside false s v := (update (put.setBit (a := 0x4010) (by simp) 4)).ite put
  exact ((update noted).ite noted).twinWatch
theorem failBest (i : Nat) : Aside false s (failBest t i) := by
  unfold Machine.failBest
  dsimp only
  split
  · exact h
  · split
    · exact h.putRoute i _
    · exact (h.putRoute i _).setBit (by simp) 5
theorem failPaths (gone : RPath → Bool) : Aside false s (failPaths t gone) :=
  h.forList (fun _ i hu => (failBest (update hu) i).ite (update hu)) _
theorem loseNbr (j : Nat) : Aside false s (loseNbr t j) := by
  unfold Machine.loseNbr
  extract_lets n u v w
  have gone : Aside false s u := setBit (update h) (by simp) 3
  have noted : Aside false s v := gone.journal ..
  exact h.ite ((noted.reselect.ite noted).failPaths _)
theorem trunkDown (j : Nat) (c : DownCause) : Aside false s (trunkDown t j c) := by
  unfold Machine.trunkDown
  extract_lets trunk u v js w x cut fix
  have down : Aside false s u := h.update
  have noted : Aside false s v := (down.setBit (a := 0x4010) (by simp) 6).journal ..
  have lost : Aside false s w := noted.forList (fun _ i hy => hy.loseNbr i) js
  exact (lost.failPaths _).update
theorem trunkUp (j : Nat) : Aside false s (trunkUp t j) := by
  have up : Aside false s ((t.setTrunk j { t.trunk j with up := true, lock := .hunt, rx := [], rxT := [], tx := [], sending := false }).setBit
    0x4010 7) := setBit (update h) (by simp) 7
  exact (up.sendPkt ..).ite up
theorem trunkWatch (c : DownCause) : Aside false s (trunkWatch t c) :=
  h.forEach fun _ j _ hu => (hu.trunkUp j).ite ((hu.trunkDown j c).ite hu)

end
end Aside
end Sys2Proof.Machine
end

section
/-! PROOF. What an asynchronous port's receiver stores (O37; R178–R196, R267, R276, R277). -/
namespace Sys2Proof.Machine

/-! ## The words that set a port up -/

/-- From `s` to `t` the configuration words of port `n` and those of the UART trunks stay. -/
structure SameSetup (n : Nat) (s t : State) : Prop where
  port : ∀ w, w < 0x13 → t.reg (pAddr n w) = s.reg (pAddr n w)
  trunk : ∀ k, k ∈ [2, 3, 4, 5] → t.reg (utAddr k) = s.reg (utAddr k)

theorem SameSetup.refl (n : Nat) (s : State) : SameSetup n s s := ⟨fun _ _ => rfl, fun _ _ => rfl⟩
theorem SameSetup.trans {n : Nat} {s t u : State} (h : SameSetup n s t) (h' : SameSetup n t u) : SameSetup n s u :=
  ⟨fun w hw => (h'.port w hw).trans (h.port w hw), fun k hk => (h'.trunk k hk).trans (h.trunk k hk)⟩
theorem SameSetup.of_regs {n : Nat} {s t : State} (h : t.regs = s.regs) : SameSetup n s t :=
  ⟨fun _ _ => State.reg_of_regs h _, fun _ _ => State.reg_of_regs h _⟩
theorem PortStep.setReg {s t : State} {n : Nat} {q : Port} {l : List Nat} (h : PortStep s n q l t) (a : Nat) (w : Word) :
    PortStep s n q (a :: l) (t.setReg a w) := by
  have whole := h.setFld a 0 32 (getF w 0 32)
  rwa [State.setFld, setF_whole] at whole
theorem PortStep.trans {s t u : State} {n : Nat} {q q' : Port} {l l' : List Nat} (h : PortStep s n q l t) (h' : PortStep t n q' l' u) :
    PortStep s n q' (l ++ l') u := by
  obtain ⟨eq, -, others, words⟩ := h
  obtain ⟨eq', port, others', words'⟩ := h'
  refine ⟨by rw [eq', eq], port, fun j hj => (others' j hj).trans (others j hj), fun a ha => ?_⟩
  obtain ⟨out, out'⟩ := not_or.1 (List.mem_append.not.1 ha)
  exact (words' a out').trans (words a out)
/-- A port's events and counters do not set it up. -/
theorem PortStep.setup {s t : State} {n : Nat} {q : Port} {l : List Nat} (h : PortStep s n q l t)
    (counters : ∀ a ∈ l, pAddr n 0x13 ≤ a ∧ a < pAddr n 0x40) : SameSetup n s t := by
  obtain ⟨-, -, -, words⟩ := h
  refine ⟨fun w hw => words _ fun mem => ?_, fun k hk => words _ fun mem => ?_⟩
  · have range := counters _ mem
    unfold pAddr at range
    omega
  · have range := counters _ mem
    have small : 2 ≤ k ∧ k ≤ 5 := by simp at hk; omega
    unfold pAddr utAddr at range
    omega
theorem Aside.setup {k : Bool} {s t : State} (h : Aside k s t) {n : Nat} (hn : n < 16) : SameSetup n s t := by
  refine ⟨fun w hw => h.words _ (lineWord_port k hn (by omega)), fun j hj => h.words _ ?_⟩
  have small : 2 ≤ j ∧ j ≤ 5 := by simp at hj; omega
  have slot : 0x4008 ≤ utAddr j ∧ utAddr j < 0x400C := by
    unfold utAddr
    omega
  simp [lineWord, slot]

namespace SameSetup
variable {n : Nat} {s t : State} (h : SameSetup n s t)
include h

theorem bit {w : Nat} (hw : w < 0x13) (i : Nat) : t.bit (pAddr n w) i = s.bit (pAddr n w) i := State.bit_of_reg (h.port w hw) i
theorem fld {w : Nat} (hw : w < 0x13) (lo wd : Nat) : t.fld (pAddr n w) lo wd = s.fld (pAddr n w) lo wd := State.fld_of_reg (h.port w hw) lo wd

theorem pEn : pEn t n = pEn s n := h.bit (by decide) 0
theorem pCell : pCell t n = pCell s n := h.bit (by decide) 1
theorem pRole : pRole t n = pRole s n := h.fld (by decide) 2 2
theorem pErrDrop : pErrDrop t n = pErrDrop s n := h.bit (by decide) 7
theorem pNine : pNine t n = pNine s n := h.bit (by decide) 5
theorem pParity : pParity t n = pParity s n := h.fld (by decide) 2 2
theorem pFlow : pFlow t n = pFlow s n := h.fld (by decide) 0 2
theorem pAddrMode : pAddrMode t n = pAddrMode s n := h.fld (by decide) 0 2
theorem pDataBits : pDataBits t n = pDataBits s n := by rw [Machine.pDataBits, Machine.pDataBits, h.pNine, h.fld (by decide)]
theorem pFeed : pFeed t n = pFeed s n := by rw [Machine.pFeed, Machine.pFeed, h.bit (by decide), h.fld (by decide)]
theorem portTrunk : portTrunk t n = portTrunk s n := by
  refine List.find?_congr fun k hk => ?_
  rw [utPort, utPort, State.bit_of_reg (h.trunk k hk), State.fld_of_reg (h.trunk k hk)]
theorem flowKind (b : Byte) (mark : Bool) (cls : Nat) : flowKind t n b mark cls = flowKind s n b mark cls := by
  rw [Machine.flowKind, Machine.flowKind, h.pDataBits, h.pFlow, h.pNine, h.fld (by decide), h.fld (by decide)]
theorem rxUnfed : rxUnfed t n = rxUnfed s n := by rw [Machine.rxUnfed, Machine.rxUnfed, h.portTrunk, h.pAddrMode, h.pFeed]

end SameSetup

/-! ## A character as received -/

/-- What the stop-bit decision tells of the character beside its data (R174, R175, R276). -/
def heard (s : State) (n : Nat) (r : RxBits) : RxIn := ⟨rxNoise s n r, (s.port n).early, crc32c [rxData s n r], r.t0⟩
/-- The port after the stop-bit decision of a character of class `cls` (R173, R175, R196). -/
def stopped (s : State) (n : Nat) (r : RxBits) (cls : Nat) : Port :=
  { s.port n with rxBusy := false, timeout := cls != 3, armed := rxStop s n r, rearm := !rxStop s n r && cls != 3, early := rxRuns s n r }
/-- The character is counted. -/
def counted (s : State) (n : Nat) : State := s.countWrap (pAddr n 0x18)
/-- The state in which a character is judged: it is counted, and XOFF follows it where it must (R214, R229). -/
def received (s : State) (n : Nat) (r : RxBits) : State :=
  xoffAgain ((counted s n).setPort n (stopped (counted s n) n r (charClass s n r))) n

theorem receiveChar_eq {s : State} {n : Nat} {r : RxBits} (space : rxBit r 0 = false) : receiveChar s n r =
    if charClass s n r = 3 then receiveBreak (received s n r) n (heard s n r) 0#8 (pNine s n && rxPar s n r)
    else keepChar (received s n r) n (heard s n r) (rxData s n r) (rxData s n r ^^^ r.upset) (pNine s n && rxPar s n r) (charClass s n r) := by
  rw [receiveChar, if_neg (by simp [space])]
  rfl

/-- XOFF queued again changes flow control only (R214). -/
theorem xoffAgain_lands (s : State) (n : Nat) : ∃ q, (s.port n).Near q ∧ PortStep s n q [] (xoffAgain s n) := by
  have flow (f : Option Bool) (last : Bool) (since : Nat) :
      (s.port n).Near { s.port n with flowQ := f, lastXoff := last, sinceXoff := since } := ⟨rfl, id⟩
  have step := PortStep.refl s n
  unfold xoffAgain
  dsimp only
  split
  · exact ⟨_, .refl _, step⟩
  · split
    · exact ⟨_, flow .., step.setPort _⟩
    · split
      · exact ⟨_, flow .., step.setPort _⟩
      · exact ⟨_, flow .., step.setPort _⟩

theorem received_lands (s : State) (n : Nat) (r : RxBits) : ∃ q, (stopped (counted s n) n r (charClass s n r)).Near q ∧
    PortStep s n q [pAddr n 0x18] (received s n r) ∧ (received s n r).reg (pAddr n 0x18) = s.reg (pAddr n 0x18) + 1#32 := by
  have judged := (((PortStep.refl s n).setReg (pAddr n 0x18) (s.reg (pAddr n 0x18) + 1#32)).setPort (stopped (counted s n) n r (charClass s n r)))
  obtain ⟨q, near, step⟩ := xoffAgain_lands ((counted s n).setPort n (stopped (counted s n) n r (charClass s n r))) n
  obtain ⟨-, port, -, -⟩ := id judged
  obtain ⟨-, -, -, words⟩ := id step
  refine ⟨q, port ▸ near, judged.trans step, ?_⟩
  rw [received, words _ (by simp), State.reg_of_regs (State.setPort_regs ..), counted, State.countWrap, State.reg_setReg, if_pos rfl]

/-! ## A good character -/

/-- The flags of a character, counted (R174, R175). -/
def charFlags (s : State) (n : Nat) (x : RxIn) : State :=
  let s := if x.noise then s.count (pAddr n 0x1C) 0 16 else s
  if x.early then (s.count (pAddr n 0x1C) 16 16).setBit (pAddr n 0x13) 5 else s

theorem countChar_good (s : State) (n : Nat) (x : RxIn) : countChar s n x 0 = charFlags s n x := rfl
theorem countChar_break (s : State) (n : Nat) (x : RxIn) : countChar s n x 3 = (charFlags s n x).count (pAddr n 0x1B) 0 16 := rfl

theorem PortStep.charFlags {s t : State} {n : Nat} {q : Port} {l : List Nat} (h : PortStep s n q l t) (x : RxIn) :
    PortStep s n q (pAddr n 0x13 :: pAddr n 0x1C :: l) (charFlags t n x) := by
  have noisy : PortStep s n q (pAddr n 0x1C :: l) (if x.noise then t.count (pAddr n 0x1C) 0 16 else t) := by
    split
    · exact h.count _ 0 16
    · exact h.mono fun a mem => List.mem_cons_of_mem _ mem
  unfold Machine.charFlags
  dsimp only
  split
  · exact ((noisy.count (pAddr n 0x1C) 16 16).setBit (pAddr n 0x13) 5).mono (by simp)
  · exact noisy.mono fun a mem => List.mem_cons_of_mem _ mem

/-- In HOLD mode address detection only notes the frame (R225). -/
theorem holdFrame_lands (s : State) (n : Nat) (b : Byte) : ∃ f e g, PortStep s n { s.port n with frame := f, frameCirc := e, frameStart := g } []
    (holdFrame s n b 0) := by
  unfold holdFrame modPort
  split
  · next h => exact ⟨_, _, _, (PortStep.refl s n).setPort _⟩
  · exact ⟨_, _, _, (PortStep.refl s n).setPort _⟩

/-- The frame of a good character that starts one in HOLD mode is noted. -/
def frameNoted (s : State) (n : Nat) (b : Byte) (mark : Bool) : State := if startsFrame s n mark 0 then holdFrame s n b 0 else s
theorem frameNoted_lands (s : State) (n : Nat) (b : Byte) (mark : Bool) : ∃ f e g,
    PortStep s n { s.port n with frame := f, frameCirc := e, frameStart := g } [] (frameNoted s n b mark) := by
  unfold frameNoted
  split
  · exact holdFrame_lands s n b
  · exact ⟨_, _, _, PortStep.refl s n⟩

/-- Without address detection no frame starts (R222). -/
theorem startsFrame_off {s : State} {n : Nat} (off : pAddrMode s n = 0) (mark : Bool) (cls : Nat) : startsFrame s n mark cls = false := by
  simp [startsFrame, off]

/-- A good character on a port that feeds a circuit goes where the mode sends it; in CELL mode without address detection. -/
theorem keepChar_good {s : State} {n : Nat} {x : RxIn} {b c : Byte} {mark : Bool} (data : flowKind s n b mark 0 = 0)
    (trunk : portTrunk s n = none) {f : Nat} (feed : pFeed s n = some f) (unframed : pCell s n = true → pAddrMode s n = 0) :
    keepChar s n x b c mark 0 = routeChar (charFlags (frameNoted s n b mark) n x) n x c mark 0 := by
  obtain ⟨_, _, _, step⟩ := frameNoted_lands s n b mark
  have setup : SameSetup n s (frameNoted s n b mark) := step.setup (by simp)
  have fed : rxUnfed (frameNoted s n b mark) n = false := by rw [setup.rxUnfed, rxUnfed, feed]; simp
  have kept : rxDropped (frameNoted s n b mark) n = false := by
    rw [rxDropped, setup.pCell, setup.pAddrMode]
    cases cell : pCell s n
    · simp
    · simp [unframed cell]
  have frame : (if !startsFrame s n mark 0 then s else if pCell s n then startFrame s n b 0 else holdFrame s n b 0) = frameNoted s n b mark := by
    cases cell : pCell s n
    · cases starts : startsFrame s n mark 0 <;> simp [frameNoted, starts]
    · simp [frameNoted, startsFrame_off (unframed cell)]
  rw [keepChar, if_neg (by simp [data]), trunk]
  dsimp only
  rw [frame, fed, kept]
  rfl

/-- The state in which a good character is stored: nothing has changed but its counters, and of the port what its reception, its frame and flow
control concern. -/
structure Storing (s : State) (n : Nat) (r : RxBits) (v : State) : Prop where
  step : ∃ q, PortStep s n q [pAddr n 0x13, pAddr n 0x1C, pAddr n 0x18] v
  counted : v.reg (pAddr n 0x18) = s.reg (pAddr n 0x18) + 1#32
  rxHold : (v.port n).rxHold = (s.port n).rxHold
  ovr : (v.port n).ovr = (s.port n).ovr

theorem goodChar_runs {s : State} {n : PortId} {r : RxBits} (on : rxOn s n = true) (space : rxBit r 0 = false) (trunk : portTrunk s n = none)
    (cls : charClass s n r = 0) (data : flowKind s n (rxData s n r) (pNine s n && rxPar s n r) 0 = 0) {c : Nat} (feed : pFeed s n = some c)
    (unframed : pCell s n = true → pAddrMode s n = 0) :
    ∃ v, exec (.characterReceive n r) s = .next (routeChar v n (heard s n r) (rxData s n r ^^^ r.upset) (pNine s n && rxPar s n r) 0) ∧
      Storing s n r v := by
  obtain ⟨q, near, counts, count⟩ := received_lands s n r
  have setup : SameSetup n s (received s n r) := counts.setup (by simp [pAddr])
  obtain ⟨f, e, g, frames⟩ := frameNoted_lands (received s n r) n (rxData s n r) (pNine s n && rxPar s n r)
  have run : exec (.characterReceive n r) s = .next (receiveChar s n r) := if_pos on
  rw [receiveChar_eq space, if_neg (by simp [cls]), cls, keepChar_good (by rw [setup.flowKind, data]) (by rw [setup.portTrunk, trunk])
    (setup.pFeed.trans feed) (by rw [setup.pCell, setup.pAddrMode]; exact unframed)] at run
  have steps := (counts.trans frames).charFlags (heard s n r)
  obtain ⟨-, port, -, -⟩ := id steps
  obtain ⟨-, judged, -, -⟩ := id counts
  have flagged := (PortStep.refl (frameNoted (received s n r) n (rxData s n r) (pNine s n && rxPar s n r)) n).charFlags (heard s n r)
  obtain ⟨-, -, -, flags⟩ := flagged
  obtain ⟨-, -, -, noted⟩ := frames
  refine ⟨_, run, ⟨_, steps⟩, ?_, ?_, ?_⟩
  · rw [flags _ (by simp [pAddr]), noted _ (by simp), count]
  · rw [port]
    exact (congrArg Port.rxHold judged).trans (near.field (g := Port.rxHold) fun _ => rfl)
  · rw [port]
    exact (congrArg Port.ovr judged).trans (near.field (g := Port.ovr) fun _ => rfl)

/-- Equal cells read equal. -/
theorem State.cell_of_cells {s t : State} (h : t.cells = s.cells) (i : Nat) : t.cell i = s.cell i := by rw [State.cell, State.cell, h]

theorem Storing.setup {s v : State} {n : Nat} {r : RxBits} (h : Storing s n r v) : SameSetup n s v := by
  obtain ⟨q, step⟩ := h.step
  exact step.setup (by simp [pAddr])
theorem Storing.words {s v : State} {n : Nat} {r : RxBits} (h : Storing s n r v) {a : Nat}
    (ha : a ∉ [pAddr n 0x13, pAddr n 0x1C, pAddr n 0x18]) : v.reg a = s.reg a := by
  obtain ⟨_, -, -, -, words⟩ := h.step
  exact words a ha
theorem Storing.cells {s v : State} {n : Nat} {r : RxBits} (h : Storing s n r v) : v.cells = s.cells := by
  obtain ⟨_, eq, -⟩ := h.step
  rw [eq]

/-- What a good character brings to a HOLD port. -/
theorem routeChar_hold {v : State} {n : Nat} (cell : pCell v n = false) (x : RxIn) (b : Byte) (mark : Bool) :
    routeChar v n x b mark 0 = storeHold v n x b (pNine v n && mark) 0 := by
  simp [routeChar, cell]
/-- And to a CELL port without address detection. -/
theorem routeChar_cell {v : State} {n c : Nat} (cell : pCell v n = true) (off : pAddrMode v n = 0) (feed : pFeed v n = some c) (x : RxIn)
    (b : Byte) (mark : Bool) : routeChar v n x b mark 0 = storeCell v n c 8 b x.check false x.t0 := by
  simp [routeChar, cell, off, feed]

/-! ## The receive holding register (R187, R189, R193) -/

/-- The character as HOLD mode keeps it. -/
def heldChar (v : State) (n : Nat) (x : RxIn) (b : Byte) (mark : Bool) (cls : Nat) : RxChar :=
  ⟨b, mark, cls, (v.port n).ovr, x.noise, x.early, (v.port n).frame, x.t0, x.check⟩
theorem storeHold_free {v : State} {n c : Nat} (feed : pFeed v n = some c) (free : (v.port n).rxHold = none) (x : RxIn) (b : Byte) (mark : Bool)
    (cls : Nat) : storeHold v n x b mark cls =
      ctxEvent (v.setPort n { v.port n with rxHold := some (heldChar v n x b mark cls), ovr := false }) c 0 := by
  simp [storeHold, feed, free, heldChar]
theorem storeHold_full {v : State} {n c : Nat} (feed : pFeed v n = some c) {h : RxChar} (full : (v.port n).rxHold = some h) (x : RxIn) (b : Byte)
    (mark : Bool) (cls : Nat) : storeHold v n x b mark cls = overrun v n := by
  simp [storeHold, feed, full]

theorem ctxEvent_sets (s : State) (x : Nat) {b : Nat} (hb : b < 16) : ((ctxEvent s x b).ctx x).ep.getLsbD b = true := by
  have event : (ctxEvent s x b).ctx x = { s.ctx x with ep := (s.ctx x).ep ||| BitVec.ofNat 16 (2 ^ b) } :=
    (State.ctx_setCtx _ _ _ _).trans (if_pos rfl)
  rw [event, BitVec.getLsbD_or, BitVec.getLsbD_ofNat, Nat.testBit_two_pow_self]
  simp [hb]

/-! ## Storms (R181, R555, R556) -/

/-- What a storm leaves of port `n`: its words, the held character, and that a break is on the line or the port is gloved. -/
structure Stormed (n : Nat) (s t : State) : Prop where
  words : ∀ w, w < 64 → t.reg (pAddr n w) = s.reg (pAddr n w)
  rxHold : (t.port n).rxHold = (s.port n).rxHold
  silent : (s.port n).lineBrk = true ∨ (s.port n).gloved = true → (t.port n).lineBrk = true ∨ (t.port n).gloved = true

theorem Stormed.refl (n : Nat) (s : State) : Stormed n s s := ⟨fun _ _ => rfl, rfl, id⟩
theorem Stormed.trans {n : Nat} {s t u : State} (h : Stormed n s t) (h' : Stormed n t u) : Stormed n s u :=
  ⟨fun w hw => (h'.words w hw).trans (h.words w hw), h'.rxHold.trans h.rxHold, h'.silent ∘ h.silent⟩
theorem Aside.stormed {k : Bool} {s t : State} (h : Aside k s t) {n : Nat} (hn : n < 16) : Stormed n s t := by
  have near := h.ports n
  refine ⟨fun w hw => h.words _ (lineWord_port k hn hw), near.field (g := Port.rxHold) fun _ => rfl, fun silent => ?_⟩
  rwa [near.field (g := Port.lineBrk) fun _ => rfl, near.field (g := Port.gloved) fun _ => rfl]
/-- A change of the port that keeps the held character, and ends a break only where it gloves. -/
theorem stormed_modPort (s : State) (n : Nat) {f : Port → Port} (rxHold : ∀ p, (f p).rxHold = p.rxHold)
    (silent : ∀ p : Port, p.lineBrk = true ∨ p.gloved = true → (f p).lineBrk = true ∨ (f p).gloved = true) : Stormed n s (modPort s n f) := by
  have port : (modPort s n f).port n = f (s.port n) := (State.port_setPort ..).trans (if_pos rfl)
  exact ⟨fun _ _ => rfl, by rw [port, rxHold], by rw [port]; exact silent _⟩

theorem gloveFor_stormed (s : State) {n : Nat} (hn : n < 16) (secs : Nat) : Stormed n s (gloveFor s n secs) := by
  unfold gloveFor
  extract_lets u till v w x
  have gloved : Stormed n s u := stormed_modPort s n (fun _ => rfl) fun _ _ => .inr rfl
  have timed : Stormed n u v := stormed_modPort u n (fun _ => rfl) fun _ => id
  have shown : Aside false v x := ((Aside.refl false v).setBit (by simp) n).raiseFault 9
  exact (gloved.trans timed).trans (((shown.closeAllRx n 5).trunkWatch .glove).stormed hn)
/-- A port's storm word is none of its block. -/
theorem lineWord_pgl {n : Nat} (hn : n < 16) : lineWord false (pglAddr n) = false := lineWord_elsewhere _ (by unfold pglAddr; omega)
theorem storm_stormed (s : State) {n : Nat} (hn : n < 16) : Stormed n s (storm s n) := by
  unfold storm
  extract_lets lv f g s1 s2 s3 noted sup s4
  have emptied : Aside false s s2 := (((Aside.refl false s).journal ..).setFld (lineWord_pgl hn) 0 8 0).count (lineWord_pgl hn) 25 7
  have cleared : Stormed n s2 s3 := stormed_modPort s2 n (fun _ => rfl) fun _ => id
  have shown : Aside false s3 s4 := (((Aside.refl false s3).count (by simp) 0 16).setBit (by simp) 5).update
  have storms : Stormed n s s4 := ((emptied.stormed hn).trans cleared).trans (shown.stormed hn)
  split
  · have level : Aside false s4 (s4.setFld (pglAddr n) 8 4 (min 8 (lv + 1))) := (Aside.refl false s4).setFld (lineWord_pgl hn) 8 4 _
    exact (storms.trans (level.stormed hn)).trans (gloveFor_stormed _ hn _)
  · exact storms
theorem stormEvent_stormed (s : State) {n : Nat} (hn : n < 16) (kind : Nat) : Stormed n s (stormEvent s n kind) := by
  unfold stormEvent
  extract_lets u v
  have counted : Aside false s u := (Aside.refl false s).count (lineWord_pgl hn) 0 8
  have filled : Stormed n s v := (counted.stormed hn).trans (stormed_modPort u n (fun _ => rfl) fun _ => id)
  split
  · exact .refl n s
  · split
    · exact filled.trans (storm_stormed v hn)
    · exact filled

theorem State.port_of_ports {s t : State} (h : t.ports = s.ports) (n : Nat) : t.port n = s.port n := by rw [State.port, State.port, h]

/-- A lost character's event and count. -/
def overrunNoted (s : State) (n : Nat) : State := (s.count (pAddr n 0x1B) 16 16).setBit (pAddr n 0x13) 2
theorem overrunNoted_port (s : State) (n : Nat) : (overrunNoted s n).port n = s.port n :=
  State.port_of_ports ((State.setBit_ports ..).trans (State.count_ports ..)) n
theorem overrun_stormed (s : State) {n : Nat} (hn : n < 16) : Stormed n (overrunNoted s n) (overrun s n) :=
  Stormed.trans (t := modPort (overrunNoted s n) n fun p => { p with ovr := true }) (stormed_modPort _ n (fun _ => rfl) fun _ => id)
    (stormEvent_stormed _ hn 3)

/-- A full holding register keeps its character, and OVR counts (R179, R189). -/
theorem overrun_lands (s : State) {n : Nat} (hn : n < 16) : ((overrun s n).port n).rxHold = (s.port n).rxHold ∧
    (overrun s n).fld (pAddr n 0x1B) 16 16 = min (s.fld (pAddr n 0x1B) 16 16 + 1) 65535 ∧ (overrun s n).bit (pAddr n 0x13) 2 = true := by
  have stormed := overrun_stormed s hn
  refine ⟨by rw [stormed.rxHold, overrunNoted_port], ?_, ?_⟩
  · rw [State.fld_of_reg (stormed.words _ (by decide)), overrunNoted, State.fld_setBit_other _ _ _ (by simp [pAddr]),
      State.fld_count_same _ _ _ _ (by decide), satInc_sixteen]
  · rw [State.bit_of_reg (stormed.words _ (by decide))]
    exact State.bit_setBit_same _ _ _ _ (by decide)

/-! ## A break (R178, R182, R183) -/

/-- A break is shown: it is on the line or gloves the port, its event is set, and the counts of characters and breaks are `w` and `b`. -/
structure BreakShown (n : Nat) (w : Word) (b : Nat) (s : State) : Prop where
  silent : (s.port n).lineBrk = true ∨ (s.port n).gloved = true
  event : s.bit (pAddr n 0x13) 0 = true
  chars : s.reg (pAddr n 0x18) = w
  breaks : s.fld (pAddr n 0x1B) 0 16 = b

theorem BreakShown.of_words {n : Nat} {w : Word} {b : Nat} {s t : State} (regs : t.regs = s.regs)
    (silent : (t.port n).lineBrk = true ∨ (t.port n).gloved = true) (event : s.bit (pAddr n 0x13) 0 = true) (chars : s.reg (pAddr n 0x18) = w)
    (breaks : s.fld (pAddr n 0x1B) 0 16 = b) : BreakShown n w b t :=
  have words (a : Nat) : t.reg a = s.reg a := State.reg_of_regs regs a
  ⟨silent, (State.bit_of_reg (words _) 0).trans event, (words _).trans chars, (State.fld_of_reg (words _) 0 16).trans breaks⟩

namespace BreakShown
variable {n : Nat} {w : Word} {b : Nat} {s t : State} (h : BreakShown n w b s)
include h

theorem stormed (h' : Stormed n s t) : BreakShown n w b t :=
  ⟨h'.silent h.silent, (State.bit_of_reg (h'.words _ (by decide)) 0).trans h.event, (h'.words _ (by decide)).trans h.chars,
    (State.fld_of_reg (h'.words _ (by decide)) 0 16).trans h.breaks⟩
theorem of_regs (regs : t.regs = s.regs) (ports : t.ports = s.ports) : BreakShown n w b t :=
  of_words regs (by rw [State.port_of_ports ports]; exact h.silent) h.event h.chars h.breaks
theorem overrun (hn : n < 16) : BreakShown n w b (overrun s n) := by
  refine stormed (s := overrunNoted s n) ⟨by rw [overrunNoted_port]; exact h.silent, ?_, ?_, ?_⟩ (overrun_stormed s hn)
  · rw [overrunNoted, State.bit_setBit_other _ _ _ _ _ (by decide), State.bit, State.reg_count_other _ _ _ _ (by simp [pAddr])]
    exact h.event
  · rw [overrunNoted, State.reg_setBit_other _ _ _ _ (by simp [pAddr]), State.reg_count_other _ _ _ _ (by simp [pAddr]), h.chars]
  · rw [overrunNoted, State.fld_setBit_other _ _ _ (by simp [pAddr]), State.count, State.fld_setFld_disjoint _ _ _ _ _ _ _ (by decide), h.breaks]
theorem storeHold (hn : n < 16) (x : RxIn) (d : Byte) (mark : Bool) (cls : Nat) : BreakShown n w b (storeHold s n x d mark cls) := by
  unfold Machine.storeHold
  split
  · exact h
  · next f _ =>
    dsimp only
    split
    · exact h.overrun hn
    · refine of_words (s := s) rfl ?_ h.event h.chars h.breaks
      show ((s.setPort n _).port n).lineBrk = true ∨ ((s.setPort n _).port n).gloved = true
      rw [State.port_setPort, if_pos rfl]
      exact h.silent

end BreakShown

/-- The count of breaks after one on a port that counts what it receives, or not (R186). -/
def breaksAfter (s : State) (n : Nat) : Nat :=
  if rxUnfed s n then s.fld (pAddr n 0x1B) 0 16 else min (s.fld (pAddr n 0x1B) 0 16 + 1) 65535

/-- A counted break leaves its port's other counters. -/
theorem countBreak_fld (s : State) (n : Nat) (x : RxIn) : (countChar s n x 3).fld (pAddr n 0x1B) 0 16 = min (s.fld (pAddr n 0x1B) 0 16 + 1) 65535 := by
  obtain ⟨-, -, -, flags⟩ := (PortStep.refl s n).charFlags x
  rw [countChar_break, State.fld_count_same _ _ _ _ (by decide), State.fld_of_reg (flags _ (by simp [pAddr])), satInc_sixteen]
theorem countBreak_reg (s : State) (n : Nat) (x : RxIn) : (countChar s n x 3).reg (pAddr n 0x18) = s.reg (pAddr n 0x18) := by
  obtain ⟨-, -, -, flags⟩ := (PortStep.refl s n).charFlags x
  rw [countChar_break, State.reg_count_other _ _ _ _ (by simp [pAddr]), flags _ (by simp [pAddr])]

/-- A received break is shown, and counted where the port feeds a circuit. -/
theorem receiveBreak_shown (s : State) {n : Nat} (hn : n < 16) (x : RxIn) (b : Byte) (mark : Bool) :
    BreakShown n (s.reg (pAddr n 0x18)) (breaksAfter s n) (receiveBreak s n x b mark) := by
  unfold receiveBreak
  extract_lets fed s1 s2 s3 s4
  have events : s1.bit (pAddr n 0x13) 0 = true := State.bit_setBit_same _ _ _ _ (by decide)
  have chars : s1.reg (pAddr n 0x18) = s.reg (pAddr n 0x18) := by
    simp only [s1]
    rw [State.reg_setBit_other _ _ _ _ (by simp [pAddr])]
    split
    · exact countBreak_reg s n x
    · rfl
  have breaks : s1.fld (pAddr n 0x1B) 0 16 = breaksAfter s n := by
    simp only [s1, fed, breaksAfter]
    rw [State.fld_setBit_other _ _ _ (by simp [pAddr])]
    by_cases unfed : rxUnfed s n = true
    · simp [unfed]
    · simp [unfed, countBreak_fld]
  have onLine : BreakShown n (s.reg (pAddr n 0x18)) (breaksAfter s n) s2 :=
    .of_words (State.setPort_regs s1 n _) (.inl (congrArg Port.lineBrk ((State.port_setPort ..).trans (if_pos rfl)))) events chars breaks
  have signalled : BreakShown n (s.reg (pAddr n 0x18)) (breaksAfter s n) s3 := by
    obtain ⟨k, eq⟩ := feedEvent_eq s2 n 3
    simp only [s3, eq]
    exact onLine.of_regs rfl rfl
  have stored : BreakShown n (s.reg (pAddr n 0x18)) (breaksAfter s n) s4 := by
    simp only [s4]
    split
    · exact signalled
    · split
      · exact signalled.stormed (((Aside.refl false s3).closeAllRx n 2).stormed hn)
      · exact signalled.storeHold hn x b mark 3
  split
  · exact stored.stormed (stormEvent_stormed s4 hn 0)
  · exact stored

/-! ## A cell's byte (R191, R192, R276, R277) -/

/-- The receive cell that takes a character in: the port's loss and continuation marks end. -/
def takingIn (s : State) (n : Nat) : State := modPort s n fun p => { p with ovr := false, contOf := none }

/-- A byte goes at the end of a cell without a bad word (R582). -/
theorem appendByte_sound {s : State} {i : Nat} (sound : (s.cell i).bad = []) (b : Byte) :
    appendByte s i b = some (s.setCell i { s.cell i with payload := (s.cell i).payload ++ [b] }) := by
  simp [appendByte, sound]

theorem setCell_setCell (s : State) (i : Nat) (x y : Cell) : (s.setCell i x).setCell i y = s.setCell i y := by
  simp [State.setCell]

theorem storeCell_open {s : State} {n c i : Nat} (found : openRx s n c = some i) (sound : (s.cell i).bad = [])
    (room : (s.cell i).payload.length < 239) (e : Nat) (b : Byte) (check : Word) (t0 : Time) : storeCell s n c e b check false t0 =
      if crc32c [b] = check then (takingIn s n).setCell i { s.cell i with payload := (s.cell i).payload ++ [b] }
      else releaseCell (sleeveFail (takingIn s n) 0 c i false check (crc32c [b])) i := by
  have short : (s.cell i).payload.length + 1 ≠ 240 := by omega
  rw [storeCell, found]
  dsimp only
  rw [appendByte_sound (by exact sound)]
  dsimp only
  by_cases agrees : crc32c [b] = check
  · rw [if_neg (by simp [agrees]), if_pos agrees]
    simp only [State.cell_setCell, if_true, setCell_setCell, Bool.or_false]
    rw [if_neg (by rw [List.length_append]; exact short)]
    rfl
  · rw [if_pos (by simpa using agrees), if_neg agrees]
    rfl

/-- A freed cell is no circuit's. -/
theorem releaseCell_owner (s : State) (i c : Nat) : ((releaseCell s i).cell i).owner ≠ .circ c := by
  intro mine
  have freed := (Aside.released (.refl true (s.emptied i))).cells i c mine
  rw [State.emptied, State.cell_setCell, if_pos rfl] at freed
  cases freed

/-- A cell whose byte fails its check is discarded, and point 0 counts (R277, Table 8-3). -/
theorem discard_lands (s : State) {n c : Nat} (hn : n < 16) (hc : c < 64) (i : Nat) (v w : Word) :
    let t := releaseCell (sleeveFail (takingIn s n) 0 c i false v w) i
    (t.cell i).owner ≠ .circ c ∧ t.fld 0x2011 0 16 = min (s.fld 0x2011 0 16 + 1) 65535 ∧ t.reg (pAddr n 0x18) = s.reg (pAddr n 0x18) := by
  intro t
  have failed : Aside true ((takingIn s n).count 0x2011 0 16) t :=
    Aside.releaseCell (Aside.sleeveFail (point := 0) hc (.refl true (sleeveCount (takingIn s n) 0)) i false v w) i
  refine ⟨releaseCell_owner _ i c, ?_, ?_⟩
  · rw [State.fld_of_reg (failed.words _ (by decide)), State.fld_count_same _ _ _ _ (by decide), satInc_sixteen]
    rfl
  · rw [failed.words _ (lineWord_port true hn (by decide)), State.reg_count_other _ _ _ _ (by unfold pAddr; omega)]
    rfl

/-! ## The one open cell of a port closes (R194, R196, R236, R267) -/

/-- A record takes a free cell only. -/
theorem stageRecord_cell (s : State) (r : JRec) {i : Nat} (taken : (s.cell i).owner ≠ .free) : (stageRecord s r).cell i = s.cell i := by
  have drawn : (allocSys s .jnl).2.cell i = s.cell i := by
    unfold allocSys
    split
    · next j _ free =>
      have other : i ≠ j := by
        rintro rfl
        exact taken (pickFree_free free)
      exact (State.cell_setCell s j i { owner := .sys .jnl, st := .openS, ts := cellForm s.now, corrected := (s.cell j).corrected }).trans
        (if_neg other)
    · rfl
  unfold stageRecord
  split
  · rfl
  · split <;> (next eq => rw [eq] at drawn; exact drawn)

theorem setTxseq_circ (s : State) (c adv : Nat) :
    (setTxseq s c adv).circ c = { s.circ c with txseq := ((s.circ c).txseq + adv) % 65536 } := by
  have circs : (setTxseq s c adv).circs = (s.setCirc c { s.circ c with txseq := ((s.circ c).txseq + adv) % 65536 }).circs := by
    unfold setTxseq
    dsimp only
    split <;> simp
  rw [State.circ, circs]
  exact (State.circ_setCirc ..).trans (if_pos rfl)
theorem setTxseq_cell (s : State) (c adv : Nat) {i : Nat} (taken : (s.cell i).owner ≠ .free) : (setTxseq s c adv).cell i = s.cell i := by
  unfold setTxseq
  dsimp only
  split
  · exact stageRecord_cell _ _ taken
  · rfl
/-- The words that no record touches stay. -/
theorem setTxseq_reg (s : State) (c adv : Nat) {a : Nat} (ha : ¬ recordWords a) : (setTxseq s c adv).reg a = s.reg a := by
  unfold setTxseq
  dsimp only
  split
  · exact journalStruct_reg _ _ _ _ ha
  · rfl

/-- Cell `i` of circuit `c` as a close leaves it. -/
def closedCell (s : State) (i c cause : Nat) : Cell :=
  { s.cell i with st := .closed, cause := cause, seq := (s.circ c).txseq, sleeve := crc32c (s.cell i).payload, cls := cClass s c, holder := .none }
/-- The state with cell `i` closed and counted, and TXSEQ advanced. -/
def closing (s : State) (i c cause : Nat) : State :=
  setTxseq ((s.setCell i (closedCell s i c cause)).setCirc c { s.circ c with closedCnt := (s.circ c).closedCnt + 1 }) c 1

/-- A cell without TAP is put last in its circuit's endpoint queue (R309). -/
theorem enqueueCell_queued {s : State} {c : Nat} (tap : cTap s c = false) (i : Nat) (viaWcur : Bool) :
    enqueueCell s c i viaWcur = stallWatch (s.setCirc c { s.circ c with queue := (s.circ c).queue ++ [i] }) c := by
  simp [enqueueCell, tap]

/-- A cell that holds something closes last in the endpoint queue. -/
theorem closeCell_lands {s : State} {i c : Nat} (full : (s.cell i).payload ≠ []) (owned : (s.cell i).owner = .circ c) (tap : cTap s c = false)
    (cause : Nat) : (closeCell s i c cause).cell i = closedCell s i c cause ∧
      ((closeCell s i c cause).circ c).queue = (s.circ c).queue ++ [i] ∧
      ((closeCell s i c cause).circ c).closedCnt = (s.circ c).closedCnt + 1 ∧
      ((closeCell s i c cause).circ c).txseq = ((s.circ c).txseq + 1) % 65536 := by
  have circ : (closing s i c cause).circ c =
      { s.circ c with closedCnt := (s.circ c).closedCnt + 1, txseq := ((s.circ c).txseq + 1) % 65536 } := by
    rw [closing, setTxseq_circ, State.circ_setCirc, if_pos rfl]
  have cell : (closing s i c cause).cell i = closedCell s i c cause := by
    have put : (s.setCell i (closedCell s i c cause)).cell i = closedCell s i c cause := (State.cell_setCell ..).trans (if_pos rfl)
    refine (setTxseq_cell _ c 1 ?_).trans put
    refine ne_of_eq_of_ne (congrArg Cell.owner put) ?_
    rw [closedCell, owned]
    exact nofun
  have untapped : cTap (closing s i c cause) c = false := by
    rw [cTap, closing, State.bit_of_reg (setTxseq_reg _ c 1 (by unfold recordWords xAddr; omega))]
    exact tap
  have run : closeCell s i c cause =
      stallWatch ((closing s i c cause).setCirc c { (closing s i c cause).circ c with queue := ((closing s i c cause).circ c).queue ++ [i] }) c := by
    rw [← enqueueCell_queued untapped i false, closeCell, closeCellAs, if_neg (by simpa using full)]
    rfl
  have ended : (closeCell s i c cause).circ c = { (closing s i c cause).circ c with
      queue := ((closing s i c cause).circ c).queue ++ [i], stallRun := ((closeCell s i c cause).circ c).stallRun } := by
    rw [run, stallWatch, State.circ_setCirc, if_pos rfl, State.circ_setCirc, if_pos rfl]
  refine ⟨?_, ?_, ?_, ?_⟩
  · rw [run]
    exact cell
  all_goals rw [ended, circ]

/-- Port `n` has one open receive cell, `i` of circuit `c`; it holds something, and the device stands by for no twin. -/
structure OneOpen (s : State) (n i c : Nat) : Prop where
  only : ∃ x, s.cells.filter (fun e => e.2.st == .openS && e.2.holder == .portRx n) = [(i, x)] ∧ x.owner = .circ c
  owned : (s.cell i).owner = .circ c
  full : (s.cell i).payload ≠ []
  active : (twinRule s && s.strap.standby) = false
  untapped : cTap s c = false

/-- Closing the port's cells closes that one. -/
theorem OneOpen.closes {s : State} {n i c : Nat} (h : OneOpen s n i c) (cause : Nat) :
    closeAllRx s n cause = modPort (closeCell s i c cause) n fun p => { p with contOf := none } := by
  obtain ⟨x, only, owner⟩ := h.only
  have close : closeRx s i c cause = closeCell s i c cause := if_neg (by simp [h.active])
  rw [closeAllRx, only, ← close]
  dsimp only [forList, List.foldl]
  rw [owner]

/-- From `s` to `t` cell `i` of circuit `c` has closed with `cause` and stands last in the endpoint queue. -/
def Closes (s : State) (i c cause : Nat) (t : State) : Prop :=
  (t.cell i).st = .closed ∧ (t.cell i).cause = cause ∧ (t.cell i).seq = (s.circ c).txseq ∧ (t.cell i).sleeve = crc32c (s.cell i).payload ∧
    (t.cell i).payload = (s.cell i).payload ∧ (t.circ c).queue = (s.circ c).queue ++ [i] ∧ (t.circ c).closedCnt = (s.circ c).closedCnt + 1 ∧
    (t.circ c).txseq = ((s.circ c).txseq + 1) % 65536

theorem OneOpen.closeAllRx {s : State} {n i c : Nat} (h : OneOpen s n i c) (cause : Nat) : Closes s i c cause (closeAllRx s n cause) := by
  obtain ⟨cell, circ⟩ := closeCell_lands h.full h.owned h.untapped cause
  rw [h.closes cause]
  have same : (modPort (closeCell s i c cause) n fun p => { p with contOf := none }).cell i = closedCell s i c cause := cell
  rw [Closes, same]
  exact ⟨rfl, rfl, rfl, rfl, rfl, circ⟩
/-- A context's event changes no cell and no circuit. -/
theorem Closes.feedEvent {s t : State} {i c cause : Nat} (h : Closes s i c cause t) (n b : Nat) : Closes s i c cause (feedEvent t n b) := by
  obtain ⟨k, eq⟩ := feedEvent_eq t n b
  rw [eq]
  exact h

theorem close_lands {s : State} {n : PortId} (reach : hostReach s = true) (here : present s n = true) {i c : Nat} (h : OneOpen s n i c) :
    ∃ t, exec (.close n) s = .next t ∧ Closes s i c 4 t := by
  refine ⟨_, congrArg Host.Outcome.next ((viaHost_reached reach _).trans (if_pos here)), h.closeAllRx 4⟩

/-- The receive timeout of a port has run out (R196). -/
def timedOut (s : State) (n : Nat) : State := s.setPort n { s.port n with timeout := false, timeoutTime := s.now }

theorem feedEvent_sets {s : State} {n c b : Nat} (trunk : portTrunk s n = none) (feed : pFeed s n = some c) (hb : b < 16) :
    ((feedEvent s n b).ctx c).ep.getLsbD b = true := by
  rw [feedEvent, trunk, feed]
  exact ctxEvent_sets s c hb

theorem receiveTimeout_lands {s : State} {n : PortId} (live : pLive s n = true) (runs : (s.port n).timeout = true)
    (thawed : (s.port n).frozen = false) (trunk : portTrunk s n = none) (off : pAddrMode s n = 0) {i c : Nat} (feed : pFeed s n = some c)
    (h : OneOpen s n i c) :
    ∃ t, exec (.receiveTimeout n) s = .next t ∧ Closes s i c 1 t ∧ (t.port n).timeout = false ∧ (t.ctx c).ep.getLsbD 2 = true := by
  have h' : OneOpen (timedOut s n) n i c := ⟨h.only, h.owned, h.full, h.active, h.untapped⟩
  have aside : Aside false (timedOut s n) (closeAllRx (timedOut s n) n 1) := (Aside.refl _ _).closeAllRx n 1
  have setup : SameSetup n s (closeAllRx (timedOut s n) n 1) := (SameSetup.of_regs (s := s) (t := timedOut s n) rfl).trans (aside.setup n.isLt)
  obtain ⟨k, eq⟩ := feedEvent_eq (closeAllRx (timedOut s n) n 1) n 2
  have setup' : SameSetup n s (feedEvent (closeAllRx (timedOut s n) n 1) n 2) := setup.trans (SameSetup.of_regs (by rw [eq]))
  have run : exec (.receiveTimeout n) s = .next (feedEvent (closeAllRx (timedOut s n) n 1) n 2) := by
    show execReceiveTimeout n s = _
    rw [execReceiveTimeout, if_neg (by simp [live, runs, thawed])]
    dsimp only
    rw [← timedOut, show portTrunk (timedOut s n) n = none from trunk]
    dsimp only
    rw [if_pos (setup.pAddrMode.trans off), if_neg (by rw [setup'.pAddrMode, off]; decide)]
  refine ⟨_, run, (h'.closeAllRx 1).feedEvent n 2, ?_, feedEvent_sets (setup.portTrunk.trans trunk) (setup.pFeed.trans feed) (by decide)⟩
  rw [eq]
  have near := (aside.ports n).field (g := Port.timeout) fun _ => rfl
  rw [timedOut, State.port_setPort, if_pos rfl] at near
  exact near

/-! ## The obligation -/

section
variable {s : State} {n : PortId} {r : RxBits} {c : Nat} (on : rxOn s n = true) (space : rxBit r 0 = false)
include on space

section
variable (trunk : portTrunk s n = none) (cls : charClass s n r = 0)
  (data : flowKind s n (rxData s n r) (pNine s n && rxPar s n r) 0 = 0) (feed : pFeed s n = some c)
include trunk cls data feed

/-- A good character on a HOLD port is put to the holding register. -/
theorem holdChar_runs (hold : pCell s n = false) : ∃ v, Storing s n r v ∧ pFeed v n = some c ∧
    exec (.characterReceive n r) s = .next (storeHold v n (heard s n r) (rxData s n r ^^^ r.upset) (pNine s n && rxPar s n r) 0) := by
  obtain ⟨v, run, stores⟩ := goodChar_runs on space trunk cls data feed fun cell => absurd cell (by simp [hold])
  rw [routeChar_hold (stores.setup.pCell.trans hold), stores.setup.pNine, ← Bool.and_assoc, Bool.and_self] at run
  exact ⟨v, stores, stores.setup.pFeed.trans feed, run⟩

/-- A good character on a CELL port without address detection is put to the open cell. -/
theorem cellChar_runs (cell : pCell s n = true) (off : pAddrMode s n = 0) {i : Nat} (found : openRx s n c = some i)
    (sound : (s.cell i).bad = []) (room : (s.cell i).payload.length < 239) : ∃ v, Storing s n r v ∧ exec (.characterReceive n r) s = .next
      (if crc32c [rxData s n r ^^^ r.upset] = crc32c [rxData s n r]
        then (takingIn v n).setCell i { s.cell i with payload := (s.cell i).payload ++ [rxData s n r ^^^ r.upset] }
        else releaseCell (sleeveFail (takingIn v n) 0 c i false (crc32c [rxData s n r]) (crc32c [rxData s n r ^^^ r.upset])) i) := by
  obtain ⟨v, run, stores⟩ := goodChar_runs on space trunk cls data feed fun _ => off
  have same : v.cell i = s.cell i := State.cell_of_cells stores.cells i
  have found' : openRx v n c = some i := by
    rw [openRx, stores.cells]
    exact found
  rw [routeChar_cell (stores.setup.pCell.trans cell) (stores.setup.pAddrMode.trans off) (stores.setup.pFeed.trans feed),
    storeCell_open found' (by rw [same, sound]) (by rw [same]; exact room), same] at run
  exact ⟨v, stores, run⟩

end

/-- A break is shown, and counted where the port feeds a circuit. -/
theorem breakChar_lands (cls : charClass s n r = 3) : ∃ t b, exec (.characterReceive n r) s = .next t ∧
    BreakShown n (s.reg (pAddr n 0x18) + 1#32) b t ∧ (pFeed s n = some c → b = min (s.fld (pAddr n 0x1B) 0 16 + 1) 65535) := by
  obtain ⟨q, -, counts, count⟩ := received_lands s n r
  have setup : SameSetup n s (received s n r) := counts.setup (by simp [pAddr])
  have run : exec (.characterReceive n r) s = .next (receiveChar s n r) := if_pos on
  rw [receiveChar_eq space, if_pos cls] at run
  refine ⟨_, _, run, count ▸ receiveBreak_shown (received s n r) n.isLt (heard s n r) 0#8 _, fun feed => ?_⟩
  obtain ⟨-, -, -, words⟩ := counts
  have fed : rxUnfed (received s n r) n = false := by rw [setup.rxUnfed, rxUnfed, feed]; simp
  rw [breaksAfter, if_neg (by simp [fed]), State.fld_of_reg (words _ (by simp [pAddr]))]

end

/-- Settles O37: a good character is stored in a state that differs from the one before in its counts and its port only (`Storing`), a storm that
an overrun or a break sets off leaves what they report (`Stormed`), and what follows a discard is beside the port (`Aside`). -/
theorem portStores : Obligations.PortStores := by
  unfold Obligations.PortStores
  intro s n r c i p b k good closes oneOpen
  have single (one : oneOpen) : OneOpen s n i c := by
    obtain ⟨⟨x, only, cell, owner, full⟩, active, tap⟩ := one
    exact ⟨⟨x, only, owner⟩, by rw [cell]; exact owner, by rw [cell]; exact full, active, tap⟩
  refine ⟨fun off => if_neg (by simp [off]), fun on space trunk => ⟨fun ⟨cls, data⟩ hold feed => ?hold,
    fun ⟨cls, data⟩ cell off feed found sound room => ?cell, fun cls => ?brk⟩, fun reach here one => close_lands reach here (single one),
    fun live runs thawed trunk off feed one => receiveTimeout_lands live runs thawed trunk off feed (single one),
    fun (out : _ ∨ (s.port n).timeout = false ∨ (s.port n).frozen = true) => ?stays⟩
  case hold =>
    obtain ⟨v, stores, fed, run⟩ := holdChar_runs on space trunk cls data feed hold
    refine ⟨fun free => ?_, fun h full => ?_⟩
    · rw [storeHold_free fed (stores.rxHold.trans free)] at run
      exact ⟨_, _, run, congrArg Port.rxHold ((State.port_setPort ..).trans (if_pos rfl)), rfl, rfl, rfl, rfl, rfl, rfl, stores.ovr, rfl,
        ctxEvent_sets _ c (by decide), stores.counted, stores.cells⟩
    · rw [storeHold_full fed (stores.rxHold.trans full)] at run
      obtain ⟨held, count, event⟩ := overrun_lands v n.isLt
      exact ⟨_, run, held.trans (stores.rxHold.trans full), by rw [count, State.fld_of_reg (stores.words (by simp [pAddr]))], event⟩
  case cell =>
    obtain ⟨v, stores, run⟩ := cellChar_runs on space trunk cls data feed cell off found sound room
    refine ⟨fun clean => ?_, fun differs _ => ?_⟩
    · rw [clean, BitVec.xor_zero, if_pos rfl] at run
      refine ⟨_, run, (State.cell_setCell ..).trans (if_pos rfl), fun j hj => ?_, stores.counted⟩
      exact ((State.cell_setCell ..).trans (if_neg hj)).trans (State.cell_of_cells stores.cells j)
    · rw [if_neg differs] at run
      obtain ⟨gone, count, chars⟩ := discard_lands v n.isLt c.isLt i (crc32c [b]) (crc32c [b ^^^ r.upset])
      exact ⟨_, run, gone, by rw [count, State.fld_of_reg (stores.words (by simp [pAddr]; omega))], chars.trans stores.counted⟩
  case brk =>
    obtain ⟨t, breaks, run, shown, counted⟩ := breakChar_lands (c := c) on space cls
    exact ⟨t, run, shown.silent, shown.event, shown.chars, fun feed => shown.breaks.trans (counted feed)⟩
  case stays =>
    refine if_pos ?_
    rcases out with out | out | out <;> simp [out]

end Sys2Proof.Machine
end

section
/-! PROOF. What an asynchronous port's transmitter sends (O38; R168, R169, R184, R199, R217–R219, R283–R285). -/
namespace Sys2Proof.Machine

/-- A port changed twice. -/
theorem modPort_setPort (s : State) (n : Nat) (p : Port) (f : Port → Port) : modPort (s.setPort n p) n f = s.setPort n (f p) := by
  rw [modPort, State.port_setPort, if_pos rfl]
  simp [State.setPort]
theorem modPort_modPort (s : State) (n : Nat) (f g : Port → Port) : modPort (modPort s n f) n g = modPort s n fun p => g (f p) :=
  modPort_setPort s n _ g

namespace SameSetup
variable {n : Nat} {s t : State} (h : SameSetup n s t)
include h

theorem charLine (b : Byte) (mark : Bool) : charLine t n b mark = charLine s n b mark := by
  rw [Machine.charLine, Machine.charLine, h.pDataBits, h.pNine, h.pParity, h.bit (by decide)]

end SameSetup

/-! ## A decision point (R199) -/

theorem dropAbandoned_kept {s : State} {n : Nat} (kept : ∀ i, (s.port n).txCell = some i → (s.cell i).abandon = false) : dropAbandoned s n = s := by
  unfold dropAbandoned
  split
  · next i taken => simp [kept i taken]
  · rfl
/-- No cell is let go of at a decision point, and none selected. -/
structure Steady (s : State) (n : Nat) : Prop where
  kept : ∀ i, (s.port n).txCell = some i → (s.cell i).abandon = false
  chosen : pCell s n = true → (s.port n).txCell.isSome = true

namespace Steady
variable {s : State} {n : Nat} (h : Steady s n)
include h

theorem dropAbandoned : dropAbandoned s n = s := dropAbandoned_kept h.kept
theorem prepareTx : prepareTx s n = s := by
  refine if_pos ?_
  cases cell : pCell s n
  · simp
  · simp [h.chosen cell]

/-- With nothing to send, the transmitter rests. -/
theorem decides_none (choice : txChoice s n = none) (f : Nat) : txDecide n f s = txIdle s n := by
  cases f with
  | zero => rfl
  | succ f =>
    rw [txDecide, h.dropAbandoned]
    dsimp only
    rw [h.prepareTx, choice]
    exact ite_self _

section
variable (free : txHeld s n = false) {it : TxItem} (choice : txChoice s n = some it) (f : Nat)
include free choice

/-- Without driver enable the chosen item begins. -/
theorem decides (role : pRole s n ≠ 2) : txDecide n (f + 1) s =
    if (txBegin s n it).1 then (txBegin s n it).2 else txDecide n f (txBegin s n it).2 := by
  rw [txDecide, h.dropAbandoned]
  dsimp only
  rw [if_neg (by simp [free]), h.prepareTx, choice]
  dsimp only
  rw [if_neg (by simp [role])]
  rcases txBegin s n it with ⟨_ | _, t⟩ <;> rfl

/-- With driver enable and a lead it waits for the lead (R217). -/
theorem decides_lead (role : pRole s n = 2) (echo : pEcho s n = true) (released : (s.port n).de = false) (lead : s.fld (pAddr n 6) 0 8 ≠ 0) :
    txDecide n (f + 1) s = s.setPort n { s.port n with de := true, tx := .lead, item := it } := by
  have asserted : deAssert s n = s.setPort n { s.port n with de := true } := if_pos (by exact echo)
  rw [txDecide, h.dropAbandoned]
  dsimp only
  rw [if_neg (by simp [free]), h.prepareTx, choice]
  dsimp only
  rw [if_pos (by simp [role, released]), asserted, if_neg (by exact lead), modPort_setPort]

end
end Steady

/-- A bit tick of an idle transmitter is a decision point (R168). -/
theorem Steady.starts {s : State} {n : PortId} (h : Steady s n) (free : txHeld s n = false) {it : TxItem} (choice : txChoice s n = some it)
    (idle : (s.port n).tx = .idle) : exec (.transmitterStart n) s = .next (txDecide n 4 s) := by
  have thawed : (s.port n).frozen = false := by
    cases frozen : (s.port n).frozen
    · rfl
    · simp [txHeld, frozen] at free
  show execTransmitterStart n s = _
  rw [execTransmitterStart]
  dsimp only
  rw [if_neg (by simp [idle, thawed]), h.dropAbandoned, if_neg (by simp [free]), h.prepareTx, if_pos (by simp [choice])]

/-- A requested break comes first. -/
theorem txChoice_break {s : State} {n : Nat} (asked : (s.port n).brkReq = true) : txChoice s n = some .brk := if_pos asked
/-- Without flow control data goes where it is ready. -/
theorem txChoice_data {s : State} {n : Nat} (asked : (s.port n).brkReq = false) (flow : pFlow s n = 0) :
    txChoice s n = if dataReady s n then some .data else none := by
  simp [txChoice, asked, flow]
theorem dataReady_held {s : State} {n : Nat} (trunk : portTrunk s n = none) (hold : pCell s n = false) {h : TxChar}
    (held : (s.port n).txHold = some h) (decided : h.wait = none) : dataReady s n = true := by
  simp [dataReady, trunk, hold, held, decided]
theorem dataReady_empty {s : State} {n : Nat} (trunk : portTrunk s n = none) (hold : pCell s n = false)
    (empty : (s.port n).txHold = none) : dataReady s n = false := by
  simp [dataReady, trunk, hold, empty]
theorem dataReady_cell {s : State} {n : Nat} (trunk : portTrunk s n = none) (cell : pCell s n = true) :
    dataReady s n = (s.port n).txCell.isSome := by
  simp [dataReady, trunk, cell]

/-! ## Nothing to send -/

/-- A HOLD port that carries no trunk has nothing to send: no break, no flow control, no character and no cell. -/
structure Spent (s : State) (n : Nat) : Prop where
  trunk : portTrunk s n = none
  flow : pFlow s n = 0
  role : pRole s n ≠ 2
  hold : pCell s n = false
  noCell : (s.port n).txCell = none
  noBreak : (s.port n).brkReq = false
  noChar : (s.port n).txHold = none

/-- Without driver enable the transmitter is idle at once; TXIDLE may be set. -/
theorem txIdle_lands {s : State} {n : Nat} (role : pRole s n ≠ 2) : PortStep s n { s.port n with tx := .idle } [pAddr n 0x13] (txIdle s n) := by
  have idle : PortStep s n { s.port n with tx := .idle } [] (s.setPort n { s.port n with tx := .idle }) := (PortStep.refl s n).setPort _
  unfold txIdle
  dsimp only
  rw [if_neg (c := (pRole s n == 2 && (s.port n).de) = true) (by simp [role])]
  split
  · exact idle.setBit _ 10
  · exact idle.mono (by simp)

/-- It rests at a decision point. -/
theorem Spent.rests {s : State} {n : Nat} (h : Spent s n) (f : Nat) :
    PortStep s n { s.port n with tx := .idle } [pAddr n 0x13] (txDecide n f s) := by
  have steady : Steady s n := ⟨by simp [h.noCell], by simp [h.hold]⟩
  have nothing : txChoice s n = none := by
    rw [txChoice_data h.noBreak h.flow, dataReady_empty h.trunk h.hold h.noChar]
    rfl
  rw [steady.decides_none nothing]
  exact txIdle_lands h.role

/-! ## What is sent -/

theorem txBegin_break (s : State) (n : Nat) :
    txBegin s n .brk = (true, s.setPort n { s.port n with tx := .brk, line := breakLine s n, brkReq := false }) := rfl

/-- The port with a held character on its line. -/
def sendingHeld (s : State) (n : Nat) (h : TxChar) : Port := { s.port n with tx := .char, line := charLine s n h.data h.mark, txHold := none }
theorem txBegin_held {s : State} {n : Nat} (trunk : portTrunk s n = none) (hold : pCell s n = false) {h : TxChar}
    (held : (s.port n).txHold = some h) : txBegin s n .data =
      if crc32c [h.data] = h.check then (true, feedEvent (s.setPort n (sendingHeld s n h)) n 1) else (false, failHeld s n h) := by
  by_cases agrees : crc32c [h.data] = h.check
  · simp [txBegin, trunk, hold, held, agrees, sendChar, modPort_modPort]
    rfl
  · simp [txBegin, trunk, hold, held, agrees]

/-- The cell's next byte on the port's line (R201, R283). -/
def sendingByte (s : State) (n i : Nat) : Port :=
  { s.port n with tx := .char, txOff := (s.port n).txOff + 1,
                  line := charLine s n (((s.cell i).payload[(s.port n).txOff]?).getD 0#8) ((s.port n).txOff == 0 && s.bit (pAddr n 8) 4) }
theorem txBegin_cell {s : State} {n i : Nat} (trunk : portTrunk s n = none) (cell : pCell s n = true) (taken : (s.port n).txCell = some i)
    (sound : (s.cell i).bad = []) (more : (s.port n).txOff + 1 < (s.cell i).payload.length) :
    txBegin s n .data = (true, s.setPort n (sendingByte s n i)) := by
  have byte : cellByte s n = (some (((s.cell i).payload[(s.port n).txOff]?).getD 0#8, (s.port n).txOff == 0 && s.bit (pAddr n 8) 4),
      modPort s n fun p => { p with txOff := (s.port n).txOff + 1 }) := by
    simp [cellByte, taken, sound, Nat.not_le.2 more]
    rfl
  simp [txBegin, trunk, cell, byte, sendChar, modPort_modPort]
  rfl

/-! ## A held character whose check fails (R285; log entry 60) -/

/-- The port without its held character. -/
def withoutHeld (s : State) (n : Nat) : State := s.setPort n { s.port n with txHold := none }

theorem pFeed_lt {s : State} {n c : Nat} (feed : pFeed s n = some c) : c < 64 := by
  unfold pFeed at feed
  split at feed
  · cases feed
    exact getF_lt _ 8 6
  · cases feed
theorem Aside.feedEvent {k : Bool} {s t : State} (h : Aside k s t) (n b : Nat) : Aside k s (feedEvent t n b) := by
  obtain ⟨c, eq⟩ := feedEvent_eq t n b
  rw [eq]
  exact h.update
theorem feedEvent_setup (s : State) (n b : Nat) : SameSetup n s (feedEvent s n b) := by
  obtain ⟨c, eq⟩ := feedEvent_eq s n b
  exact .of_regs (by rw [eq])

/-- What the failure says of it. -/
theorem failHeld_fed {s : State} {n c : Nat} (feed : pFeed s n = some c) (h : TxChar) :
    failHeld s n h = sleeveFail (feedEvent (withoutHeld s n) n 1) 5 c 0 false h.check (crc32c [h.data]) := by
  have fed : pFeed (feedEvent (withoutHeld s n) n 1) n = some c := (feedEvent_setup _ n 1).pFeed.trans feed
  unfold failHeld
  dsimp only
  rw [show modPort s n (fun p => { p with txHold := none }) = withoutHeld s n from rfl, fed]
theorem failHeld_unfed {s : State} {n : Nat} (feed : pFeed s n = none) (h : TxChar) : failHeld s n h = feedEvent (withoutHeld s n) n 1 := by
  have fed : pFeed (feedEvent (withoutHeld s n) n 1) n = none := (feedEvent_setup _ n 1).pFeed.trans feed
  unfold failHeld
  dsimp only
  rw [show modPort s n (fun p => { p with txHold := none }) = withoutHeld s n from rfl, fed]

/-- The failure leaves the port, which holds no character to send any more. -/
theorem failHeld_aside (s : State) (n : Nat) (h : TxChar) : Aside false (withoutHeld s n) (failHeld s n h) := by
  have told : Aside false (withoutHeld s n) (feedEvent (withoutHeld s n) n 1) := (Aside.refl _ _).feedEvent n 1
  cases feed : pFeed s n with
  | none => rwa [failHeld_unfed feed]
  | some c =>
    rw [failHeld_fed feed]
    exact Aside.sleeveFail (pFeed_lt feed) (Aside.count told (by decide) 16 16) ..
/-- It counts at point 5. -/
theorem failHeld_counts {s : State} {n c : Nat} (feed : pFeed s n = some c) (h : TxChar) :
    (failHeld s n h).fld 0x2013 16 16 = min (s.fld 0x2013 16 16 + 1) 65535 := by
  obtain ⟨k, eq⟩ := feedEvent_eq (withoutHeld s n) n 1
  have failed : Aside true ((feedEvent (withoutHeld s n) n 1).count 0x2013 16 16) (failHeld s n h) := by
    rw [failHeld_fed feed]
    exact Aside.sleeveFail (point := 5) (pFeed_lt feed) (.refl true _) ..
  rw [State.fld_of_reg (failed.words _ (by decide)), State.fld_count_same _ _ _ _ (by decide), satInc_sixteen, eq]
  rfl
theorem failHeld_spent {s : State} {n : Nat} (hn : n < 16) (trunk : portTrunk s n = none) (flow : pFlow s n = 0) (role : pRole s n ≠ 2)
    (hold : pCell s n = false) (noCell : (s.port n).txCell = none) (noBreak : (s.port n).brkReq = false) (h : TxChar) :
    Spent (failHeld s n h) n := by
  have aside := failHeld_aside s n h
  have setup : SameSetup n s (failHeld s n h) := (SameSetup.of_regs (s := s) (t := withoutHeld s n) rfl).trans (aside.setup hn)
  have port : (withoutHeld s n).port n = { s.port n with txHold := none } := (State.port_setPort ..).trans (if_pos rfl)
  have near := aside.ports n
  rw [port] at near
  exact ⟨setup.portTrunk.trans trunk, setup.pFlow.trans flow, by rwa [setup.pRole], setup.pCell.trans hold,
    (near.field (g := Port.txCell) fun _ => rfl).trans noCell, (near.field (g := Port.brkReq) fun _ => rfl).trans noBreak, near.held rfl⟩

/-! ## The end of a character or a break -/

theorem endLine_lands (s : State) (n : Nat) : PortStep s n { s.port n with line := [] } [] (endLine s n) := (PortStep.refl s n).setPort _
/-- A character sent counts. -/
def charSent (s : State) (n : Nat) : State := endLine (s.countWrap (pAddr n 0x19)) n
theorem charSent_lands (s : State) (n : Nat) : PortStep s n { s.port n with line := [] } [pAddr n 0x19] (charSent s n) :=
  ((PortStep.refl s n).setReg _ _).setPort _
theorem charSent_count (s : State) (n : Nat) : (charSent s n).reg (pAddr n 0x19) = s.reg (pAddr n 0x19) + 1#32 := by
  rw [State.reg_of_regs (t := charSent s n) (s := s.countWrap (pAddr n 0x19)) (State.setPort_regs ..), State.countWrap, State.reg_setReg, if_pos rfl]
theorem charSent_cells (s : State) (n : Nat) : (charSent s n).cells = s.cells := by simp [charSent, endLine, modPort]

section
variable {s u : State} {n : Nat} {l : List Nat} (ended : PortStep s n { s.port n with line := [] } l u)
  (counters : ∀ a ∈ l, pAddr n 0x13 ≤ a ∧ a < pAddr n 0x40)
include ended counters

theorem Spent.lineEnd (h : Spent s n) : Spent u n := by
  have setup := ended.setup counters
  obtain ⟨-, port, -, -⟩ := ended
  exact ⟨setup.portTrunk.trans h.trunk, setup.pFlow.trans h.flow, by rw [setup.pRole]; exact h.role, setup.pCell.trans h.hold,
    (congrArg Port.txCell port).trans h.noCell, (congrArg Port.brkReq port).trans h.noBreak, (congrArg Port.txHold port).trans h.noChar⟩
theorem Spent.restsAfter (h : Spent s n) (f : Nat) :
    PortStep s n { s.port n with tx := .idle, line := [] } (l ++ [pAddr n 0x13]) (txDecide n f u) := by
  have rests := (h.lineEnd ended counters).rests f
  have whole := ended.trans rests
  obtain ⟨-, port, -, -⟩ := ended
  rwa [port] at whole

theorem txHeld_lineEnd (hn : n < 16) : txHeld u n = txHeld s n := by
  have setup := ended.setup counters
  obtain ⟨eq, port, -, words⟩ := ended
  have settings : u.fld 0x105 0 4 = s.fld 0x105 0 4 := State.fld_of_reg (words _ fun mem => by
    have range := counters _ mem
    unfold pAddr at range
    omega) 0 4
  unfold txHeld pLive standsBy twinRule
  rw [setup.pEn, settings, port, eq]
  rfl
end

/-! ## The obligation -/

section
variable {s : State} {n : PortId} (free : txHeld s n = false) (trunk : portTrunk s n = none) (flow : pFlow s n = 0) (role : pRole s n ≠ 2)
include free trunk flow role

section
variable (hold : pCell s n = false) (noCell : (s.port n).txCell = none)
include hold noCell

theorem heldStart_runs (idle : (s.port n).tx = .idle) (noBreak : (s.port n).brkReq = false) {h : TxChar} (held : (s.port n).txHold = some h)
    (decided : h.wait = none) : exec (.transmitterStart n) s = .next
      (if crc32c [h.data] = h.check then feedEvent (s.setPort n (sendingHeld s n h)) n 1 else txDecide n 3 (failHeld s n h)) := by
  have steady : Steady s n := ⟨by simp [noCell], by simp [hold]⟩
  have choice : txChoice s n = some .data := by
    rw [txChoice_data noBreak flow, if_pos (dataReady_held trunk hold held decided)]
  rw [steady.starts free choice idle, steady.decides free choice 3 role, txBegin_held trunk hold held]
  split <;> rfl

end

theorem cellByte_runs (cell : pCell s n = true) (sends : (s.port n).tx = .char) (noBreak : (s.port n).brkReq = false) {i : Nat}
    (taken : (s.port n).txCell = some i) (kept : (s.cell i).abandon = false) (sound : (s.cell i).bad = [])
    (more : (s.port n).txOff + 1 < (s.cell i).payload.length) : exec (.transmitCharacterDone n) s =
      .next ((charSent s n).setPort n (sendingByte s n i)) := by
  have run : exec (.transmitCharacterDone n) s = .next (txDecide n 4 (charSent s n)) := if_pos (by rw [sends]; rfl)
  have setup := (charSent_lands s n).setup (by simp [pAddr])
  have port : (charSent s n).port n = { s.port n with line := [] } := (charSent_lands s n).2.1
  have cells (j : Nat) : (charSent s n).cell j = s.cell j := State.cell_of_cells (charSent_cells s n) j
  have taken' : ((charSent s n).port n).txCell = some i := by rw [port]; exact taken
  have cell' : pCell (charSent s n) n = true := setup.pCell.trans cell
  have steady : Steady (charSent s n) n := ⟨fun j hj => by cases taken'.symm.trans hj; rwa [cells], fun _ => by rw [taken']; rfl⟩
  have choice : txChoice (charSent s n) n = some .data := by
    rw [txChoice_data (by rw [port]; exact noBreak) (setup.pFlow.trans flow), dataReady_cell (setup.portTrunk.trans trunk) cell', taken']
    rfl
  have byte : sendingByte (charSent s n) n i = sendingByte s n i := by
    rw [sendingByte, sendingByte, setup.charLine, setup.bit (by decide), port, cells]
  rw [run, steady.decides ((txHeld_lineEnd (charSent_lands s n) (by simp [pAddr]) n.isLt).trans free) choice 3 (by rwa [setup.pRole]),
    txBegin_cell (setup.portTrunk.trans trunk) cell' taken' (by rwa [cells]) (by rw [port, cells]; exact more), if_pos rfl, byte]
end

theorem breakStart_runs {s : State} {n : PortId} (free : txHeld s n = false) (hold : pCell s n = false) (noCell : (s.port n).txCell = none)
    (role : pRole s n ≠ 2) (asked : (s.port n).brkReq = true) (idle : (s.port n).tx = .idle) : exec (.transmitterStart n) s =
      .next (s.setPort n { s.port n with tx := .brk, line := breakLine s n, brkReq := false }) := by
  have steady : Steady s n := ⟨by simp [noCell], by simp [hold]⟩
  rw [steady.starts free (txChoice_break asked) idle, steady.decides free (txChoice_break asked) 3 role, txBegin_break, if_pos rfl]
theorem leadStart_runs {s : State} {n : PortId} (free : txHeld s n = false) (hold : pCell s n = false) (noCell : (s.port n).txCell = none)
    (role : pRole s n = 2) (echo : pEcho s n = true) (released : (s.port n).de = false) (asked : (s.port n).brkReq = true)
    (idle : (s.port n).tx = .idle) (lead : s.fld (pAddr n 6) 0 8 ≠ 0) : exec (.transmitterStart n) s =
      .next (s.setPort n { s.port n with de := true, tx := .lead, item := .brk }) := by
  have steady : Steady s n := ⟨by simp [noCell], by simp [hold]⟩
  rw [steady.starts free (txChoice_break asked) idle, steady.decides_lead free (txChoice_break asked) 3 role echo released lead]

theorem leadEnd_runs {s : State} {n : PortId} (leads : (s.port n).tx = .lead) (free : txHeld s n = false) (item : (s.port n).item = .brk)
    (kept : ∀ i, (s.port n).txCell = some i → (s.cell i).abandon = false) : exec (.deLeadEnd n) s =
      .next (s.setPort n { s.port n with tx := .brk, line := breakLine s n, brkReq := false }) := by
  show execDeLeadEnd n s = _
  rw [execDeLeadEnd]
  dsimp only
  rw [if_pos (by rw [leads]; rfl), dropAbandoned_kept kept, if_neg (by simp [free]), congrArg (txBegin s n) item, txBegin_break]

/-- A held character whose check fails is dropped and counts at point 5 (R285; log entry 60). -/
theorem heldFails_lands {s : State} {n : PortId} (trunk : portTrunk s n = none) (flow : pFlow s n = 0) (role : pRole s n ≠ 2)
    (hold : pCell s n = false) (noCell : (s.port n).txCell = none) (noBreak : (s.port n).brkReq = false) (h : TxChar) :
    ((txDecide n 3 (failHeld s n h)).port n).txHold = none ∧
      ∀ c, pFeed s n = some c → (txDecide n 3 (failHeld s n h)).fld 0x2013 16 16 = min (s.fld 0x2013 16 16 + 1) 65535 := by
  have spent := failHeld_spent n.isLt trunk flow role hold noCell noBreak h
  obtain ⟨-, port, -, words⟩ := spent.rests 3
  refine ⟨(congrArg Port.txHold port).trans spent.noChar, fun c feed => ?_⟩
  rw [State.fld_of_reg (words _ (by simp [pAddr]; omega)), failHeld_counts feed]

/-- Settles O38: at a decision point no cell is let go of (`Steady`), so the transmitter begins the item chosen or waits for its lead, and one with
nothing to send (`Spent`) rests; the end of a character or a break leaves what the decision reads (`txHeld_lineEnd`). -/
theorem portTransmitter : Obligations.PortTransmitter := by
  unfold Obligations.PortTransmitter
  intro s n h i p clear same
  refine ⟨fun ⟨free, trunk, flow, role⟩ hold noCell => ⟨fun idle asked => breakStart_runs free hold noCell role asked idle,
      fun idle noBreak held decided => ?held, fun noBreak noChar => ?rests⟩,
    fun free hold noCell role echo released asked idle lead => ?lead, fun ⟨free, trunk, flow, role⟩ cell sends noBreak taken kept sound more => ?byte,
    leadEnd_runs, fun lags => ?lag, fun (out : _ ∧ _ ∨ (s.port n).frozen = true) => ?stays,
    fun noChar => ?noChar, fun noBreak => ?noBreak, fun noLead => ?noLead, fun noLag => ?noLag⟩
  case held =>
    have run := heldStart_runs free trunk flow role hold noCell idle noBreak held decided
    refine ⟨fun agrees => ?_, fun differs => ?_⟩
    · rw [if_pos agrees] at run
      obtain ⟨k, told⟩ := feedEvent_eq (s.setPort n (sendingHeld s n h)) n 1
      refine ⟨_, run, ?_, by rw [told]; rfl, by rw [told]; rfl, fun c feed => feedEvent_sets trunk feed (by decide)⟩
      rw [told]
      exact (State.port_setPort ..).trans (if_pos rfl)
    · rw [if_neg differs] at run
      exact ⟨_, run, heldFails_lands trunk flow role hold noCell noBreak h⟩
  case rests =>
    have spent : Spent s n := ⟨trunk, flow, role, hold, noCell, noBreak, noChar⟩
    refine ⟨fun sends => ?_, fun sends => ?_⟩
    · have run : exec (.transmitCharacterDone n) s = .next (txDecide n 4 (charSent s n)) := if_pos (by rw [show (s.port n).tx = .char from sends]; rfl)
      obtain ⟨-, port, -, -⟩ := spent.restsAfter (charSent_lands s n) (by simp [pAddr]) 4
      obtain ⟨-, -, -, words⟩ := (spent.lineEnd (charSent_lands s n) (by simp [pAddr])).rests 4
      exact ⟨_, run, port, (words _ (by simp [pAddr])).trans (charSent_count s n)⟩
    · have run : exec (.breakSendEnd n) s = .next (txDecide n 4 (endLine s n)) := if_pos (by rw [show (s.port n).tx = .brk from sends]; rfl)
      obtain ⟨-, port, -, words⟩ := spent.restsAfter (endLine_lands s n) (by simp) 4
      exact ⟨_, run, port, words _ (by simp [pAddr])⟩
  case lead =>
    exact ⟨_, leadStart_runs free hold noCell role echo released asked idle lead, (State.port_setPort ..).trans (if_pos rfl), rfl⟩
  case byte =>
    exact ⟨_, cellByte_runs free trunk flow role cell sends noBreak taken kept sound more, (State.port_setPort ..).trans (if_pos rfl),
      (State.setPort_cells ..).trans (charSent_cells s n), (State.reg_of_regs (State.setPort_regs ..) _).trans (charSent_count s n)⟩
  case lag => exact if_pos (by rw [show (s.port n).tx = .lag from lags]; rfl)
  case noChar => exact if_neg (by simpa using noChar)
  case noBreak => exact if_neg (by simpa using noBreak)
  case noLead => exact if_neg (by simpa using noLead)
  case noLag => exact if_neg (by simpa using noLag)
  case stays =>
    refine if_pos ?_
    rcases out with ⟨busy, noLag⟩ | frozen
    · simp [show (s.port n).tx ≠ .idle from busy, show (s.port n).tx ≠ .lag from noLag]
    · simp [frozen]

end Sys2Proof.Machine
end
